-- ==== Sys2Proof/Word.lean ====
section
/-! DEFINITION. The word types of the device (R6): the 36-bit native word, the octet of the network and the
PCIe link, and the 80-bit accumulator of a core (R234). -/
namespace Sys2Proof

/-- The native word of 36 bits (R6): registers, core data, DRAM contents, chute entries, descriptors. -/
abbrev Word := BitVec 36

/-- An octet of the PCIe link or of a network interface (R6). -/
abbrev Octet := BitVec 8

/-- A core's accumulator (R234). -/
abbrev AccWord := BitVec 80

end Sys2Proof
end

