-- ==== Sys2Proof/Syntax.lean ====
section
/-! DEFINITION. The commands of the block: the operands they carry, and the one inductive of commands, a constructor
for each row of spec/opcode_table.json. -/
namespace Sys2Proof

/-- The requesters of register accesses (R31), and the image loader during bring-up (R516).
[DEDUCED, log entry 110: safe] -/
inductive Requester where
  | pcie | kc0 | kc1 | kc2 | kc3 | loader
  deriving DecidableEq, Repr

/-- The part of an 8-octet slot that an access covers: all of it, its low half or its high half (R432).
[DEDUCED, log entry 65: safe] -/
inductive SlotPart where
  | whole | low | high
  deriving DecidableEq, Repr

/-- A core: 0 to 95 are the channel cores CC0 to CC95, 96 to 99 the control cores KC0 to KC3 (R233, R240). -/
abbrev CoreId := Fin 100

/-- A general register number (R240). -/
abbrev GReg := Fin 32

/-- An accumulator number (R240). -/
abbrev AReg := Fin 4

/-- An address register number (R240). -/
abbrev XReg := Fin 8

/-- The registers of an engine instruction with a result: RD takes it, RB names what it works on (R245). -/
structure RdRb where
  rd : GReg
  rb : GReg
  deriving DecidableEq, Repr

/-- A word reaching a chute: the chute, and whether a pop or a DROPREST of it follows in the same cycle (R298, R307). -/
structure Arrival where
  chute : Fin 2048
  paired : Bool
  deriving DecidableEq, Repr

/-- The fields of a format M access, and of TAPM (R241, R245): the address register, U, MODE, SZ and OFF. -/
structure MemOp where
  upd : Bool
  xa : XReg
  mode : Fin 4
  sz : Fin 4
  off : BitVec 17
  deriving DecidableEq, Repr

/-- One slot of a bundle: an instruction with its fields as Table 9.6 lays them out (R245, R246). -/
inductive CoreOp where
  | nop
  | add (s : Bool) (rd ra rb : GReg) | sub (s : Bool) (rd ra rb : GReg)
  | neg (s : Bool) (rd ra : GReg) | abs (s : Bool) (rd ra : GReg)
  | and (rd ra rb : GReg) | or (rd ra rb : GReg) | xor (rd ra rb : GReg) | andn (rd ra rb : GReg)
  | shl (s : Bool) (rd ra rb : GReg) (sh : Fin 64) | asr (rd ra rb : GReg) (sh : Fin 64)
  | lsr (rd ra rb : GReg) (sh : Fin 64) | asrr (rd ra rb : GReg) (sh : Fin 64)
  | min (rd ra rb : GReg) | max (rd ra rb : GReg) | cmp (ra rb : GReg)
  | cls (rd ra : GReg) | brev (rd ra : GReg) (sh : Fin 64)
  | mulf (s : Bool) (rd ra rb : GReg) | muli (s : Bool) (rd ra rb : GReg) | mulh (rd ra rb : GReg)
  | addi (s : Bool) (rd ra : GReg) (imm : BitVec 19) | andi (rd ra : GReg) (imm : BitVec 19)
  | ori (rd ra : GReg) (imm : BitVec 19) | lui (rd : GReg) (imm : BitVec 19)
  | cmpi (ra : GReg) (imm : BitVec 19)
  | ld (rd : GReg) (m : MemOp) | st (rs : GReg) (m : MemOp)
  | ldp (rd ra : GReg) (imm : BitVec 19) | ldpl (rd ra : GReg) (imm : BitVec 19)
  | mac (s : Bool) (ad : AReg) (ra rb : GReg) | msu (s : Bool) (ad : AReg) (ra rb : GReg)
  | mpy (s : Bool) (ad : AReg) (ra rb : GReg) | clra (ad : AReg)
  | accr (s : Bool) (ad : AReg) (ra : GReg) (sh : BitVec 6) | accw (ad : AReg) (rb : GReg)
  | adda (s : Bool) (ad asrc : AReg) | aget (ad : AReg) (ra : GReg) (part : Fin 4)
  | aput (ad : AReg) (rb : GReg) (part : Fin 4)
  | tapm (s : Bool) (ad : AReg) (xa : XReg) (mode : Fin 4)
  | br (cond : Fin 16) (link : Bool) (off : BitVec 18) | jr (rd ra : GReg)
  | loop (lv : Fin 2) (reg : Option GReg) (cnt : Fin 16384) (body : Fin 16384)
  | setX (k : XReg) (ra : GReg) | getX (rd : GReg) (k : XReg)
  | setXB (k : XReg) (ra : GReg) | getXB (rd : GReg) (k : XReg)
  | setXL (k : XReg) (ra : GReg) | getXL (rd : GReg) (k : XReg)
  | setTcr (ra : GReg) | getTcr (rd : GReg)
  | csrr (rd : GReg) (cr : BitVec 19) | csrw (ra : GReg) (cr : BitVec 19)
  | take | spawn (ra : GReg)
  | push (ra rb : GReg) (fin : Bool) | pop (rd rb : GReg)
  | dropRest (rd rb : GReg) | chcCount (rd rb : GReg) | chcPkts (rd rb : GReg)
  | dmovIn (ra rb : GReg) (n : BitVec 8) | dmovOut (ra rb : GReg) (n : BitVec 8)
  | kreq (ra rb : GReg) | bsub (rd ra : GReg) (unit : Fin 4)
  | mxadd (ra rb : GReg) (n : Fin 16) | mxrd (ra rb : GReg) (n : Fin 16)
  | txp (ra : GReg) | waite
  | rdtMt (rd : GReg) | rdtSubtick (rd : GReg) | rdtNs (rd : GReg) | rdtCount (rd : GReg)
  | rgr (rd ra : GReg) | rgw (ra rb : GReg)
  | reti | trap | wfi
  deriving DecidableEq, Repr

/-- An uncorrectable error that the Kerf engine meets while it computes (R155): none, in the lane's own state, or
in a coefficient word of the gang's set, in one of its banks. -/
inductive KerfErr where
  | none | lane | coef (bank : Fin 2) (index : Fin 4096)
  deriving DecidableEq, Repr

/-- A node of the Boom that has a SHAPER register (R353). -/
inductive ShaperNode where
  | port (p : Fin 67) | tenant (t : Fin 4096) | service (n : Fin 32768)
  deriving DecidableEq, Repr

/-- An output entry of a TDM or a MADI port (R385). -/
inductive OutEntry where
  | tdm (u : Fin 8) (slot : Fin 32) | madi (u : Fin 4) (chan : Fin 64)
  deriving DecidableEq, Repr

/-- The commands of the block: one for each row of spec/opcode_table.json, with the row's operands. What arrives from
outside with an event (the octets of a frame, the level of a pin, a reading) is an operand too. -/
inductive Instr where
  /-- REGISTER_WRITE: A 36-bit write of the register at a BAR0 octet offset (R11, R12, R36, R515). -/
  | registerWrite (q : Requester) (off : BitVec 26) (w : Word)
  /-- READ_AND_CLEAR: A 36-bit read of the register at a BAR0 octet offset; an RC field is cleared by it (R11). -/
  | readAndClear (q : Requester) (off : BitVec 26)
  /-- BAR0_LOW_WRITE: A 32-bit write of the low half of a slot (R432, R433). -/
  | bar0LowWrite (q : Requester) (off : BitVec 26) (v : BitVec 32)
  /-- BAR0_HIGH_WRITE: A 32-bit write of the high half of a slot (R432, R433). -/
  | bar0HighWrite (q : Requester) (off : BitVec 26) (v : BitVec 32)
  /-- BAR0_LOW_READ: A 32-bit read of the low half of a slot, or of the high half after it (R432). -/
  | bar0LowRead (off : BitVec 26) (high : Bool)
  /-- BAR0_BAD_ACCESS: A BAR0 access of another size or alignment (R434). -/
  | bar0BadAccess (off : BitVec 26) (write : Bool)
  /-- BAR2_READ: A host read through the BAR2 window (R435, R436). -/
  | bar2Read (off : BitVec 40) (part : SlotPart)
  /-- BAR2_WRITE: A host write through the BAR2 window (R435, R80, R325). -/
  | bar2Write (off : BitVec 40) (part : SlotPart) (v : BitVec 64)
  /-- TIME_NOW_READ: A read of TIME.NOW_SECLO (R47). -/
  | timeNowRead (q : Requester)
  /-- MAC_COUNTER_LOW_READ: A read of the low register of a 72-bit MAC counter (R380). -/
  | macCounterLowRead (q : Requester) (p : Fin 64) (k : Fin 3)
  /-- FAULT_LAST_READ: A read of FAULT.LAST[0] (R517). -/
  | faultLastRead (q : Requester)
  /-- COREDBG_LASTEXC_READ: A read of COREDBG.LASTEXC (R517). -/
  | coredbgLastexcRead (q : Requester)
  /-- MC_ELOG_READ: A read of MC.ELOG[0] (R424). -/
  | mcElogRead (q : Requester)
  /-- KERF_COEFDATA_ACCESS: A write of a word to KERF.COEFDATA, or a read of it (R147). -/
  | kerfCoefdataAccess (q : Requester) (w : Option Word)
  /-- TIME_RATE_WRITE: A write of TIME.RATE (R45, R46). -/
  | timeRateWrite (q : Requester) (w : Word)
  /-- STEP_GO: A write of TIME.STEP_NS with GO = 1 (R48). -/
  | stepGo (q : Requester) (w : Word)
  /-- TIME_SOURCE_WRITE: A write of TIME.CTRL (R53). -/
  | timeSourceWrite (q : Requester) (w : Word)
  /-- SERVO_EXCHANGE: The servo completes an exchange: its four times, or two and the mean path delay, in 2^-16 ns, the Sync
  interval, COUNT at its beginning, and whether its master is the chosen one and a record of it was lost (R68, R53). -/
  | servoExchange (t1 t2 t3 t4 : Nat) (peer : Option Nat) (log : Int) (begun : Nat) (master gap : Bool)
  /-- PPS_IN_EDGE: An edge of PPS_IN (R77). -/
  | ppsInEdge (rising : Bool)
  /-- ACTIVATE: The ACTIVATE command (R89, R92 to R102). -/
  | activate (q : Requester) (ch : Fin 32768)
  /-- UPDATE: The UPDATE command (R93). -/
  | update (q : Requester) (ch : Fin 32768)
  /-- DEACTIVATE: The DEACTIVATE command (R89). -/
  | deactivate (q : Requester) (ch : Fin 32768)
  /-- RESTART: The RESTART command (R90). -/
  | restart (q : Requester) (ch : Fin 32768)
  /-- READ: The READ command (R92). -/
  | read (q : Requester) (ch : Fin 32768)
  /-- CHANNEL_FIRST_FRAME: The first frame boundary of a PENDING channel (R89, Table 3.7). -/
  | channelFirstFrame (ch : Fin 32768)
  /-- UPDATE_APPLY: An accepted UPDATE applies at its frame boundary (R93, R282). -/
  | updateApply (ch : Fin 32768)
  /-- CHANNEL_RESTART_RESUME: A RESTARTING channel becomes ACTIVE at a block boundary (R90). -/
  | channelRestartResume (ch : Fin 32768)
  /-- KERF_SWAP_REQUEST: A write of KERF.GANG with SWAP = 1 (R148). -/
  | kerfSwapRequest (q : Requester) (g : Fin 16384) (w : Word)
  /-- KERF_SWAP_POINT: A pending bank swap takes effect (R148). -/
  | kerfSwapPoint (g : Fin 16384)
  /-- RING_LANE_ENABLE: A write of KERF.LRATE with EN = 1 (R152). -/
  | ringLaneEnable (q : Requester) (l : Fin 16384) (w : Word)
  /-- RING_LANE_STOP: A write of KERF.LRATE with EN = 0 (R154). -/
  | ringLaneStop (q : Requester) (l : Fin 16384) (w : Word)
  /-- RING_LANE_RELEASE: OWNER of a stopped ring lane becomes FREE (R154). -/
  | ringLaneRelease (l : Fin 16384)
  /-- RING_BLOCK_COMPUTE: A ring lane's block of outputs is computed and written (R153, R155). -/
  | ringBlockCompute (l : Fin 16384) (err : KerfErr)
  /-- KERF_REQUEST_COMPLETE: The oldest Kerf request of a core completes (R151, R155, R258). -/
  | kerfRequestComplete (k : CoreId) (err : KerfErr)
  /-- BUS_ENABLE: A write of CHAN.BUS with EN = 1 (R195). -/
  | busEnable (q : Requester) (b : Fin 4096) (w : Word)
  /-- BUS_DISABLE: A write of CHAN.BUS with EN = 0 (R195). -/
  | busDisable (q : Requester) (b : Fin 4096) (w : Word)
  /-- MIX_BLOCK_OPEN: A sum block of a bus opens (R197). -/
  | mixBlockOpen (b : Fin 4096)
  /-- MIX_BLOCK_CLOSE: A sum block of a bus closes (R197). -/
  | mixBlockClose (b : Fin 4096)
  /-- BALER_SUBMIT: A write of BALER.SUBMIT (R227). -/
  | balerSubmit (q : Requester) (u : Fin 4)
  /-- BALER_JOB_START: A unit picks its next job (R210). -/
  | balerJobStart (u : Fin 4)
  /-- BALER_JOB_COMPLETE: The running job of a unit ends; `mismatch` is the block at which in-line verification failed
  (R225, R231). -/
  | balerJobComplete (u : Fin 4) (mismatch : Option Nat)
  /-- NOP: The instruction does nothing (R246). -/
  | nop (k : CoreId) (mate : CoreOp)
  /-- ADD: RD = RA + RB under S (R246, R248). -/
  | add (k : CoreId) (sat : Bool) (rd ra rb : GReg) (mate : CoreOp)
  /-- SUB: RD = RA - RB under S (R246, R248). -/
  | sub (k : CoreId) (sat : Bool) (rd ra rb : GReg) (mate : CoreOp)
  /-- NEG: RD = -RA under S (R246, R248). -/
  | neg (k : CoreId) (sat : Bool) (rd ra : GReg) (mate : CoreOp)
  /-- ABS: RD = |RA| under S (R246, R248). -/
  | abs (k : CoreId) (sat : Bool) (rd ra : GReg) (mate : CoreOp)
  /-- AND: RD = RA AND RB (R246). -/
  | and (k : CoreId) (rd ra rb : GReg) (mate : CoreOp)
  /-- OR: RD = RA OR RB (R246). -/
  | or (k : CoreId) (rd ra rb : GReg) (mate : CoreOp)
  /-- XOR: RD = RA XOR RB (R246). -/
  | xor (k : CoreId) (rd ra rb : GReg) (mate : CoreOp)
  /-- ANDN: RD = RA AND NOT RB (R246). -/
  | andn (k : CoreId) (rd ra rb : GReg) (mate : CoreOp)
  /-- SHL: A left shift under S (R246, R248). -/
  | shl (k : CoreId) (sat : Bool) (rd ra rb : GReg) (sh : Fin 64) (mate : CoreOp)
  /-- ASR: An arithmetic right shift that truncates (R246). -/
  | asr (k : CoreId) (rd ra rb : GReg) (sh : Fin 64) (mate : CoreOp)
  /-- LSR: A logical right shift (R246). -/
  | lsr (k : CoreId) (rd ra rb : GReg) (sh : Fin 64) (mate : CoreOp)
  /-- ASRR: An arithmetic right shift that rounds halves up (R249). -/
  | asrr (k : CoreId) (rd ra rb : GReg) (sh : Fin 64) (mate : CoreOp)
  /-- MIN: The signed minimum (R246). -/
  | min (k : CoreId) (rd ra rb : GReg) (mate : CoreOp)
  /-- MAX: The signed maximum (R246). -/
  | max (k : CoreId) (rd ra rb : GReg) (mate : CoreOp)
  /-- CMP: The flags of RA - RB (R250). -/
  | cmp (k : CoreId) (ra rb : GReg) (mate : CoreOp)
  /-- CLS: The leading sign bits of RA (R246). -/
  | cls (k : CoreId) (rd ra : GReg) (mate : CoreOp)
  /-- BREV: The low SH bits of RA reversed (R246). -/
  | brev (k : CoreId) (rd ra : GReg) (sh : Fin 64) (mate : CoreOp)
  /-- MULF: A fractional product, rounded (R249). -/
  | mulf (k : CoreId) (sat : Bool) (rd ra rb : GReg) (mate : CoreOp)
  /-- MULI: An integer product (R248). -/
  | muli (k : CoreId) (sat : Bool) (rd ra rb : GReg) (mate : CoreOp)
  /-- MULH: Bits 71 to 36 of a product (R246). -/
  | mulh (k : CoreId) (rd ra rb : GReg) (mate : CoreOp)
  /-- ADDI: RD = RA + IMM under S (R248). -/
  | addi (k : CoreId) (sat : Bool) (rd ra : GReg) (imm : BitVec 19) (mate : CoreOp)
  /-- ANDI: RD = RA AND IMM (R246). -/
  | andi (k : CoreId) (rd ra : GReg) (imm : BitVec 19) (mate : CoreOp)
  /-- ORI: RD = RA OR IMM (R246). -/
  | ori (k : CoreId) (rd ra : GReg) (imm : BitVec 19) (mate : CoreOp)
  /-- LUI: RD = IMM shifted left by 17 bits (R246). -/
  | lui (k : CoreId) (rd : GReg) (imm : BitVec 19) (mate : CoreOp)
  /-- CMPI: The flags of RA - IMM (R250). -/
  | cmpi (k : CoreId) (ra : GReg) (imm : BitVec 19) (mate : CoreOp)
  /-- LD: A load of a word, double or line from local memory (R241). -/
  | ld (k : CoreId) (rd : GReg) (m : MemOp) (mate : CoreOp)
  /-- ST: A store of a word, double or line to local memory (R241). -/
  | st (k : CoreId) (rs : GReg) (m : MemOp) (mate : CoreOp)
  /-- LDP: A load of a word from program memory (R246). -/
  | ldp (k : CoreId) (rd ra : GReg) (imm : BitVec 19) (mate : CoreOp)
  /-- LDPL: A load of a line from program memory (R246). -/
  | ldpl (k : CoreId) (rd ra : GReg) (imm : BitVec 19) (mate : CoreOp)
  /-- MAC: A product added to an accumulator (R250). -/
  | mac (k : CoreId) (sat : Bool) (ad : AReg) (ra rb : GReg) (mate : CoreOp)
  /-- MSU: A product subtracted from an accumulator (R250). -/
  | msu (k : CoreId) (sat : Bool) (ad : AReg) (ra rb : GReg) (mate : CoreOp)
  /-- MPY: A product written to an accumulator (R250). -/
  | mpy (k : CoreId) (sat : Bool) (ad : AReg) (ra rb : GReg) (mate : CoreOp)
  /-- CLRA: An accumulator cleared (R246). -/
  | clra (k : CoreId) (ad : AReg) (mate : CoreOp)
  /-- ACCR: An accumulator read scaled and rounded (R249). -/
  | accr (k : CoreId) (sat : Bool) (ad : AReg) (ra : GReg) (sh : BitVec 6) (mate : CoreOp)
  /-- ACCW: A register written into an accumulator (R246). -/
  | accw (k : CoreId) (ad : AReg) (rb : GReg) (mate : CoreOp)
  /-- ADDA: One accumulator added to another (R248). -/
  | adda (k : CoreId) (sat : Bool) (ad asrc : AReg) (mate : CoreOp)
  /-- AGET: One part of an accumulator read (R246). -/
  | aget (k : CoreId) (ad : AReg) (ra : GReg) (part : Fin 4) (mate : CoreOp)
  /-- APUT: One part of an accumulator written (R246). -/
  | aput (k : CoreId) (ad : AReg) (rb : GReg) (part : Fin 4) (mate : CoreOp)
  /-- TAPM: Four filter taps, and the tap line moved by one sample (R252, R253). -/
  | tapm (k : CoreId) (sat : Bool) (ad : AReg) (xa : XReg) (mode : Fin 4) (mate : CoreOp)
  /-- BR: A branch on a condition (R246). -/
  | br (k : CoreId) (cond : Fin 16) (link : Bool) (off : BitVec 18) (mate : CoreOp)
  /-- JR: A jump to a register address (R246). -/
  | jr (k : CoreId) (rd ra : GReg) (mate : CoreOp)
  /-- LOOP: A hardware loop starts (R247). -/
  | loop (k : CoreId) (lv : Fin 2) (reg : Option GReg) (cnt body : Fin 16384) (mate : CoreOp)
  /-- MOVX_SET_X: The address register Xk written (R246). -/
  | movxSetX (k : CoreId) (x : XReg) (ra : GReg) (mate : CoreOp)
  /-- MOVX_GET_X: The address register Xk read (R246). -/
  | movxGetX (k : CoreId) (rd : GReg) (x : XReg) (mate : CoreOp)
  /-- MOVX_SET_XB: The address register XBk written (R246). -/
  | movxSetXB (k : CoreId) (x : XReg) (ra : GReg) (mate : CoreOp)
  /-- MOVX_GET_XB: The address register XBk read (R246). -/
  | movxGetXB (k : CoreId) (rd : GReg) (x : XReg) (mate : CoreOp)
  /-- MOVX_SET_XL: The address register XLk written (R246). -/
  | movxSetXL (k : CoreId) (x : XReg) (ra : GReg) (mate : CoreOp)
  /-- MOVX_GET_XL: The address register XLk read (R246). -/
  | movxGetXL (k : CoreId) (rd : GReg) (x : XReg) (mate : CoreOp)
  /-- MOVX_SET_TCR: The TAPM carry register written (R253). -/
  | movxSetTcr (k : CoreId) (ra : GReg) (mate : CoreOp)
  /-- MOVX_GET_TCR: The TAPM carry register read (R253). -/
  | movxGetTcr (k : CoreId) (rd : GReg) (mate : CoreOp)
  /-- CSRR: A control register read (R240, Tables 9.5 and 9.13). -/
  | csrr (k : CoreId) (rd : GReg) (cr : BitVec 19) (mate : CoreOp)
  /-- CSRW: A control register written (R240, Tables 9.5 and 9.13). -/
  | csrw (k : CoreId) (ra : GReg) (cr : BitVec 19) (mate : CoreOp)
  /-- TAKE: The item the core holds completes, and the core waits for the next (R255, R285). -/
  | take (k : CoreId) (mate : CoreOp)
  /-- SPAWN: A work item posted to the spawn pool (R256). -/
  | spawn (k : CoreId) (ra : GReg) (mate : CoreOp)
  /-- PUSH: A word handed to a chute (R257, R298). -/
  | push (k : CoreId) (ra rb : GReg) (fin : Bool) (mate : CoreOp)
  /-- POP: A word popped from a chute (R257). -/
  | pop (k : CoreId) (rd rb : GReg) (mate : CoreOp)
  /-- CHC_DROPREST: DROPREST of a chute (R306). -/
  | chcDroprest (k : CoreId) (regs : RdRb) (mate : CoreOp)
  /-- CHC_COUNT: The count of a chute (R257). -/
  | chcCount (k : CoreId) (rd rb : GReg) (mate : CoreOp)
  /-- CHC_PKTS: The packet count of a chute (R257). -/
  | chcPkts (k : CoreId) (rd rb : GReg) (mate : CoreOp)
  /-- DMOV_IN: A transfer of bursts from DRAM started (R258). -/
  | dmovIn (k : CoreId) (ra rb : GReg) (n : BitVec 8) (mate : CoreOp)
  /-- DMOV_OUT: A transfer of bursts to DRAM started (R258). -/
  | dmovOut (k : CoreId) (ra rb : GReg) (n : BitVec 8) (mate : CoreOp)
  /-- KREQ: A frame handed to a Kerf lane (R258). -/
  | kreq (k : CoreId) (ra rb : GReg) (mate : CoreOp)
  /-- BSUB: An in-chain Baler job submitted (R258). -/
  | bsub (k : CoreId) (rd ra : GReg) (unit : Fin 4) (mate : CoreOp)
  /-- MXADD: Contributions to a mix bus started (R258). -/
  | mxadd (k : CoreId) (ra rb : GReg) (n : Fin 16) (mate : CoreOp)
  /-- MXRD: A read of bus output samples started (R258). -/
  | mxrd (k : CoreId) (ra rb : GReg) (n : Fin 16) (mate : CoreOp)
  /-- TXP: A frame block sent into the Flume (R258). -/
  | txp (k : CoreId) (ra : GReg) (mate : CoreOp)
  /-- WAITE: The core waits until its transfers have completed (R259). -/
  | waite (k : CoreId) (mate : CoreOp)
  /-- RDT_MT: MT36 read (R259). -/
  | rdtMt (k : CoreId) (rd : GReg) (mate : CoreOp)
  /-- RDT_SUBTICK: The sub-tick count read (R259). -/
  | rdtSubtick (k : CoreId) (rd : GReg) (mate : CoreOp)
  /-- RDT_NS: Device time in launch-time form read (R259). -/
  | rdtNs (k : CoreId) (rd : GReg) (mate : CoreOp)
  /-- RDT_COUNT: COUNT [35:0] read (R259). -/
  | rdtCount (k : CoreId) (rd : GReg) (mate : CoreOp)
  /-- RGR: A BAR0 register read by a control core (R266). -/
  | rgr (k : CoreId) (rd ra : GReg) (mate : CoreOp)
  /-- RGW: A BAR0 register written by a control core (R266). -/
  | rgw (k : CoreId) (ra rb : GReg) (mate : CoreOp)
  /-- RETI: Return from an exception or interrupt (R265). -/
  | reti (k : CoreId) (mate : CoreOp)
  /-- TRAP: The TRAP exception (R260). -/
  | trap (k : CoreId) (mate : CoreOp)
  /-- WFI: Wait for an enabled interrupt line (R265). -/
  | wfi (k : CoreId) (mate : CoreOp)
  /-- INTERRUPT_TAKEN: A control core takes a pending exception, or the lowest enabled line, between bundles (R260, R265). -/
  | interruptTaken (kc : Fin 4) (cause : Option (Fin 6))
  /-- WATCHDOG: An item that has run longer than four periods (R260). -/
  | watchdog (k : Fin 96)
  /-- TIMER_COMPARE: Device time reaches TCMP (R263). -/
  | timerCompare (kc : Fin 4)
  /-- MBOX_WRITE: A write of COREDBG.MBOX[k] (R265). -/
  | mboxWrite (q : Requester) (k : Fin 4) (w : Word)
  /-- ENGINE_TRANSFER_COMPLETE: The i-th outstanding transfer of a core completes (R258). -/
  | engineTransferComplete (k : CoreId) (i : Fin 16)
  /-- ITEM_RELEASE: A slot's release tick is reached (R275). -/
  | itemRelease (n : Fin 65536)
  /-- READY_LIST_SPACE: Space frees in a ready list (R277). -/
  | readyListSpace (cl : Fin 12)
  /-- ITEM_ASSIGN: The head item of a ready list is given a staging buffer (R278). -/
  | itemAssign (cl : Fin 12)
  /-- ITEM_LANDED: The last word of an item's state is in its staging buffer (R279, R283). -/
  | itemLanded (place : Fin 192)
  /-- ITEM_DISPATCH: A landed item is delivered to its core (R284). -/
  | itemDispatch (k : Fin 96)
  /-- WRITE_BACK_COMPLETE: A completed item has been written back (R281). -/
  | writeBackComplete (place : Fin 192)
  /-- SQ_SUBMIT: The next SUBMIT entry of a queue is decided (R293). -/
  | sqSubmit (q : Requester)
  /-- SQ_CANCEL: The next CANCEL entry of a queue is decided (R294). -/
  | sqCancel (q : Requester)
  /-- SQBASE_WRITE: A write of LANDING.SQBASE (R291). -/
  | sqbaseWrite (q : Requester) (w : Word)
  /-- SQSIZE_WRITE: A write of LANDING.SQSIZE (R291). -/
  | sqsizeWrite (q : Requester) (w : Word)
  /-- SQTAIL_WRITE: A write of LANDING.SQTAIL (R292). -/
  | sqtailWrite (q : Requester) (w : Word)
  /-- CHUTE_PUSH_WRITE: A write of CHUTE.C[n].PUSH (R298). -/
  | chutePushWrite (q : Requester) (n : Fin 2048) (w : Word)
  /-- CHUTE_PUSHEND_WRITE: A write of CHUTE.C[n].PUSHEND (R298). -/
  | chutePushendWrite (q : Requester) (n : Fin 2048) (w : Word)
  /-- CHUTE_POP_READ: A read of CHUTE.C[n].POP (R298). -/
  | chutePopRead (q : Requester) (n : Fin 2048)
  /-- CHUTE_WORD_ARRIVE: The oldest word under way to a chute reaches it (R298, R300, R303). -/
  | chuteWordArrive (a : Arrival)
  /-- CHUTE_DROPREST_WRITE: A write of CHUTE.DROPREST (R306). -/
  | chuteDroprestWrite (q : Requester) (n : Fin 2048)
  /-- CHUTE_CFG_WRITE: A write of CHUTE.C[n].CFG with FORCE = 0 (R308). -/
  | chuteCfgWrite (q : Requester) (n : Fin 2048) (w : Word)
  /-- CHUTE_CFG_FORCE: A write of CHUTE.C[n].CFG with FORCE = 1 (R309). -/
  | chuteCfgForce (q : Requester) (n : Fin 2048) (w : Word)
  /-- CHUTE_CFG_APPLY: Deferred settings apply once the chute is empty (R308). -/
  | chuteCfgApply (n : Fin 2048)
  /-- FRAME_RECEIVE: The next octets of a frame on a physical port, its last ones with the FCS (R25). -/
  | frameReceive (p : Fin 64) (octets : List Octet) (last phyErr : Bool)
  /-- FLOW_CACHE_MISS_COMPLETE: The lookup of the oldest waiting frame of an ingress port has been read (R321). -/
  | flowCacheMissComplete (p : Fin 67)
  /-- FLOW_INSERT: The INSERT command (R324). -/
  | flowInsert (q : Requester)
  /-- FLOW_DELETE: The DELETE command (R324). -/
  | flowDelete (q : Requester)
  /-- FLOW_LOOKUP: The LOOKUP command (R324). -/
  | flowLookup (q : Requester)
  /-- FLOW_MODIFY: The MODIFY command (R324). -/
  | flowModify (q : Requester)
  /-- V6SET: The V6SET command (R324). -/
  | v6set (q : Requester) (i : Fin 65536)
  /-- V6CLEAR: The V6CLEAR command (R324). -/
  | v6clear (q : Requester) (i : Fin 65536)
  /-- LAUNCH_TIME_REACHED: The launch time of a queue's head is reached (R329). -/
  | launchTimeReached (queue : Fin 131072)
  /-- GATE_CHANGE_REQUEST: A write of GCTRL with CHANGE = 1 (R335). -/
  | gateChangeRequest (q : Requester) (p : Fin 64) (w : Word)
  /-- GATE_CHANGE_ABORT: A write of GCTRL with ABORT = 1 (R336). -/
  | gateChangeAbort (q : Requester) (p : Fin 64) (w : Word)
  /-- GATE_LIST_EXCHANGE: The start instant of a pending gate list (R336). -/
  | gateListExchange (p : Fin 64)
  /-- GATE_INTERVAL_END: A gate interval or cycle ends (R334, R329, R376). -/
  | gateIntervalEnd (p : Fin 64)
  /-- CUT_THROUGH_THRESHOLD: The buffered part of a queue's head reaches CTEFF (R327). -/
  | cutThroughThreshold (queue : Fin 131072)
  /-- BOOM_SELECT: A port selects its next frame (R347). -/
  | boomSelect (p : Fin 67)
  /-- FRAME_TRANSMIT_END: A frame's transmission ends (R344). -/
  | frameTransmitEnd (p : Fin 67)
  /-- SHAPER_WRITE: A write of a SHAPER register (R353). -/
  | shaperWrite (q : Requester) (node : ShaperNode) (w : Word)
  /-- BQUOTA_WRITE: A write of BOOM.TEN.BQUOTA (R357). -/
  | bquotaWrite (q : Requester) (t : Fin 4096) (w : Word)
  /-- TENANT_CFG_WRITE: A write of BOOM.TEN.CFG (R342). -/
  | tenantCfgWrite (q : Requester) (t : Fin 4096) (w : Word)
  /-- SERVICE_CFG_WRITE: A write of BOOM.SVC.CFG (R342). -/
  | serviceCfgWrite (q : Requester) (n : Fin 32768) (w : Word)
  /-- POLICER_CFG_WRITE: A write of BOOM.POL.CFG (R355). -/
  | policerCfgWrite (q : Requester) (n : Fin 65536) (w : Word)
  /-- PORT_ENABLE: A write of MAC.CFG with EN = 1 (R360). -/
  | portEnable (q : Requester) (p : Fin 64) (w : Word)
  /-- PORT_DISABLE: A write of MAC.CFG with EN = 0 (R364). -/
  | portDisable (q : Requester) (p : Fin 64) (w : Word)
  /-- LINK_ALIGNED: Every lane of a port aligns; the skew of the latest lane in 2^-4 ns, and the faults that stand (R361,
  R364). -/
  | linkAligned (p : Fin 64) (skew : Nat) (hiber localSets remoteSets : Bool)
  /-- LINK_ALIGNMENT_LOST: A lane loses alignment; the lanes that keep block lock (R364). -/
  | linkAlignmentLost (p : Fin 64) (locks : BitVec 8)
  /-- LINK_FAULT: High BER or fault ordered sets on an UP port (R364). -/
  | linkFault (p : Fin 64) (hiber localSets remoteSets : Bool)
  /-- LINK_FAULT_CLEAR: 128 columns without fault, with high BER clear (R364). -/
  | linkFaultClear (p : Fin 64) (skew : Nat)
  /-- TX_UNDERRUN: A transmitting frame's next octet is not buffered (R372). -/
  | txUnderrun (p : Fin 64)
  /-- CTADAPT_CLEAR: A write of MAC.CTADAPT with CLR = 1 (R373). -/
  | ctadaptClear (q : Requester) (p : Fin 64)
  /-- PREEMPT_ENABLE: A write of MAC.PREEMPT with EN = 1 (R375). -/
  | preemptEnable (q : Requester) (p : Fin 64) (w : Word)
  /-- VERIFY_TIMER_EXPIRY: The verify timer expires (R375). -/
  | verifyTimerExpiry (p : Fin 64)
  /-- VERIFY_MPACKET_RECEIVED: A verify mPacket is received (R375). -/
  | verifyMpacketReceived (p : Fin 64)
  /-- RESPOND_MPACKET_RECEIVED: A respond mPacket is received (R375). -/
  | respondMpacketReceived (p : Fin 64)
  /-- FRAGMENT_RECEIVED: A fragment of a preemptable frame is received (R377). -/
  | fragmentReceived (p : Fin 64) (start : Bool) (count : Fin 4) (octets : List Octet) (final mcrcOk : Bool)
  /-- SEGMENT_ENABLE: A write of SEG.CFG with EN = 1 (R388). -/
  | segmentEnable (q : Requester) (n : Fin 24) (w : Word)
  /-- SEGMENT_DISABLE: A write of SEG.CFG with EN = 0 (R388). -/
  | segmentDisable (q : Requester) (n : Fin 24) (w : Word)
  /-- SEGMENT_RECALL: A write of SEG.CFG with RECALL = 1 (R388). -/
  | segmentRecall (q : Requester) (n : Fin 24) (w : Word)
  /-- HEDGEROW_CYCLE_START: A 4 ms cycle of a segment starts (R388). -/
  | hedgerowCycleStart (n : Fin 24)
  /-- POLL_TIMEOUT: 300 us after a POLL without a REPLY (R390). -/
  | pollTimeout (n : Fin 24)
  /-- HG_REPLY_RECEIVED: A REPLY frame on a segment (R390). -/
  | hgReplyReceived (n : Fin 24) (octets : List Octet)
  /-- HG_AUDIO_RECEIVED: An upstream AUDIO frame on a segment (R393). -/
  | hgAudioReceived (n : Fin 24) (octets : List Octet)
  /-- HG_CONTROL_RECEIVED: A CONTROL frame on a segment (R396). -/
  | hgControlReceived (n : Fin 24) (octets : List Octet)
  /-- HG_CONTROL_SEND: A whole packet waiting in CTLTX is sent (R396). -/
  | hgControlSend (n : Fin 24)
  /-- HG_COLLISION: COL signals a collision (R392). -/
  | hgCollision (n : Fin 24)
  /-- HG_DOWN_ENABLE: A write of SEG.DOWN with EN = 1 (R391). -/
  | hgDownEnable (q : Requester) (n i : Fin 24) (w : Word)
  /-- MDIO_WRITE: HEDGE.MDIO GO with OP write (R387). -/
  | mdioWrite (q : Requester) (w : Word)
  /-- MDIO_READ: HEDGE.MDIO GO with OP read (R387). -/
  | mdioRead (q : Requester) (w : Word)
  /-- MDIO_COMPLETE: An MDIO access completes, a read with the PHY's data (R387). -/
  | mdioComplete (data : BitVec 16)
  /-- TDM_ENABLE: A write of TDM.CFG with EN = 1 (R400). -/
  | tdmEnable (q : Requester) (u : Fin 8) (w : Word)
  /-- TDM_FRAME: A TDM frame starts; its input slot words (R399). -/
  | tdmFrame (u : Fin 8) (ins : List Nat)
  /-- MADI_ENABLE: A write of MADI.CFG with EN = 1 (R401). -/
  | madiEnable (q : Requester) (u : Fin 4) (w : Word)
  /-- MADI_FRAME_RECEIVED: A MADI frame: each channel's active bit, parity error and audio bits (R402). -/
  | madiFrameReceived (u : Fin 4) (ins : List (Bool × Bool × Nat))
  /-- MADI_FRAME_TRANSMIT: A MADI frame begins (R401). -/
  | madiFrameTransmit (u : Fin 4)
  /-- OUTPUT_ENTRY_ENABLE: EN of a TDM or MADI output entry (R385). -/
  | outputEntryEnable (q : Requester) (e : OutEntry) (w : Word)
  /-- GPIO_INPUT_EDGE: A GPIO pin changes level (R403). -/
  | gpioInputEdge (g : Fin 32) (level : Bool)
  /-- GPIO_DEBOUNCE_EXPIRY: A new GPIO level has been stable (R403). -/
  | gpioDebounceExpiry (g : Fin 32)
  /-- GPIO_TIMED_QUEUE: A write of GPIO.TGO with GO = 1 (R404). -/
  | gpioTimedQueue (q : Requester) (w : Word)
  /-- DRAM_REQUEST: A read, write or masked write reaches the controller (R413, R414). -/
  | dramRequest (src : Fin 9) (host write : Bool) (burst : BitVec 34) (mask : BitVec 16) (ws : List Word)
  /-- DRAM_COMMAND_ISSUE: A subchannel issues its next command (R415). -/
  | dramCommandIssue (sc : Fin 16)
  /-- DRAM_READ_COMPLETE: The oldest read in flight returns, with the error pattern of its transfer (R409, R420). -/
  | dramReadComplete (sc : Fin 16) (pattern : BitVec 640)
  /-- REFRESH_DUE: A tREFI of a rank (R416). -/
  | refreshDue (sc : Fin 16) (rank : Fin 4)
  /-- CA_PARITY_ALERT: ALERT_n of a subchannel: how many of its last requests may have been lost (R421). -/
  | caParityAlert (sc : Fin 16) (n : Fin 65)
  /-- SCRUB_READ: A patrol scrub read (R422). -/
  | scrubRead (pattern : BitVec 640)
  /-- DRIFT_PAUSE_START: A drift pause begins; the ranks that report a high temperature (R426, R496). -/
  | driftPauseStart (sc : Fin 16) (hot : BitVec 4)
  /-- DRIFT_PAUSE_END: A drift pause ends; the lanes sampled late and early (R426). -/
  | driftPauseEnd (sc : Fin 16) (up down : BitVec 40)
  /-- FREQ_POINT_REQUEST: A write of MC.FPREQ (R427). -/
  | freqPointRequest (q : Requester) (w : Word)
  /-- RING_ENABLE: A write of R.CFG with EN = 1 (R438). -/
  | ringEnable (q : Requester) (r : Fin 16) (w : Word)
  /-- RING_DISABLE: A write of R.CFG with EN = 0 (R438). -/
  | ringDisable (q : Requester) (r : Fin 16) (w : Word)
  /-- RING_TAIL_WRITE: A write of R.TAIL (R438). -/
  | ringTailWrite (q : Requester) (r : Fin 16) (w : Word)
  /-- RING_TX: A TX descriptor and the frame it names in host memory (R442). -/
  | ringTx (r : Fin 16) (q0 q1 q2 : BitVec 64) (octets : List Octet)
  /-- RING_RX_FRAME: A frame selected at port 66, with the RX descriptors the ring fetches for it (R443). -/
  | ringRxFrame (descs : List (Nat × Nat))
  /-- RING_COPY: A COPY descriptor, with the host memory that it reads (R444). -/
  | ringCopy (r : Fin 16) (q0 q1 q2 : BitVec 64) (octets : List Octet)
  /-- RING_CAPTURE: A CAPTURE descriptor; whether record word 2 changed meanwhile (R445). -/
  | ringCapture (r : Fin 16) (q0 q1 q2 : BitVec 64) (changed : Bool)
  /-- DESCRIPTOR_COMPLETE: The oldest fetched descriptor of a ring completes (R440). -/
  | descriptorComplete (r : Fin 16)
  /-- HOST_READ_TIMEOUT: A read of host memory is not answered within 50 ms (R437). -/
  | hostReadTimeout (r : Fin 16) (q0 q1 q2 : BitVec 64)
  /-- MSIX_MODERATION_EXPIRY: A ring's moderation interval ends (R446). -/
  | msixModerationExpiry (r : Fin 16)
  /-- MSIX_UNMASK: A vector, or the function, is unmasked (R448). -/
  | msixUnmask (fn : Bool) (vec : Fin 256)
  /-- RESET_OR_PWROK_FALL: RESET_N or PWROK falls (R456). -/
  | resetOrPwrokFall (pwrok : Bool)
  /-- BRINGUP_START: Bring-up starts; BOOTSEL, and whether every sensor reads below 100 degrees (R455, R457). -/
  | bringupStart (bootsel : Fin 4) (cool : Bool)
  /-- FLASH_SETUP_COMPLETE: SFDP has been read: its validity and the flash's size (R464, R465). -/
  | flashSetupComplete (sfdp : Bool) (mib : Nat)
  /-- IMAGE_HEADER: The header of a slot as read (R466). -/
  | imageHeader (octets : List Octet)
  /-- IMAGE_RECORD_READ: A record of the image as read (R467). -/
  | imageRecordRead (octets : List Octet)
  /-- SIGNATURE_BLOCK: The signature block as read (R468). -/
  | signatureBlock (octets : List Octet)
  /-- TRAINING_COMPLETE: Training ends (R471, R472). -/
  | trainingComplete (ok : Bool)
  /-- REQUEST_RUN: A write of FAULT.MODEREQ with REQ = 1 (R478, Table 19.2). -/
  | requestRun (q : Requester)
  /-- REQUEST_ECO: A write of FAULT.MODEREQ with REQ = 2 (R478, Table 19.2). -/
  | requestEco (q : Requester)
  /-- REQUEST_DRAIN: A write of FAULT.MODEREQ with REQ = 3 (R478, Table 19.2). -/
  | requestDrain (q : Requester)
  /-- REQUEST_TEST: A write of FAULT.MODEREQ with REQ = 4 (R478, Table 19.2). -/
  | requestTest (q : Requester)
  /-- RECOVER_CHANNEL: A write of FAULT.MODEREQ with REQ = 5 (R478, Table 19.2). -/
  | recoverChannel (q : Requester)
  /-- RECOVER_FORWARDING: A write of FAULT.MODEREQ with REQ = 6 (R478, Table 19.2). -/
  | recoverForwarding (q : Requester)
  /-- RECOVER_BOTH: A write of FAULT.MODEREQ with REQ = 7 (R478, Table 19.2). -/
  | recoverBoth (q : Requester)
  /-- STEP_REQUEST: A write of FAULT.MODEREQ with REQ = 8 (R478, Table 19.2). -/
  | stepRequest (q : Requester)
  /-- FATAL_FAULT: A fatal fault of a source of Table 19.4; `chan` names the domain where the source can lie in either
  (R481). -/
  | fatalFault (source : Fin 64) (chan : Bool)
  /-- RECOVERY_FLUSH_END: The Flush phase of a domain ends (R485). -/
  | recoveryFlushEnd (chan : Bool)
  /-- RECOVERY_CHECK_END: The Check phase of a domain ends, or finds a word that stays bad (R485). -/
  | recoveryCheckEnd (chan bad : Bool)
  /-- RECOVERY_COMPLETE: RECOVERY of a domain completes (R485). -/
  | recoveryComplete (chan : Bool)
  /-- SENSOR_SAMPLE: The readings of the 64 sensors in eighths of a degree, and the mean powers of the domains and the
  package in mW (R493). -/
  | sensorSample (temps : List Int) (domains : List Nat) (total : Nat)
  /-- UTILISATION_PERIOD: The mean utilisations of the last 1 ms in per cent: 12 clusters and the control cores (R495). -/
  | utilisationPeriod (uses : List Nat)
  /-- OPP_CHANGE_COMPLETE: A change of operating point completes (R494). -/
  | oppChangeComplete (g : Fin 13)
  /-- PMB_ALERT: PMB_ALERT_N low: whether each listed converter's STATUS_WORD shows a fault (R500). -/
  | pmbAlert (faults : List Bool)
  /-- HG_FRAME_FORMAT_DISCARD: A Hedgerow frame that fails the checks of R389. -/
  | hgFrameFormatDiscard (n : Fin 24) (octets : List Octet)
  /-- JTAG_TCK_EDGE: An edge of JTAG_TCK, with the levels of JTAG_TRST_N, JTAG_TMS and JTAG_TDI (R508, R461). -/
  | jtagTckEdge (rise trstN tms tdi : Bool)
  /-- SAMPLE_TICK: Media time advances to the next sample index (R70). -/
  | sampleTick
  /-- BLOCK_BOUNDARY: A sample tick at which MT mod B is 0 opens a new block (R71, R121). -/
  | blockBoundary
  /-- HOLDOVER_TIMEOUT: No valid exchange for HOLDMS (R53, R69). -/
  | holdoverTimeout
  /-- PPS_OUT_EDGE: PPS_OUT takes its level (R76). -/
  | ppsOutEdge
  /-- WCLK_OUT_EDGE: WCLK_OUT takes its level (R76). -/
  | wclkOutEdge
  /-- FREQ_OUT_EDGE: FREQ_OUT takes its level (R76). -/
  | freqOutEdge
  /-- CHANNEL_INGRESS_FRAME: The oldest frame terminated to a channel is judged and stored or discarded (R27, R116). -/
  | channelIngressFrame
  /-- JB_WINDOW_END: A 48,000-sample window ends (R120, R122). -/
  | jbWindowEnd
  /-- HG_BACKOFF_EXPIRY: The back-off delay of every segment that is due ends (R392). -/
  | hgBackoffExpiry
  /-- GPIO_TIMED_APPLY: The earliest timed change that is due (R404). -/
  | gpioTimedApply
  /-- REFRESH_WINDOW_END: A refresh window ends (R417 to R419). -/
  | refreshWindowEnd
  /-- FREQ_CHANGE_START: A requested change of frequency point starts (R428). -/
  | freqChangeStart
  /-- FREQ_CHANGE_COMPLETE: The change of frequency point finishes (R428). -/
  | freqChangeComplete
  /-- PCIE_FLR: A Function Level Reset (R431). -/
  | pcieFlr
  /-- PERST_N_FALL: PERST_N falls (R458). -/
  | perstNFall
  /-- D3HOT_ENTRY: The function enters D3hot (R431). -/
  | d3hotEntry
  /-- MGMT_DATAGRAM: The oldest management datagram is judged and its operations run (R452, R453). -/
  | mgmtDatagram
  /-- RAILS_RISE: The rails rise (R477). -/
  | railsRise
  /-- RAILS_FALL: The rails fall (R477). -/
  | railsFall
  /-- FUSE_READ_COMPLETE: Every fuse bit has been read (R460). -/
  | fuseReadComplete
  /-- SLOT_RESET_COMPLETE: The block reset after a failed slot ends (R472). -/
  | slotResetComplete
  /-- REGS: The next record of its pass, of TYPE 1, is applied (R469, R515). -/
  | regsRecord
  /-- PROGRAM: The next record of its pass, of TYPE 2, is applied (R469). -/
  | programRecord
  /-- PATCH: The next record of its pass, of TYPE 3, is applied (R268). -/
  | patchRecord
  /-- CUSTOM: The next record of its pass, of TYPE 4, is applied (R269). -/
  | customRecord
  /-- TONESET: The next record of its pass, of TYPE 5, is applied (R175). -/
  | tonesetRecord
  /-- KERFSET: The next record of its pass, of TYPE 6, is applied (R469). -/
  | kerfsetRecord
  /-- MGMTKEY: The next record of its pass, of TYPE 7, is applied (R469). -/
  | mgmtkeyRecord
  /-- BOOT: The next record of its pass, of TYPE 8, is applied (R469). -/
  | bootRecord
  /-- RANGER: The next record of its pass, of TYPE 9, is applied (R501). -/
  | rangerRecord
  /-- DRAMZERO: The next record of its pass, of TYPE 10, is applied (R469). -/
  | dramzeroRecord
  /-- DRAMFILL: The next record of its pass, of TYPE 11, is applied (R470). -/
  | dramfillRecord
  /-- V6ADDR: The next record of its pass, of TYPE 12, is applied (R469). -/
  | v6addrRecord
  /-- FLOWS: The next record of its pass, of TYPE 13, is applied (R469). -/
  | flowsRecord
  /-- PASS1_COMPLETE: Pass 1 ends (R471). -/
  | pass1Complete
  /-- RELEASE: The device is released (R473). -/
  | release
  /-- FAULT_AREA_SCAN_END: The scan of the fault-record area ends (R488). -/
  | faultAreaScanEnd
  /-- FAULT_RECORD_WRITTEN: A queued entry has been written (R489, R484). -/
  | faultRecordWritten
  /-- FLASH_HALF_ERASED: The erase of the inactive half ends (R488). -/
  | flashHalfErased
  /-- PFAIL_N_FALL: PFAIL_N has been low for 1 us (R490). -/
  | pfailNFall
  /-- THROTTLE_STEP: A step of the throttle (R498). -/
  | throttleStep
  /-- THROTTLE_RESTORE: A step of the throttle is given back (R498). -/
  | throttleRestore
  /-- TDP_CAP_STEP: A step of the power cap (R497). -/
  | tdpCapStep
  /-- TDP_CAP_RESTORE: A step of the power cap is given back (R497). -/
  | tdpCapRestore
  /-- CLUSTER_GATE: Every idle cluster that is due is gated (R495). -/
  | clusterGate
  /-- THERMAL_TRIP: A sensor has read the trip threshold twice (R499). -/
  | thermalTrip
  /-- PERST_N_RISE: PERST_N rises (R458). -/
  | perstNRise
  /-- D3HOT_EXIT: The function returns to D0 (R431). -/
  | d3hotExit
  /-- JTAG_TRST_N_FALL: JTAG_TRST_N falls (R508). -/
  | jtagTrstNFall
  deriving DecidableEq, Repr

end Sys2Proof
end

