-- ==== Sys2Proof/Decode.lean ====
section
/-! DEFINITION. No row of spec/opcode_table.json gives bits: a command is not spelled by a word, and the table decoder
answers none for every word. -/
namespace Sys2Proof

/-- The command that a word spells by the table's bits: none, since the table gives no row any.
[DESIGN CHOICE, log entry 2: safe] -/
def decodeTableWord (_nbits _w : Nat) : Option Instr := none

end Sys2Proof
end

