-- ==== Sys2Proof/Config.lean ====
section
/-! DEFINITION. What an implementation fixes and the free values: constants with no body, so that no proof can see
what they are and a statement holds whatever they are. Each is applied to the state's counter of draws, to the
operands it depends on, or to both. -/
namespace Sys2Proof.Config

/-- A word of a DRAM burst that nothing has written since bring-up (R470), by its word address.
[DESIGN CHOICE, log entry 8: safe] -/
opaque dramWord : Nat → Word

/-- Whether a burst that nothing has written since bring-up reads as uncorrectable (R470), by its burst address.
[DESIGN CHOICE, log entry 8: safe] -/
opaque dramUncorrectable : Nat → Bool

/-- What the decoder of the DRAM check code makes of an error pattern that one device and beat do not hold (R409):
nothing, or the correctable pattern that it matches, as device + 10 * beat + 160 * (nibble - 1). The code's matrix
is not given.
[DESIGN CHOICE, log entry 96: safe] -/
opaque dramAlias : Nat → Option Nat

/-- A word of the core library ROM, whose contents the spec does not give (R267), by its program address; the control-core
library is keyed from 2^19 on.
[DESIGN CHOICE, log entry 8: safe] [DESIGN CHOICE, log entry 20: safe] -/
opaque romWord : Nat → Word

/-- A word of a local data memory before anything has written it (R237): by core and address.
[DESIGN CHOICE, log entry 8: safe] -/
opaque localWord : Nat → Nat → Word

/-- A word of program memory that no record of the image has written (R234, R472): by memory (clusters 0 to 11, 12 the
control program memory) and address.
[DESIGN CHOICE, log entry 8: safe] -/
opaque progWord : Nat → Nat → Word

/-- Whether C of SUB and CMPI is set where the unsigned subtraction borrows, or where it does not (R250): the spec does
not say which.
[DESIGN CHOICE, log entry 45: safe] -/
opaque carryIsBorrow : Bool

/-- Whether N of CMP and CMPI is the sign of the exact difference, or bit 35 of the difference modulo 2^36 (R248,
R250): the spec does not say which.
[DESIGN CHOICE, log entry 46: safe] -/
opaque compareExact : Bool

/-- Whether LC0 and LC1 count the iteration in progress (Table 9.5): the spec does not say.
[DESIGN CHOICE, log entry 47: safe] -/
opaque loopCountsCurrent : Bool

/-- A fuse bit as Yagemar delivers the device (Table 18.2): trims, vendor, grade and serial number are a device's own.
[DESIGN CHOICE, log entry 13: safe] -/
opaque fuseBit : Nat → Bool

/-- Length of the JTAG instruction register (R508), which the spec does not give.
[DESIGN CHOICE, log entry 112: safe] -/
opaque irLength : Nat

/-- The instruction that a value of the JTAG instruction register selects (R508): 0 BYPASS, 1 IDCODE, 2 SAMPLE or
PRELOAD, 3 EXTEST, 4 CLAMP, 5 fuse provisioning, any other a register of one bit. The codes are not given.
[DESIGN CHOICE, log entry 112: safe] -/
opaque irCode : Nat → Nat

/-- Cells of the boundary register (R508).
[DESIGN CHOICE, log entry 112: safe] -/
opaque bsrLength : Nat

/-- Bits of the provisioning register (R461), and the fuses that its contents name.
[DESIGN CHOICE, log entry 112: safe] -/
opaque fuseRegLength : Nat

/-- The fuses that a provisioning write asks for (R461): the register's layout is not given.
[DESIGN CHOICE, log entry 112: safe] -/
opaque fuseRegBits : List Bool → List Nat

/-- The program address of the library's chain entry, which the spec does not give (R274).
[DESIGN CHOICE, log entry 20: safe] -/
opaque chainEntry : Nat

/-- The program address of the library's dispatch entry, where a channel core executes TAKE after it has abandoned an
item (R261, R262): the spec does not give it.
[DESIGN CHOICE, log entry 20: safe] -/
opaque dispatchEntry : Nat

/-- The RATE that the servo's loop computes at a valid exchange (R69): the loop's gains are not given.
[DESIGN CHOICE, log entry 35: safe] -/
opaque servoRate : Nat → Nat

/-- The uncorrectable error that a cycle of the clock brings to an on-chip memory, if any: the memory, its unit and the address
(Chip.upsets). The spec says what such an error does, not when one comes.
[DESIGN CHOICE, log entry 141: safe] -/
opaque upset : Nat → Option (Nat × Nat × Nat)

/-- What the canceller's adaptation makes of its filter in a hop of far-end single talk (R162, R166, R167): of STEP, the
acoustic mode, the filter, the reference over the window and the errors of the hop.
[DESIGN CHOICE, log entry 23: safe] -/
opaque adapt : Nat → Bool → List Int → List Int → List Int → List Int

/-- The residual power that the canceller predicts for a hop (R163), of its filter and the reference over the window.
[DESIGN CHOICE, log entry 23: safe] -/
opaque residual : List Int → List Int → Nat

/-- The near-end background after a hop that measures it, in 16 bands (R165), of what it was and the errors of the hop.
[DESIGN CHOICE, log entry 23: safe] -/
opaque background : List Int → List Int → List Int

/-- The estimated residual echo of a band less the level that R164 asks for, in 0.1 dB, of the filter, the reference
over the window and the background.
[DESIGN CHOICE, log entry 23: safe] -/
opaque bandExcess : Nat → List Int → List Int → List Int → Nat

/-- The part of the newest of some samples that lies in one of 16 bands of equal width (R164).
[DESIGN CHOICE, log entry 23: safe] -/
opaque bandPart : Nat → List Int → Int

/-- A sample of comfort noise (R165): of the channel, the MT, the mode, CNGOFF and the background.
[DESIGN CHOICE, log entry 23: safe] -/
opaque comfortNoise : Nat → Nat → Nat → Int → List Int → Int

/-- The share of its attenuation, in 2^-32, that the NLP has reached a number of samples after the start of single talk, in
the 2 ms that R164 gives it.
[DESIGN CHOICE, log entry 23: safe] -/
opaque nlpAttack : Nat → Nat

/-- The signals of a channel at an MT are those under which Table 6.4 states its figures (R172): 0 they are not, 1 from
RESET on, 2 in the steady state, 3 after 2 s of double talk, 4 a number of ms after an echo-path change.
[DESIGN CHOICE, log entry 23: safe] -/
opaque testSignal : Nat → Nat → Nat × Nat

/-- Whether a detector accepts a window that lies between the limits at which it must and at which it must not (R176,
R177): of the detector and the samples.
[DESIGN CHOICE, log entry 24: unsafe] -/
opaque accepts : Nat → List Int → Bool

/-- The generator's level in 2^-32, within 0.05 dB of what R180 states.
[DESIGN CHOICE, log entry 25: safe] -/
opaque genLevel : Nat

/-- A sample of a fixed converter, whose coefficients are not given (R384, Table 15.1): of its kind (0 the 2:1 and 1 the 1:2 of a
TDM port, 2 the 1:3 and 3 the 3:1 of a Hedgerow stream), the phase of the output and its inputs, newest first.
[DESIGN CHOICE, log entry 22: safe] -/
opaque converter : Nat → Nat → List Int → Int

/-- A bit of the AES3 channel-status block that a MADI port sends (R401), by its place in the block: those that neither the
sampling frequency, the professional form nor the CRC fixes.
[DESIGN CHOICE, log entry 105: safe] -/
opaque channelStatus : Nat → Bool

/-- The frame of a MADI channel-status block that MT 0 falls on (R401), modulo 192.
[DESIGN CHOICE, log entry 105: safe] -/
opaque statusStart : Nat

/-- One draw of a bit where the spec leaves a choice between two values (a rounding direction, an outcome between
two stated limits).
[DESIGN CHOICE, log entry 7: safe] -/
opaque freeBit : Nat → Bool

/-- One draw of a whole number where the spec states no value.
[DESIGN CHOICE, log entry 7: safe] [DESIGN CHOICE, log entry 49: safe] -/
opaque freeNat : Nat → Nat

/-- One draw of an integer where the spec states no value.
[DESIGN CHOICE, log entry 7: safe] -/
opaque freeInt : Nat → Int

/-- One draw of a list of integers (samples, coefficients) where the spec states no values.
[DESIGN CHOICE, log entry 7: safe] -/
opaque freeInts : Nat → List Int

/-- One draw of octets where the spec states no values (a coder of an outside standard).
[DESIGN CHOICE, log entry 7: safe] -/
opaque freeOctets : Nat → List Octet

end Sys2Proof.Config
end

