-- ==== Sys2Proof/Machine/Bits.lean ====
section
/-! DEFINITION. Bit fields, signs, saturation, rounding and word to octet mappings: the plain arithmetic that
every block uses. -/
namespace Sys2Proof.Machine

/-- Bits `[hi:lo]` of a number, read as a number (R4). -/
def nbits (n hi lo : Nat) : Nat := (n >>> lo) % 2 ^ (hi + 1 - lo)

/-- Bits `[hi:lo]` of a word, read as a number (R4). -/
def wbits (w : Word) (hi lo : Nat) : Nat := nbits w.toNat hi lo

/-- One bit of a word (R4). -/
def wbit (w : Word) (i : Nat) : Bool := w.toNat.testBit i

/-- The number with bits `[hi:lo]` replaced by the low bits of `v`; the other bits stay. -/
def nput (n hi lo v : Nat) : Nat :=
  n - nbits n hi lo * 2 ^ lo + (v % 2 ^ (hi + 1 - lo)) * 2 ^ lo

/-- The word with bits `[hi:lo]` replaced by the low bits of `v`; the other bits stay (R4). -/
def wput (w : Word) (hi lo v : Nat) : Word := BitVec.ofNat 36 (nput w.toNat hi lo v)

/-- A number as a word, modulo 2^36. -/
def wofNat (n : Nat) : Word := BitVec.ofNat 36 n

/-- An integer as a word, two's complement modulo 2^36. -/
def wofInt (i : Int) : Word := BitVec.ofInt 36 i

/-- The signed value of an `n`-bit field. -/
def signed (n v : Nat) : Int :=
  let m := v % 2 ^ n
  if 2 * m < 2 ^ n then (m : Int) else (m : Int) - (2 ^ n : Nat)

/-- The unsigned `n`-bit pattern of an integer. -/
def unsignedOf (n : Nat) (i : Int) : Nat := (i % ((2 ^ n : Nat) : Int)).toNat

/-- The nearest value of an `n`-bit signed number. -/
def satN (n : Nat) (x : Int) : Int :=
  let m : Int := (2 ^ (n - 1) : Nat)
  if x < -m then -m else if m - 1 < x then m - 1 else x

/-- Saturation to the range of S36 (R8, R184). -/
def sat36 (x : Int) : Int := satN 36 x

/-- `x / 2^n` rounded to a whole number with halves toward plus infinity (R184, R249). -/
def roundShift (n : Nat) (x : Int) : Int :=
  if n = 0 then x else (x + (2 ^ (n - 1) : Nat)) / ((2 ^ n : Nat) : Int)

/-- `a / b` rounded to a whole number with halves toward plus infinity. -/
def roundDiv (a : Int) (b : Nat) : Int := (2 * a + b) / (2 * (b : Int))

/-- Ceiling of a quotient of whole numbers. -/
def ceilDiv (a b : Nat) : Nat := (a + b - 1) / b

/-- A Bool as a bit. -/
def b2n (b : Bool) : Nat := if b then 1 else 0

/-- The number of 1 bits among the low `n` bits. -/
def popcount : Nat → Nat → Nat
  | 0, _ => 0
  | n + 1, v => v % 2 + popcount n (v / 2)

/-- The saturation of R8 for PCM24 and PCM32: a sample whose bits [35:31] are not all equal is replaced by the
nearest 32-bit value; otherwise bits [31:0] are used unchanged. -/
def pcmSat (w : Word) : Nat :=
  let top := wbits w 35 31
  if top = 0 ∨ top = 31 then wbits w 31 0
  else if wbit w 35 then 0x80000000 else 0x7FFFFFFF

/-- Little-endian octets of a number. -/
def leOctets : Nat → Nat → List Octet
  | 0, _ => []
  | n + 1, v => BitVec.ofNat 8 v :: leOctets n (v / 256)

/-- The number that little-endian octets spell. -/
def ofLeOctets : List Octet → Nat
  | [] => 0
  | o :: r => o.toNat + 256 * ofLeOctets r

/-- The number that big-endian (network order) octets spell. -/
def ofBeOctets (l : List Octet) : Nat := l.foldl (fun a o => a * 256 + o.toNat) 0

/-- Network order octets of a number. -/
def beOctets (n v : Nat) : List Octet := (leOctets n v).reverse

/-- Take `n` numbers of `k` bits from a number, least significant first. -/
def chunksLE : Nat → Nat → Nat → List Nat
  | 0, _, _ => []
  | n + 1, k, v => v % 2 ^ k :: chunksLE n k (v / 2 ^ k)

/-- Put numbers of `k` bits together, least significant first. -/
def joinLE (k : Nat) : List Nat → Nat
  | [] => 0
  | x :: r => x % 2 ^ k + 2 ^ k * joinLE k r

/-- Cut a list into groups of `n` (the last one may be short); `fuel` bounds the number of groups. -/
def groupsOf {α : Type} (n : Nat) : Nat → List α → List (List α)
  | 0, _ => []
  | _ + 1, [] => []
  | f + 1, l => l.take n :: groupsOf n f (l.drop n)

/-- Mapping W64 on write-out (Table 0.3): one word in each 8-octet slot, bits [63:36] zero. -/
def w64Out (ws : List Word) : List Octet := ws.flatMap (fun w => leOctets 8 w.toNat)

/-- Mapping W64 on read-in (Table 0.3): bits [63:36] of each slot are ignored. -/
def w64In (os : List Octet) : List Word :=
  (groupsOf 8 os.length os).map (fun g => wofNat (ofLeOctets g))

/-- Mapping PACK on write-out (Table 0.3): eight words in 36 octets, padded to 8 words with zero words. -/
def packOut (ws : List Word) : List Octet :=
  (groupsOf 8 ws.length ws).flatMap (fun g => leOctets 36 (joinLE 36 (g.map (·.toNat))))

/-- Mapping PACK on read-in of `n` words (Table 0.3): words past the count are ignored. -/
def packIn (n : Nat) (os : List Octet) : List Word :=
  ((groupsOf 36 os.length os).flatMap (fun g => (chunksLE 8 36 (ofLeOctets g)).map wofNat)).take n

/-- Mapping PCM24 (Table 0.3): the saturated sample's bits [31:8] in 3 octets. -/
def pcm24Out (ws : List Word) : List Octet := ws.flatMap (fun w => leOctets 3 (pcmSat w / 256))

/-- Mapping PCM32 (Table 0.3): the saturated sample in 4 octets. -/
def pcm32Out (ws : List Word) : List Octet := ws.flatMap (fun w => leOctets 4 (pcmSat w))

/-- A list with the element at `i` replaced (nothing happens beyond its end). -/
def lset {α : Type} (l : List α) (i : Nat) (v : α) : List α := l.set i v

/-- `f` applied for each number below `n`, in rising order. -/
def forRange {α : Type} (n : Nat) (f : Nat → α → α) (a : α) : α := (List.range n).foldl (fun x i => f i x) a

/-- Forward distance of R74 between two `n`-bit wrapping values. -/
def fwd (n value ref : Nat) : Nat := (value % 2 ^ n + 2 ^ n - ref % 2 ^ n) % 2 ^ n

/-- The signed distance of `value` from `ref` by half-range comparison (R74): an exact half range counts ahead. -/
def halfDist (n value ref : Nat) : Int :=
  let d := fwd n value ref
  if d ≤ 2 ^ (n - 1) then (d : Int) else (d : Int) - (2 ^ n : Nat)

/-- A value of `n` wrapping bits extended to the whole number within the half range of `ref` (R75).
[DEDUCED, log entry 58: unsafe] -/
def extendHalf (n value ref : Nat) : Nat := ((ref : Int) + halfDist n value ref).toNat

end Sys2Proof.Machine
end

