-- ==== Sys2Proof/Machine/Cells.lean ====
section
/-! DEFINITION. Sparse data by key: a list of (key, value) pairs with strictly rising keys that lists no value
equal to what an unlisted key reads as. Every memory, table and register file of the device is held so. -/
namespace Sys2Proof.Machine

/-- A sparse table: (key, value) pairs. -/
abbrev Cells (β : Type) := List (Nat × β)

/-- The value listed for a key, if one is. -/
def Cells.find? {β : Type} (k : Nat) : Cells β → Option β
  | [] => none
  | (a, v) :: r => if a = k then some v else Cells.find? k r

/-- The value at a key: what is listed, else the default. -/
def Cells.get {β : Type} (d : β) (k : Nat) (m : Cells β) : β := (Cells.find? k m).getD d

/-- The table without a key. -/
def Cells.erase {β : Type} (k : Nat) : Cells β → Cells β
  | [] => []
  | (a, v) :: r => if a = k then Cells.erase k r else (a, v) :: Cells.erase k r

/-- The table with a key listed. -/
def Cells.insert {β : Type} (k : Nat) (v : β) : Cells β → Cells β
  | [] => [(k, v)]
  | (a, x) :: r => if a = k then (k, v) :: r else if k < a then (k, v) :: (a, x) :: r
    else (a, x) :: Cells.insert k v r

/-- A write that keeps the canonical form: writing the default removes the entry. -/
def Cells.set {β : Type} [DecidableEq β] (d : β) (k : Nat) (v : β) (m : Cells β) : Cells β :=
  if v = d then Cells.erase k m else Cells.insert k v m

/-- A change of one entry. -/
def Cells.modify {β : Type} [DecidableEq β] (d : β) (k : Nat) (f : β → β) (m : Cells β) : Cells β :=
  Cells.set d k (f (Cells.get d k m)) m

/-- Every key listed is above `k` and the keys rise strictly. -/
def Cells.rising {β : Type} : Option Nat → Cells β → Bool
  | _, [] => true
  | none, (a, _) :: r => Cells.rising (some a) r
  | some k, (a, _) :: r => decide (k < a) && Cells.rising (some a) r

/-- The canonical form: keys strictly rising, no entry equal to what its key reads as unlisted. -/
def Cells.wf {β : Type} [DecidableEq β] (d : Nat → β) (m : Cells β) : Bool :=
  Cells.rising none m && m.all (fun p => decide (p.2 ≠ d p.1))

/-- The keys from `a` up to but not including `b` removed. -/
def Cells.clear {β : Type} (a b : Nat) (m : Cells β) : Cells β := m.filter (fun p => decide (p.1 < a ∨ b ≤ p.1))

/-- `n` values read from key `a` on. -/
def Cells.read {β : Type} (d : β) (m : Cells β) (a n : Nat) : List β :=
  (List.range n).map (fun i => Cells.get d (a + i) m)

/-- Values written from key `a` on. -/
def Cells.write {β : Type} [DecidableEq β] (d : β) (a : Nat) : List β → Cells β → Cells β
  | [], m => m
  | v :: r, m => Cells.write d (a + 1) r (Cells.set d a v m)

end Sys2Proof.Machine
end

