-- ==== Sys2Proof/Machine/Regs.lean ====
section
/-! DEFINITION. The registers of BAR0 (R9, R10): one name per register heading of the spec, its place, its indices
and its fields with their access codes (R11) and reset values, as the spec's register tables give them. A field the
tables call reserved is not listed: it reads as 0 (R12). A value the tables give as fuse, strap, load or release
stands as 0 until the command that sets it. -/
namespace Sys2Proof.Machine

/-- The access codes of Table 0.4 (R11). -/
inductive Access where
  | rw | ro | wo | w1c | rc | rwi | rwb
  deriving DecidableEq, Repr

/-- The blocks of Table 1.7 (R35). -/
inductive Block where
  | global | time | chan | kerf | baler | landing | chute | flume | boom | mac | hedge | audioio | mc | hostdma | ranger | fault | bootinfo | coredbg
  deriving DecidableEq, Repr

/-- The registers, in the order of their offsets. -/
inductive RegName where
  /-- GLOBAL.ID; spec/01_architecture.md, Table 1.8. -/
  | global_ID
  /-- GLOBAL.MODE; spec/01_architecture.md, Table 1.9. -/
  | global_MODE
  /-- GLOBAL.RECOVERING; spec/01_architecture.md, Table 1.10. -/
  | global_RECOVERING
  /-- GLOBAL.DEVNUM; spec/01_architecture.md, Table 1.11. -/
  | global_DEVNUM
  /-- GLOBAL.SCRATCH; spec/01_architecture.md, Table 1.12. -/
  | global_SCRATCH
  /-- TIME.NOW_SECLO; spec/02_time_and_media_reference.md, Table 2.9. -/
  | time_NOW_SECLO
  /-- TIME.NOW_SECHI; spec/02_time_and_media_reference.md, Table 2.10. -/
  | time_NOW_SECHI
  /-- TIME.NOW_NS; spec/02_time_and_media_reference.md, Table 2.11. -/
  | time_NOW_NS
  /-- TIME.NOW_FRAC; spec/02_time_and_media_reference.md, Table 2.12. -/
  | time_NOW_FRAC
  /-- TIME.COUNT_LO; spec/02_time_and_media_reference.md, Table 2.13. -/
  | time_COUNT_LO
  /-- TIME.COUNT_HI; spec/02_time_and_media_reference.md, Table 2.14. -/
  | time_COUNT_HI
  /-- TIME.MT_LO; spec/02_time_and_media_reference.md, Table 2.15. -/
  | time_MT_LO
  /-- TIME.MT_HI; spec/02_time_and_media_reference.md, Table 2.16. -/
  | time_MT_HI
  /-- TIME.RATE; spec/02_time_and_media_reference.md, Table 2.17. -/
  | time_RATE
  /-- TIME.STEP_SEC; spec/02_time_and_media_reference.md, Table 2.18. -/
  | time_STEP_SEC
  /-- TIME.STEP_NS; spec/02_time_and_media_reference.md, Table 2.19. -/
  | time_STEP_NS
  /-- TIME.STATUS; spec/02_time_and_media_reference.md, Table 2.20. -/
  | time_STATUS
  /-- TIME.CTRL; spec/02_time_and_media_reference.md, Table 2.21. -/
  | time_CTRL
  /-- TIME.SERVO; spec/02_time_and_media_reference.md, Table 2.22. -/
  | time_SERVO
  /-- TIME.STEPLIMIT; spec/02_time_and_media_reference.md, Table 2.23. -/
  | time_STEPLIMIT
  /-- TIME.OFFSET; spec/02_time_and_media_reference.md, Table 2.24. -/
  | time_OFFSET
  /-- TIME.LADDER; spec/02_time_and_media_reference.md, Table 2.25. -/
  | time_LADDER
  /-- TIME.PTPCFG; spec/02_time_and_media_reference.md, Table 2.26. -/
  | time_PTPCFG
  /-- TIME.PPSO; spec/02_time_and_media_reference.md, Table 2.27. -/
  | time_PPSO
  /-- TIME.PPSI; spec/02_time_and_media_reference.md, Table 2.28. -/
  | time_PPSI
  /-- TIME.FREQO; spec/02_time_and_media_reference.md, Table 2.29. -/
  | time_FREQO
  /-- TIME.WCLKO; spec/02_time_and_media_reference.md, Table 2.30. -/
  | time_WCLKO
  /-- TIME.EVT_COUNT; spec/02_time_and_media_reference.md, Table 2.31. -/
  | time_EVT_COUNT
  /-- TIME.EVT_DROPS; spec/02_time_and_media_reference.md, Table 2.32. -/
  | time_EVT_DROPS
  /-- TIME.TC_SKIP; spec/02_time_and_media_reference.md, Table 2.33. -/
  | time_TC_SKIP
  /-- TIME.TC_PORT[p]; spec/02_time_and_media_reference.md, Table 2.34. -/
  | time_TC_PORT
  /-- CHAN.CFG; spec/03_channel_model.md, Table 3.12. -/
  | chan_CFG
  /-- CHAN.DESCBASE; spec/03_channel_model.md, Table 3.13. -/
  | chan_DESCBASE
  /-- CHAN.LUCEIL; spec/03_channel_model.md, Table 3.14. -/
  | chan_LUCEIL
  /-- CHAN.CLCEIL; spec/03_channel_model.md, Table 3.15. -/
  | chan_CLCEIL
  /-- CHAN.LUEFF; spec/03_channel_model.md, Table 3.16. -/
  | chan_LUEFF
  /-- CHAN.LUUSE; spec/03_channel_model.md, Table 3.17. -/
  | chan_LUUSE
  /-- CHAN.CLUSE[k]; spec/03_channel_model.md, Table 3.18. -/
  | chan_CLUSE
  /-- CHAN.DRAMBUDGET; spec/03_channel_model.md, Table 3.19. -/
  | chan_DRAMBUDGET
  /-- CHAN.DRAMUSE; spec/03_channel_model.md, Table 3.20. -/
  | chan_DRAMUSE
  /-- CHAN.ACTIVE; spec/03_channel_model.md, Table 3.21. -/
  | chan_ACTIVE
  /-- CHAN.PROTVIOL; spec/03_channel_model.md, Table 3.22. -/
  | chan_PROTVIOL
  /-- CHAN.CMD; spec/03_channel_model.md, Table 3.23. -/
  | chan_CMD
  /-- CHAN.CMDSTAT; spec/03_channel_model.md, Table 3.24. -/
  | chan_CMDSTAT
  /-- CHAN.STAGEMASK; spec/03_channel_model.md, Table 3.25. -/
  | chan_STAGEMASK
  /-- CHAN.INGDISC; spec/03_channel_model.md, Table 3.30. -/
  | chan_INGDISC
  /-- CHAN.STAGE[w]; spec/03_channel_model.md, Table 3.26. -/
  | chan_STAGE
  /-- CHAN.READBACK[w]; spec/03_channel_model.md, Table 3.27. -/
  | chan_READBACK
  /-- CHAN.TQUOTA[t]; spec/03_channel_model.md, Table 3.28. -/
  | chan_TQUOTA
  /-- CHAN.TUSE[t]; spec/03_channel_model.md, Table 3.29. -/
  | chan_TUSE
  /-- CHAN.MIXCELLS; spec/07_coding_mixing_ifb.md, Table 7.8. -/
  | chan_MIXCELLS
  /-- CHAN.MIXINPUTS; spec/07_coding_mixing_ifb.md, Table 7.9. -/
  | chan_MIXINPUTS
  /-- CHAN.MIXLATE; spec/07_coding_mixing_ifb.md, Table 7.10. -/
  | chan_MIXLATE
  /-- CHAN.MIXSTALE; spec/07_coding_mixing_ifb.md, Table 7.11. -/
  | chan_MIXSTALE
  /-- CHAN.MIXUNCORR; spec/07_coding_mixing_ifb.md, Table 7.12. -/
  | chan_MIXUNCORR
  /-- CHAN.BUS[b]; spec/07_coding_mixing_ifb.md, Table 7.13. -/
  | chan_BUS
  /-- CHAN.BUSGAIN[b]; spec/07_coding_mixing_ifb.md, Table 7.14. -/
  | chan_BUSGAIN
  /-- CHAN.BUSSTAT[b]; spec/07_coding_mixing_ifb.md, Table 7.17. -/
  | chan_BUSSTAT
  /-- KERF.STATUS; spec/05_kerf_filter_engine.md, Table 5.6. -/
  | kerf_STATUS
  /-- KERF.LANEUSE; spec/05_kerf_filter_engine.md, Table 5.7. -/
  | kerf_LANEUSE
  /-- KERF.XUSE; spec/05_kerf_filter_engine.md, Table 5.8. -/
  | kerf_XUSE
  /-- KERF.RINGUNCORR; spec/05_kerf_filter_engine.md, Table 5.9. -/
  | kerf_RINGUNCORR
  /-- KERF.COEFADDR; spec/05_kerf_filter_engine.md, Table 5.10. -/
  | kerf_COEFADDR
  /-- KERF.COEFDATA; spec/05_kerf_filter_engine.md, Table 5.11. -/
  | kerf_COEFDATA
  /-- KERF.SETHDR[b][s]; spec/05_kerf_filter_engine.md, Table 5.12. -/
  | kerf_SETHDR
  /-- KERF.GANG[g]; spec/05_kerf_filter_engine.md, Table 5.13. -/
  | kerf_GANG
  /-- KERF.LCFG[l]; spec/05_kerf_filter_engine.md, Table 5.14. -/
  | kerf_LCFG
  /-- KERF.LRATE[l]; spec/05_kerf_filter_engine.md, Table 5.15. -/
  | kerf_LRATE
  /-- KERF.LIBASE[l]; spec/05_kerf_filter_engine.md, Table 5.16. -/
  | kerf_LIBASE
  /-- KERF.LOBASE[l]; spec/05_kerf_filter_engine.md, Table 5.19. -/
  | kerf_LOBASE
  /-- BALER.CAPDROPS; spec/08_baler_block_coder.md, Table 8.6. -/
  | baler_CAPDROPS
  /-- BALER.UNCORR; spec/08_baler_block_coder.md, Table 8.7. -/
  | baler_UNCORR
  /-- BALER.SUBW[w]; spec/08_baler_block_coder.md, Table 8.8. -/
  | baler_SUBW
  /-- BALER.SUBMIT; spec/08_baler_block_coder.md, Table 8.9. -/
  | baler_SUBMIT
  /-- BALER.SUBSTAT; spec/08_baler_block_coder.md, Table 8.10. -/
  | baler_SUBSTAT
  /-- BALER.U[u].CTRL; spec/08_baler_block_coder.md, Table 8.11. -/
  | baler_U_CTRL
  /-- BALER.U[u].OCC; spec/08_baler_block_coder.md, Table 8.12. -/
  | baler_U_OCC
  /-- BALER.U[u].JOBS; spec/08_baler_block_coder.md, Table 8.13. -/
  | baler_U_JOBS
  /-- BALER.U[u].QUANT; spec/08_baler_block_coder.md, Table 8.14. -/
  | baler_U_QUANT
  /-- BALER.U[u].VERIFY; spec/08_baler_block_coder.md, Table 8.15. -/
  | baler_U_VERIFY
  /-- BALER.U[u].NOFIT; spec/08_baler_block_coder.md, Table 8.17. -/
  | baler_U_NOFIT
  /-- LANDING.SQBASE; spec/10_landing_scheduler.md, Table 10.7. -/
  | landing_SQBASE
  /-- LANDING.SQSIZE; spec/10_landing_scheduler.md, Table 10.8. -/
  | landing_SQSIZE
  /-- LANDING.SQTAIL; spec/10_landing_scheduler.md, Table 10.9. -/
  | landing_SQTAIL
  /-- CHUTE.POOLUSE; spec/11_chutes.md, Table 11.4. -/
  | chute_POOLUSE
  /-- CHUTE.REQSTAT; spec/11_chutes.md, Table 11.5. -/
  | chute_REQSTAT
  /-- CHUTE.DROPREST; spec/11_chutes.md, Table 11.6. -/
  | chute_DROPREST
  /-- CHUTE.C[n].CFG; spec/11_chutes.md, Table 11.7. -/
  | chute_C_CFG
  /-- CHUTE.C[n].COUNT; spec/11_chutes.md, Table 11.8. -/
  | chute_C_COUNT
  /-- CHUTE.C[n].PKTS; spec/11_chutes.md, Table 11.9. -/
  | chute_C_PKTS
  /-- CHUTE.C[n].PTRS; spec/11_chutes.md, Table 11.10. -/
  | chute_C_PTRS
  /-- CHUTE.C[n].DROPS; spec/11_chutes.md, Table 11.11. -/
  | chute_C_DROPS
  /-- CHUTE.C[n].PUSH; spec/11_chutes.md, Table 11.12. -/
  | chute_C_PUSH
  /-- CHUTE.C[n].PUSHEND; spec/11_chutes.md, Table 11.13. -/
  | chute_C_PUSHEND
  /-- CHUTE.C[n].POP; spec/11_chutes.md, Table 11.14. -/
  | chute_C_POP
  /-- FLUME.FTBASE; spec/12_flume_forwarding.md, Table 12.7. -/
  | flume_FTBASE
  /-- FLUME.FTSIZE; spec/12_flume_forwarding.md, Table 12.8. -/
  | flume_FTSIZE
  /-- FLUME.HSEED[w]; spec/12_flume_forwarding.md, Table 12.9. -/
  | flume_HSEED
  /-- FLUME.FTCOUNT; spec/12_flume_forwarding.md, Table 12.10. -/
  | flume_FTCOUNT
  /-- FLUME.GCNT[k]; spec/12_flume_forwarding.md, Table 12.11. -/
  | flume_GCNT
  /-- FLUME.BUFFREE; spec/12_flume_forwarding.md, Table 12.12. -/
  | flume_BUFFREE
  /-- FLUME.FCMD; spec/12_flume_forwarding.md, Table 12.13. -/
  | flume_FCMD
  /-- FLUME.FCMDSTAT; spec/12_flume_forwarding.md, Table 12.14. -/
  | flume_FCMDSTAT
  /-- FLUME.FSTAGE[w]; spec/12_flume_forwarding.md, Table 12.15. -/
  | flume_FSTAGE
  /-- FLUME.FREAD[w]; spec/12_flume_forwarding.md, Table 12.16. -/
  | flume_FREAD
  /-- FLUME.V6STAGE[w]; spec/12_flume_forwarding.md, Table 12.17. -/
  | flume_V6STAGE
  /-- FLUME.PORT[p].KEYSEL; spec/12_flume_forwarding.md, Table 12.18. -/
  | flume_PORT_KEYSEL
  /-- FLUME.PORT[p].MISS; spec/12_flume_forwarding.md, Table 12.19. -/
  | flume_PORT_MISS
  /-- FLUME.PORT[p].CUT; spec/12_flume_forwarding.md, Table 12.20. -/
  | flume_PORT_CUT
  /-- FLUME.PORT[p].CNT[k]; spec/12_flume_forwarding.md, Table 12.21. -/
  | flume_PORT_CNT
  /-- FLUME.PORT[p].GCTRL; spec/12_flume_forwarding.md, Table 12.22. -/
  | flume_PORT_GCTRL
  /-- FLUME.PORT[p].GT0; spec/12_flume_forwarding.md, Table 12.23. -/
  | flume_PORT_GT0
  /-- FLUME.PORT[p].GT1; spec/12_flume_forwarding.md, Table 12.23. -/
  | flume_PORT_GT1
  /-- FLUME.PORT[p].GT2; spec/12_flume_forwarding.md, Table 12.23. -/
  | flume_PORT_GT2
  /-- FLUME.PORT[p].GT3; spec/12_flume_forwarding.md, Table 12.23. -/
  | flume_PORT_GT3
  /-- FLUME.PORT[p].GT4; spec/12_flume_forwarding.md, Table 12.23. -/
  | flume_PORT_GT4
  /-- FLUME.PORT[p].GT5; spec/12_flume_forwarding.md, Table 12.23. -/
  | flume_PORT_GT5
  /-- FLUME.PORT[p].GT6; spec/12_flume_forwarding.md, Table 12.23. -/
  | flume_PORT_GT6
  /-- FLUME.PORT[p].GT7; spec/12_flume_forwarding.md, Table 12.23. -/
  | flume_PORT_GT7
  /-- FLUME.QLATE[j]; spec/12_flume_forwarding.md, Table 12.24. -/
  | flume_QLATE
  /-- FLUME.GCL[p].ADMIN[e]; spec/12_flume_forwarding.md, Table 12.25. -/
  | flume_GCL_ADMIN
  /-- FLUME.GCL[p].OPER[e]; spec/12_flume_forwarding.md, Table 12.27. -/
  | flume_GCL_OPER
  /-- BOOM.REQSTAT; spec/13_boom_traffic_manager.md, Table 13.2. -/
  | boom_REQSTAT
  /-- BOOM.PORT[p].SHAPER; spec/13_boom_traffic_manager.md, Table 13.3. -/
  | boom_PORT_SHAPER
  /-- BOOM.TEN[t].CFG; spec/13_boom_traffic_manager.md, Table 13.4. -/
  | boom_TEN_CFG
  /-- BOOM.TEN[t].SHAPER; spec/13_boom_traffic_manager.md, Table 13.3. -/
  | boom_TEN_SHAPER
  /-- BOOM.TEN[t].BQUOTA; spec/13_boom_traffic_manager.md, Table 13.5. -/
  | boom_TEN_BQUOTA
  /-- BOOM.SVC[s].CFG; spec/13_boom_traffic_manager.md, Table 13.6. -/
  | boom_SVC_CFG
  /-- BOOM.SVC[s].SHAPER; spec/13_boom_traffic_manager.md, Table 13.3. -/
  | boom_SVC_SHAPER
  /-- BOOM.POL[i].CFG; spec/13_boom_traffic_manager.md, Table 13.7. -/
  | boom_POL_CFG
  /-- BOOM.POL[i].DROPS; spec/13_boom_traffic_manager.md, Table 13.8. -/
  | boom_POL_DROPS
  /-- BOOM.Q[q].CFG; spec/13_boom_traffic_manager.md, Table 13.9. -/
  | boom_Q_CFG
  /-- BOOM.Q[q].STAT; spec/13_boom_traffic_manager.md, Table 13.11. -/
  | boom_Q_STAT
  /-- MAC.CFG; spec/14_ethernet_ports.md, Table 14.6. -/
  | mac_CFG
  /-- MAC.REQSTAT; spec/14_ethernet_ports.md, Table 14.7. -/
  | mac_REQSTAT
  /-- MAC.FILT; spec/14_ethernet_ports.md, Table 14.8. -/
  | mac_FILT
  /-- MAC.LINK; spec/14_ethernet_ports.md, Table 14.9. -/
  | mac_LINK
  /-- MAC.EVENT; spec/14_ethernet_ports.md, Table 14.10. -/
  | mac_EVENT
  /-- MAC.EVENTEN; spec/14_ethernet_ports.md, Table 14.11. -/
  | mac_EVENTEN
  /-- MAC.PREEMPT; spec/14_ethernet_ports.md, Table 14.12. -/
  | mac_PREEMPT
  /-- MAC.CTADAPT; spec/14_ethernet_ports.md, Table 14.13. -/
  | mac_CTADAPT
  /-- MAC.TSLAT; spec/14_ethernet_ports.md, Table 14.14. -/
  | mac_TSLAT
  /-- MAC.HALF0; spec/14_ethernet_ports.md, Table 14.15. -/
  | mac_HALF0
  /-- MAC.HALF1; spec/14_ethernet_ports.md, Table 14.16. -/
  | mac_HALF1
  /-- MAC.LANECFG; spec/14_ethernet_ports.md, Table 14.17. -/
  | mac_LANECFG
  /-- MAC.STAT[k]; spec/14_ethernet_ports.md, Table 14.18. -/
  | mac_STAT
  /-- MAC.GHASH[i]; spec/14_ethernet_ports.md, Table 14.20. -/
  | mac_GHASH
  /-- HEDGE.SEG[n].CFG; spec/15_hedgerow_tdm_madi.md, Table 15.6. -/
  | hedge_SEG_CFG
  /-- HEDGE.SEG[n].ALLOW; spec/15_hedgerow_tdm_madi.md, Table 15.7. -/
  | hedge_SEG_ALLOW
  /-- HEDGE.SEG[n].STAT; spec/15_hedgerow_tdm_madi.md, Table 15.8. -/
  | hedge_SEG_STAT
  /-- HEDGE.SEG[n].EVENT; spec/15_hedgerow_tdm_madi.md, Table 15.9. -/
  | hedge_SEG_EVENT
  /-- HEDGE.SEG[n].CNT[k]; spec/15_hedgerow_tdm_madi.md, Table 15.10. -/
  | hedge_SEG_CNT
  /-- HEDGE.SEG[n].NODE[a]; spec/15_hedgerow_tdm_madi.md, Table 15.11. -/
  | hedge_SEG_NODE
  /-- HEDGE.SEG[n].DOWN[i]; spec/15_hedgerow_tdm_madi.md, Table 15.12. -/
  | hedge_SEG_DOWN
  /-- HEDGE.MDIO; spec/15_hedgerow_tdm_madi.md, Table 15.13. -/
  | hedge_MDIO
  /-- AUDIO_IO.TDM[u].CFG; spec/15_hedgerow_tdm_madi.md, Table 15.14. -/
  | audioio_TDM_CFG
  /-- AUDIO_IO.TDM[u].STAT; spec/15_hedgerow_tdm_madi.md, Table 15.16. -/
  | audioio_TDM_STAT
  /-- AUDIO_IO.TDM[u].OUT[s]; spec/15_hedgerow_tdm_madi.md, Table 15.17. -/
  | audioio_TDM_OUT
  /-- AUDIO_IO.MADI[u].CFG; spec/15_hedgerow_tdm_madi.md, Table 15.15. -/
  | audioio_MADI_CFG
  /-- AUDIO_IO.MADI[u].STAT; spec/15_hedgerow_tdm_madi.md, Table 15.16. -/
  | audioio_MADI_STAT
  /-- AUDIO_IO.MADI[u].OUT[c]; spec/15_hedgerow_tdm_madi.md, Table 15.17. -/
  | audioio_MADI_OUT
  /-- AUDIO_IO.GPIO[g].CFG; spec/15_hedgerow_tdm_madi.md, Table 15.18. -/
  | audioio_GPIO_CFG
  /-- AUDIO_IO.GPIO.LEVEL; spec/15_hedgerow_tdm_madi.md, Table 15.19. -/
  | audioio_GPIO_LEVEL
  /-- AUDIO_IO.GPIO.OUT; spec/15_hedgerow_tdm_madi.md, Table 15.20. -/
  | audioio_GPIO_OUT
  /-- AUDIO_IO.GPIO.TSET; spec/15_hedgerow_tdm_madi.md, Table 15.21. -/
  | audioio_GPIO_TSET
  /-- AUDIO_IO.GPIO.TGO; spec/15_hedgerow_tdm_madi.md, Table 15.22. -/
  | audioio_GPIO_TGO
  /-- AUDIO_IO.REQSTAT; spec/15_hedgerow_tdm_madi.md, Table 15.23. -/
  | audioio_REQSTAT
  /-- MC.CFG; spec/16_memory_controller.md, Table 16.4. -/
  | mc_CFG
  /-- MC.STATUS; spec/16_memory_controller.md. -/
  | mc_STATUS
  /-- MC.REQSTAT; spec/16_memory_controller.md. -/
  | mc_REQSTAT
  /-- MC.FPREQ; spec/16_memory_controller.md. -/
  | mc_FPREQ
  /-- MC.REFCFG; spec/16_memory_controller.md. -/
  | mc_REFCFG
  /-- MC.ACTCFG; spec/16_memory_controller.md. -/
  | mc_ACTCFG
  /-- MC.HOSTCFG; spec/16_memory_controller.md. -/
  | mc_HOSTCFG
  /-- MC.SCRUB; spec/16_memory_controller.md. -/
  | mc_SCRUB
  /-- MC.CNT[k]; spec/16_memory_controller.md. -/
  | mc_CNT
  /-- MC.ELOGCNT; spec/16_memory_controller.md. -/
  | mc_ELOGCNT
  /-- MC.ELOG[w]; spec/16_memory_controller.md, Table 16.5. -/
  | mc_ELOG
  /-- MC.FP[k].CFG; spec/16_memory_controller.md. -/
  | mc_FP_CFG
  /-- MC.FP[k].NIB[s][n]; spec/16_memory_controller.md. -/
  | mc_FP_NIB
  /-- MC.DRIFT[s]; spec/16_memory_controller.md. -/
  | mc_DRIFT
  /-- HOSTDMA.CFG; spec/17_host_link_dma.md, Table 17.4. -/
  | hostdma_CFG
  /-- HOSTDMA.BAR2BASE; spec/17_host_link_dma.md. -/
  | hostdma_BAR2BASE
  /-- HOSTDMA.CNT[k]; spec/17_host_link_dma.md. -/
  | hostdma_CNT
  /-- HOSTDMA.TAGS; spec/17_host_link_dma.md. -/
  | hostdma_TAGS
  /-- HOSTDMA.REQSTAT; spec/17_host_link_dma.md. -/
  | hostdma_REQSTAT
  /-- HOSTDMA.EPOCH; spec/17_host_link_dma.md. -/
  | hostdma_EPOCH
  /-- HOSTDMA.MGMT; spec/17_host_link_dma.md. -/
  | hostdma_MGMT
  /-- HOSTDMA.IRQMAP[k]; spec/17_host_link_dma.md, Table 17.5. -/
  | hostdma_IRQMAP
  /-- HOSTDMA.R[r].CFG; spec/17_host_link_dma.md. -/
  | hostdma_R_CFG
  /-- HOSTDMA.R[r].BASELO; spec/17_host_link_dma.md. -/
  | hostdma_R_BASELO
  /-- HOSTDMA.R[r].BASEHI; spec/17_host_link_dma.md. -/
  | hostdma_R_BASEHI
  /-- HOSTDMA.R[r].SIZE; spec/17_host_link_dma.md. -/
  | hostdma_R_SIZE
  /-- HOSTDMA.R[r].TAIL; spec/17_host_link_dma.md. -/
  | hostdma_R_TAIL
  /-- HOSTDMA.R[r].HEAD; spec/17_host_link_dma.md. -/
  | hostdma_R_HEAD
  /-- HOSTDMA.R[r].DROPS; spec/17_host_link_dma.md. -/
  | hostdma_R_DROPS
  /-- RANGER.STATUS; spec/19_modes_faults_power.md, Table 19.12. -/
  | ranger_STATUS
  /-- RANGER.TMAX; spec/19_modes_faults_power.md, Table 19.14. -/
  | ranger_TMAX
  /-- RANGER.POWER; spec/19_modes_faults_power.md, Table 19.15. -/
  | ranger_POWER
  /-- RANGER.EVENT; spec/19_modes_faults_power.md, Table 19.16. -/
  | ranger_EVENT
  /-- RANGER.EVENTEN; spec/19_modes_faults_power.md, Table 19.17. -/
  | ranger_EVENTEN
  /-- RANGER.POL0; spec/19_modes_faults_power.md, Table 19.13. -/
  | ranger_POL0
  /-- RANGER.POL1; spec/19_modes_faults_power.md, Table 19.13. -/
  | ranger_POL1
  /-- RANGER.POL2; spec/19_modes_faults_power.md, Table 19.13. -/
  | ranger_POL2
  /-- RANGER.POL3; spec/19_modes_faults_power.md, Table 19.13. -/
  | ranger_POL3
  /-- RANGER.POL4; spec/19_modes_faults_power.md, Table 19.13. -/
  | ranger_POL4
  /-- RANGER.TEMP[s]; spec/19_modes_faults_power.md, Table 19.18. -/
  | ranger_TEMP
  /-- RANGER.DOMPWR[d]; spec/19_modes_faults_power.md, Table 19.19. -/
  | ranger_DOMPWR
  /-- RANGER.OPP[k]; spec/19_modes_faults_power.md, Table 19.20. -/
  | ranger_OPP
  /-- FAULT.MODEREQ; spec/19_modes_faults_power.md, Table 19.21. -/
  | fault_MODEREQ
  /-- FAULT.REQSTAT; spec/19_modes_faults_power.md, Table 19.22. -/
  | fault_REQSTAT
  /-- FAULT.BASE; spec/19_modes_faults_power.md, Table 19.23. -/
  | fault_BASE
  /-- FAULT.CFG; spec/19_modes_faults_power.md, Table 19.24. -/
  | fault_CFG
  /-- FAULT.EVENT; spec/19_modes_faults_power.md, Table 19.25. -/
  | fault_EVENT
  /-- FAULT.CNT[k]; spec/19_modes_faults_power.md, Table 19.26. -/
  | fault_CNT
  /-- FAULT.LAST0; spec/19_modes_faults_power.md, Table 19.27. -/
  | fault_LAST0
  /-- FAULT.LAST1; spec/19_modes_faults_power.md, Table 19.27. -/
  | fault_LAST1
  /-- FAULT.FLASH; spec/19_modes_faults_power.md, Table 19.28. -/
  | fault_FLASH
  /-- BOOTINFO.IDENT; spec/18_bringup_image.md, Table 18.10. -/
  | bootinfo_IDENT
  /-- BOOTINFO.SERIALLO; spec/18_bringup_image.md, Table 18.11. -/
  | bootinfo_SERIALLO
  /-- BOOTINFO.SERIALHI; spec/18_bringup_image.md, Table 18.12. -/
  | bootinfo_SERIALHI
  /-- BOOTINFO.FUSESTAT; spec/18_bringup_image.md, Table 18.13. -/
  | bootinfo_FUSESTAT
  /-- BOOTINFO.ROLLLO; spec/18_bringup_image.md, Table 18.14. -/
  | bootinfo_ROLLLO
  /-- BOOTINFO.ROLLHI; spec/18_bringup_image.md, Table 18.15. -/
  | bootinfo_ROLLHI
  /-- BOOTINFO.BOOT; spec/18_bringup_image.md, Table 18.16. -/
  | bootinfo_BOOT
  /-- BOOTINFO.IMAGE; spec/18_bringup_image.md, Table 18.17. -/
  | bootinfo_IMAGE
  /-- BOOTINFO.IMGROLLLO; spec/18_bringup_image.md, Table 18.18. -/
  | bootinfo_IMGROLLLO
  /-- BOOTINFO.IMGROLLHI; spec/18_bringup_image.md, Table 18.19. -/
  | bootinfo_IMGROLLHI
  /-- BOOTINFO.IMGSIZE; spec/18_bringup_image.md, Table 18.20. -/
  | bootinfo_IMGSIZE
  /-- BOOTINFO.BRINGUP; spec/18_bringup_image.md, Table 18.21. -/
  | bootinfo_BRINGUP
  /-- COREDBG.EXCCOUNT; spec/09_channel_cores_isa.md, Table 9.16. -/
  | coredbg_EXCCOUNT
  /-- COREDBG.LASTEXC; spec/09_channel_cores_isa.md, Table 9.17. -/
  | coredbg_LASTEXC
  /-- COREDBG.LASTPC; spec/09_channel_cores_isa.md, Table 9.18. -/
  | coredbg_LASTPC
  /-- COREDBG.STATUS; spec/09_channel_cores_isa.md, Table 9.19. -/
  | coredbg_STATUS
  /-- COREDBG.MBOX[k]; spec/09_channel_cores_isa.md, Table 9.20. -/
  | coredbg_MBOX
  deriving DecidableEq, Repr

/-- One field of a register. -/
structure RegField where
  hi : Nat
  lo : Nat
  acc : Access
  reset : Nat
  deriving DecidableEq, Repr

/-- One register: its block, the BAR0 offset of its first copy, the stride and count of each index, whether each
requester has its own copy (R31), and its fields. -/
structure RegInfo where
  block : Block
  base : Nat
  s1 : Nat
  n1 : Nat
  s2 : Nat
  n2 : Nat
  perReq : Bool
  fields : List RegField
  deriving DecidableEq, Repr

/-- A field of a named register. -/
structure Fld where
  reg : RegName
  hi : Nat
  lo : Nat
  deriving DecidableEq, Repr

/-- Each register's place and fields, from its heading and table.
[DESIGN CHOICE, log entry 79: unsafe] [DEDUCED, log entry 129: unsafe] -/
def RegName.info : RegName → RegInfo
  | .global_ID => ⟨.global, 0x0, 0, 1, 0, 1, false, [⟨35, 20, .ro, 0x9612⟩, ⟨19, 16, .ro, 1⟩]⟩
  | .global_MODE => ⟨.global, 0x8, 0, 1, 0, 1, false, [⟨7, 4, .ro, 4⟩, ⟨3, 0, .ro, 5⟩]⟩
  | .global_RECOVERING => ⟨.global, 0x10, 0, 1, 0, 1, false, [⟨1, 1, .ro, 0⟩, ⟨0, 0, .ro, 0⟩]⟩
  | .global_DEVNUM => ⟨.global, 0x18, 0, 1, 0, 1, false, [⟨17, 0, .rwb, 0⟩]⟩
  | .global_SCRATCH => ⟨.global, 0x20, 0, 1, 0, 1, false, [⟨35, 0, .rw, 0⟩]⟩
  | .time_NOW_SECLO => ⟨.time, 0x100000, 0, 1, 0, 1, false, [⟨35, 0, .ro, 0⟩]⟩
  | .time_NOW_SECHI => ⟨.time, 0x100008, 0, 1, 0, 1, false, [⟨11, 0, .ro, 0⟩]⟩
  | .time_NOW_NS => ⟨.time, 0x100010, 0, 1, 0, 1, false, [⟨31, 0, .ro, 0⟩]⟩
  | .time_NOW_FRAC => ⟨.time, 0x100018, 0, 1, 0, 1, false, [⟨15, 0, .ro, 0⟩]⟩
  | .time_COUNT_LO => ⟨.time, 0x100020, 0, 1, 0, 1, false, [⟨35, 0, .ro, 0⟩]⟩
  | .time_COUNT_HI => ⟨.time, 0x100028, 0, 1, 0, 1, false, [⟨35, 0, .ro, 0⟩]⟩
  | .time_MT_LO => ⟨.time, 0x100030, 0, 1, 0, 1, false, [⟨35, 0, .ro, 0⟩]⟩
  | .time_MT_HI => ⟨.time, 0x100038, 0, 1, 0, 1, false, [⟨17, 0, .ro, 0⟩]⟩
  | .time_RATE => ⟨.time, 0x100040, 0, 1, 0, 1, false, [⟨35, 0, .rw, 0xcccccccd⟩]⟩
  | .time_STEP_SEC => ⟨.time, 0x100048, 0, 1, 0, 1, false, [⟨35, 0, .rw, 0⟩]⟩
  | .time_STEP_NS => ⟨.time, 0x100050, 0, 1, 0, 1, false, [⟨35, 35, .wo, 0⟩, ⟨29, 0, .rw, 0⟩]⟩
  | .time_STATUS => ⟨.time, 0x100058, 0, 1, 0, 1, false, [⟨13, 8, .rc, 0⟩, ⟨6, 6, .ro, 0⟩, ⟨5, 5, .ro, 0⟩, ⟨4, 4, .ro, 0⟩, ⟨3, 0, .ro, 0⟩]⟩
  | .time_CTRL => ⟨.time, 0x100060, 0, 1, 0, 1, false, [⟨2, 2, .rw, 0⟩, ⟨1, 0, .rw, 0⟩]⟩
  | .time_SERVO => ⟨.time, 0x100068, 0, 1, 0, 1, false, [⟨35, 28, .rwb, 8⟩, ⟨27, 21, .rwb, 0x14⟩, ⟨20, 9, .rwb, 0x64⟩, ⟨8, 0, .rwb, 0x32⟩]⟩
  | .time_STEPLIMIT => ⟨.time, 0x100070, 0, 1, 0, 1, false, [⟨35, 0, .rwb, 0x3e8⟩]⟩
  | .time_OFFSET => ⟨.time, 0x100078, 0, 1, 0, 1, false, [⟨35, 0, .ro, 0⟩]⟩
  | .time_LADDER => ⟨.time, 0x100080, 0, 1, 0, 1, false, [⟨2, 0, .rwb, 3⟩]⟩
  | .time_PTPCFG => ⟨.time, 0x100088, 0, 1, 0, 1, false, [⟨17, 16, .rwb, 1⟩, ⟨15, 8, .rwb, 0x7f⟩, ⟨7, 4, .rwb, 0xd⟩, ⟨1, 0, .rwb, 1⟩]⟩
  | .time_PPSO => ⟨.time, 0x100090, 0, 1, 0, 1, false, [⟨35, 12, .rw, 0⟩, ⟨11, 2, .rw, 0x64⟩, ⟨1, 1, .rw, 1⟩, ⟨0, 0, .rw, 0⟩]⟩
  | .time_PPSI => ⟨.time, 0x100098, 0, 1, 0, 1, false, [⟨2, 2, .rw, 0⟩, ⟨1, 1, .rw, 0⟩, ⟨0, 0, .rw, 0⟩]⟩
  | .time_FREQO => ⟨.time, 0x1000A0, 0, 1, 0, 1, false, [⟨8, 6, .rw, 2⟩, ⟨5, 2, .rw, 0⟩, ⟨1, 1, .rw, 1⟩, ⟨0, 0, .rw, 0⟩]⟩
  | .time_WCLKO => ⟨.time, 0x1000A8, 0, 1, 0, 1, false, [⟨1, 1, .rw, 1⟩, ⟨0, 0, .rw, 0⟩]⟩
  | .time_EVT_COUNT => ⟨.time, 0x1000B0, 0, 1, 0, 1, false, [⟨12, 0, .ro, 0⟩]⟩
  | .time_EVT_DROPS => ⟨.time, 0x1000B8, 0, 1, 0, 1, false, [⟨35, 0, .rc, 0⟩]⟩
  | .time_TC_SKIP => ⟨.time, 0x1000C0, 0, 1, 0, 1, false, [⟨35, 0, .rc, 0⟩]⟩
  | .time_TC_PORT => ⟨.time, 0x101000, 8, 64, 0, 1, false, [⟨35, 4, .rw, 0⟩, ⟨1, 0, .rw, 0⟩]⟩
  | .chan_CFG => ⟨.chan, 0x400000, 0, 1, 0, 1, false, [⟨15, 0, .rwb, 0x8000⟩]⟩
  | .chan_DESCBASE => ⟨.chan, 0x400008, 0, 1, 0, 1, false, [⟨33, 0, .rwb, 0⟩]⟩
  | .chan_LUCEIL => ⟨.chan, 0x400010, 0, 1, 0, 1, false, [⟨25, 0, .rwb, 0x3170400⟩]⟩
  | .chan_CLCEIL => ⟨.chan, 0x400018, 0, 1, 0, 1, false, [⟨22, 0, .rwb, 0x459480⟩]⟩
  | .chan_LUEFF => ⟨.chan, 0x400020, 0, 1, 0, 1, false, [⟨25, 0, .ro, 0x3170400⟩]⟩
  | .chan_LUUSE => ⟨.chan, 0x400028, 0, 1, 0, 1, false, [⟨25, 0, .ro, 0⟩]⟩
  | .chan_CLUSE => ⟨.chan, 0x400030, 8, 12, 0, 1, false, [⟨22, 0, .ro, 0⟩]⟩
  | .chan_DRAMBUDGET => ⟨.chan, 0x400090, 0, 1, 0, 1, false, [⟨28, 0, .rwb, 0xdb58580⟩]⟩
  | .chan_DRAMUSE => ⟨.chan, 0x400098, 0, 1, 0, 1, false, [⟨28, 0, .ro, 0⟩]⟩
  | .chan_ACTIVE => ⟨.chan, 0x4000A0, 0, 1, 0, 1, false, [⟨15, 0, .ro, 0⟩]⟩
  | .chan_PROTVIOL => ⟨.chan, 0x4000A8, 0, 1, 0, 1, false, [⟨35, 0, .rc, 0⟩]⟩
  | .chan_CMD => ⟨.chan, 0x4000B0, 0, 1, 0, 1, true, [⟨35, 32, .rwi, 0⟩, ⟨14, 0, .rwi, 0⟩]⟩
  | .chan_CMDSTAT => ⟨.chan, 0x4000B8, 0, 1, 0, 1, true, [⟨35, 35, .ro, 0⟩, ⟨34, 29, .ro, 0⟩, ⟨28, 23, .rc, 0⟩, ⟨14, 0, .ro, 0⟩]⟩
  | .chan_STAGEMASK => ⟨.chan, 0x4000C0, 0, 1, 0, 1, true, [⟨23, 0, .rw, 0⟩]⟩
  | .chan_INGDISC => ⟨.chan, 0x4000C8, 0, 1, 0, 1, false, [⟨35, 0, .rc, 0⟩]⟩
  | .chan_STAGE => ⟨.chan, 0x400100, 8, 24, 0, 1, true, [⟨35, 0, .rw, 0⟩]⟩
  | .chan_READBACK => ⟨.chan, 0x400200, 8, 32, 0, 1, true, [⟨35, 0, .ro, 0⟩]⟩
  | .chan_TQUOTA => ⟨.chan, 0x400400, 8, 4096, 0, 1, false, [⟨15, 0, .rw, 0x8000⟩]⟩
  | .chan_TUSE => ⟨.chan, 0x408400, 8, 4096, 0, 1, false, [⟨15, 0, .ro, 0⟩]⟩
  | .chan_MIXCELLS => ⟨.chan, 0x418000, 0, 1, 0, 1, false, [⟨20, 0, .ro, 0⟩]⟩
  | .chan_MIXINPUTS => ⟨.chan, 0x418008, 0, 1, 0, 1, false, [⟨16, 0, .ro, 0⟩]⟩
  | .chan_MIXLATE => ⟨.chan, 0x418010, 0, 1, 0, 1, false, [⟨35, 0, .rc, 0⟩]⟩
  | .chan_MIXSTALE => ⟨.chan, 0x418018, 0, 1, 0, 1, false, [⟨35, 0, .rc, 0⟩]⟩
  | .chan_MIXUNCORR => ⟨.chan, 0x418020, 0, 1, 0, 1, false, [⟨35, 0, .rc, 0⟩]⟩
  | .chan_BUS => ⟨.chan, 0x420000, 16, 4096, 0, 1, false, [⟨35, 35, .rw, 0⟩, ⟨34, 33, .rwi, 0⟩, ⟨32, 30, .rwi, 0⟩, ⟨29, 18, .rwi, 0⟩]⟩
  | .chan_BUSGAIN => ⟨.chan, 0x420008, 16, 4096, 0, 1, false, [⟨35, 25, .rw, 0⟩, ⟨24, 18, .ro, 0⟩, ⟨17, 2, .ro, 0⟩]⟩
  | .chan_BUSSTAT => ⟨.chan, 0x430000, 8, 4096, 0, 1, false, [⟨35, 18, .rc, 0⟩, ⟨17, 0, .rc, 0⟩]⟩
  | .kerf_STATUS => ⟨.kerf, 0x600000, 0, 1, 0, 1, false, [⟨13, 8, .rc, 0⟩, ⟨7, 7, .w1c, 0⟩, ⟨6, 6, .ro, 0⟩, ⟨5, 2, .ro, 0⟩]⟩
  | .kerf_LANEUSE => ⟨.kerf, 0x600008, 0, 1, 0, 1, false, [⟨29, 15, .ro, 0⟩, ⟨14, 0, .ro, 0⟩]⟩
  | .kerf_XUSE => ⟨.kerf, 0x600010, 0, 1, 0, 1, false, [⟨13, 0, .ro, 0⟩]⟩
  | .kerf_RINGUNCORR => ⟨.kerf, 0x600018, 0, 1, 0, 1, false, [⟨35, 0, .rc, 0⟩]⟩
  | .kerf_COEFADDR => ⟨.kerf, 0x600020, 0, 1, 0, 1, false, [⟨17, 17, .rw, 0⟩, ⟨16, 13, .rw, 0⟩, ⟨11, 0, .rw, 0⟩]⟩
  | .kerf_COEFDATA => ⟨.kerf, 0x600028, 0, 1, 0, 1, false, [⟨23, 0, .rw, 0⟩]⟩
  | .kerf_SETHDR => ⟨.kerf, 0x600100, 128, 2, 8, 16, false, [⟨25, 14, .rw, 0⟩, ⟨13, 7, .rw, 1⟩, ⟨6, 0, .rw, 0⟩]⟩
  | .kerf_GANG => ⟨.kerf, 0x640000, 8, 16384, 0, 1, false, [⟨35, 32, .rwi, 0⟩, ⟨31, 31, .ro, 0⟩, ⟨30, 30, .wo, 0⟩, ⟨29, 29, .ro, 0⟩, ⟨28, 14, .ro, 1⟩, ⟨13, 11, .ro, 0⟩, ⟨10, 9, .ro, 0⟩]⟩
  | .kerf_LCFG => ⟨.kerf, 0x680000, 32, 16384, 0, 1, false, [⟨35, 22, .rwi, 0⟩, ⟨21, 17, .rw, 0⟩, ⟨16, 16, .rw, 0⟩, ⟨15, 14, .rw, 0⟩, ⟨13, 0, .rw, 0⟩]⟩
  | .kerf_LRATE => ⟨.kerf, 0x680008, 32, 16384, 0, 1, false, [⟨35, 34, .ro, 0⟩, ⟨33, 33, .rw, 0⟩, ⟨32, 30, .rwi, 0⟩, ⟨29, 28, .rwi, 0⟩, ⟨27, 24, .rwi, 0⟩, ⟨23, 20, .rwi, 0⟩, ⟨19, 0, .rc, 0⟩]⟩
  | .kerf_LIBASE => ⟨.kerf, 0x680010, 32, 16384, 0, 1, false, [⟨33, 0, .rwi, 0⟩]⟩
  | .kerf_LOBASE => ⟨.kerf, 0x680018, 32, 16384, 0, 1, false, [⟨33, 0, .rwi, 0⟩]⟩
  | .baler_CAPDROPS => ⟨.baler, 0x700000, 0, 1, 0, 1, false, [⟨35, 0, .rc, 0⟩]⟩
  | .baler_UNCORR => ⟨.baler, 0x700008, 0, 1, 0, 1, false, [⟨35, 0, .rc, 0⟩]⟩
  | .baler_SUBW => ⟨.baler, 0x700100, 8, 8, 0, 1, true, [⟨35, 0, .rw, 0⟩]⟩
  | .baler_SUBMIT => ⟨.baler, 0x700140, 0, 1, 0, 1, true, [⟨1, 0, .wo, 0⟩]⟩
  | .baler_SUBSTAT => ⟨.baler, 0x700148, 0, 1, 0, 1, true, [⟨13, 8, .rc, 0⟩]⟩
  | .baler_U_CTRL => ⟨.baler, 0x701000, 256, 4, 0, 1, false, [⟨0, 0, .rw, 1⟩]⟩
  | .baler_U_OCC => ⟨.baler, 0x701008, 256, 4, 0, 1, false, [⟨34, 18, .ro, 0⟩, ⟨17, 8, .ro, 0⟩, ⟨7, 0, .ro, 0⟩]⟩
  | .baler_U_JOBS => ⟨.baler, 0x701010, 256, 4, 0, 1, false, [⟨35, 0, .rc, 0⟩]⟩
  | .baler_U_QUANT => ⟨.baler, 0x701018, 256, 4, 0, 1, false, [⟨35, 0, .rc, 0⟩]⟩
  | .baler_U_VERIFY => ⟨.baler, 0x701020, 256, 4, 0, 1, false, [⟨35, 0, .rc, 0⟩]⟩
  | .baler_U_NOFIT => ⟨.baler, 0x701028, 256, 4, 0, 1, false, [⟨35, 0, .rc, 0⟩]⟩
  | .landing_SQBASE => ⟨.landing, 0x800000, 0, 1, 0, 1, true, [⟨33, 0, .wo, 0⟩]⟩
  | .landing_SQSIZE => ⟨.landing, 0x800008, 0, 1, 0, 1, true, [⟨12, 0, .wo, 0⟩]⟩
  | .landing_SQTAIL => ⟨.landing, 0x800010, 0, 1, 0, 1, true, [⟨12, 0, .wo, 0⟩]⟩
  | .chute_POOLUSE => ⟨.chute, 0x900000, 0, 1, 0, 1, false, [⟨20, 0, .ro, 0⟩]⟩
  | .chute_REQSTAT => ⟨.chute, 0x900008, 0, 1, 0, 1, true, [⟨35, 30, .rc, 0⟩, ⟨19, 19, .ro, 0⟩, ⟨18, 18, .ro, 0⟩, ⟨17, 17, .ro, 0⟩, ⟨16, 0, .ro, 0⟩]⟩
  | .chute_DROPREST => ⟨.chute, 0x900010, 0, 1, 0, 1, true, [⟨10, 0, .wo, 0⟩]⟩
  | .chute_C_CFG => ⟨.chute, 0x910000, 64, 2048, 0, 1, false, [⟨35, 35, .wo, 0⟩, ⟨34, 34, .ro, 0⟩, ⟨33, 30, .rw, 0⟩, ⟨29, 29, .rw, 0⟩, ⟨28, 28, .rw, 0⟩, ⟨27, 12, .rw, 0⟩]⟩
  | .chute_C_COUNT => ⟨.chute, 0x910008, 64, 2048, 0, 1, false, [⟨16, 0, .ro, 0⟩]⟩
  | .chute_C_PKTS => ⟨.chute, 0x910010, 64, 2048, 0, 1, false, [⟨16, 0, .ro, 0⟩]⟩
  | .chute_C_PTRS => ⟨.chute, 0x910018, 64, 2048, 0, 1, false, [⟨33, 17, .ro, 0⟩, ⟨16, 0, .ro, 0⟩]⟩
  | .chute_C_DROPS => ⟨.chute, 0x910020, 64, 2048, 0, 1, false, [⟨35, 0, .rc, 0⟩]⟩
  | .chute_C_PUSH => ⟨.chute, 0x910028, 64, 2048, 0, 1, false, [⟨35, 0, .wo, 0⟩]⟩
  | .chute_C_PUSHEND => ⟨.chute, 0x910030, 64, 2048, 0, 1, false, [⟨35, 0, .wo, 0⟩]⟩
  | .chute_C_POP => ⟨.chute, 0x910038, 64, 2048, 0, 1, false, [⟨35, 0, .ro, 0⟩]⟩
  | .flume_FTBASE => ⟨.flume, 0xA00000, 0, 1, 0, 1, false, [⟨33, 0, .rwb, 0⟩]⟩
  | .flume_FTSIZE => ⟨.flume, 0xA00008, 0, 1, 0, 1, false, [⟨4, 0, .rwb, 0x16⟩]⟩
  | .flume_HSEED => ⟨.flume, 0xA00010, 8, 2, 0, 1, false, [⟨31, 0, .rwb, 0xffffffff⟩]⟩
  | .flume_FTCOUNT => ⟨.flume, 0xA00020, 0, 1, 0, 1, false, [⟨24, 0, .ro, 0⟩]⟩
  | .flume_GCNT => ⟨.flume, 0xA00028, 8, 6, 0, 1, false, [⟨35, 0, .rc, 0⟩]⟩
  | .flume_BUFFREE => ⟨.flume, 0xA00058, 0, 1, 0, 1, false, [⟨18, 0, .ro, 0x60000⟩]⟩
  | .flume_FCMD => ⟨.flume, 0xA00100, 0, 1, 0, 1, true, [⟨35, 32, .rwi, 0⟩, ⟨15, 0, .rwi, 0⟩]⟩
  | .flume_FCMDSTAT => ⟨.flume, 0xA00108, 0, 1, 0, 1, true, [⟨35, 35, .ro, 0⟩, ⟨34, 29, .ro, 0⟩, ⟨28, 23, .rc, 0⟩, ⟨6, 0, .ro, 0⟩]⟩
  | .flume_FSTAGE => ⟨.flume, 0xA00140, 8, 8, 0, 1, true, [⟨35, 0, .rw, 0⟩]⟩
  | .flume_FREAD => ⟨.flume, 0xA00180, 8, 8, 0, 1, true, [⟨35, 0, .ro, 0⟩]⟩
  | .flume_V6STAGE => ⟨.flume, 0xA001C0, 8, 4, 0, 1, true, [⟨31, 0, .rw, 0⟩]⟩
  | .flume_PORT_KEYSEL => ⟨.flume, 0xA10000, 256, 64, 0, 1, false, [⟨4, 4, .rw, 0⟩, ⟨3, 3, .rw, 0⟩, ⟨2, 2, .rw, 1⟩, ⟨1, 1, .rw, 1⟩, ⟨0, 0, .rw, 1⟩]⟩
  | .flume_PORT_MISS => ⟨.flume, 0xA10008, 256, 64, 0, 1, false, [⟨35, 33, .rw, 0⟩, ⟨32, 18, .rw, 0⟩, ⟨17, 16, .rw, 0⟩, ⟨4, 1, .rw, 0⟩]⟩
  | .flume_PORT_CUT => ⟨.flume, 0xA10010, 256, 64, 0, 1, false, [⟨35, 35, .rw, 0⟩, ⟨34, 34, .ro, 0⟩, ⟨19, 10, .ro, 0⟩, ⟨7, 0, .rw, 0⟩]⟩
  | .flume_PORT_CNT => ⟨.flume, 0xA10018, 256, 64, 8, 8, false, [⟨35, 0, .rc, 0⟩]⟩
  | .flume_PORT_GCTRL => ⟨.flume, 0xA10058, 256, 64, 0, 1, false, [⟨35, 35, .wo, 0⟩, ⟨34, 34, .wo, 0⟩, ⟨33, 33, .ro, 0⟩, ⟨32, 25, .rw, 0xff⟩, ⟨21, 11, .ro, 0⟩, ⟨10, 0, .rw, 0⟩]⟩
  | .flume_PORT_GT0 => ⟨.flume, 0xA10060, 256, 64, 0, 1, false, [⟨35, 0, .rw, 0⟩]⟩
  | .flume_PORT_GT1 => ⟨.flume, 0xA10068, 256, 64, 0, 1, false, [⟨11, 0, .rw, 0⟩]⟩
  | .flume_PORT_GT2 => ⟨.flume, 0xA10070, 256, 64, 0, 1, false, [⟨29, 0, .rw, 0⟩]⟩
  | .flume_PORT_GT3 => ⟨.flume, 0xA10078, 256, 64, 0, 1, false, [⟨29, 0, .rw, 0⟩]⟩
  | .flume_PORT_GT4 => ⟨.flume, 0xA10080, 256, 64, 0, 1, false, [⟨35, 0, .ro, 0⟩]⟩
  | .flume_PORT_GT5 => ⟨.flume, 0xA10088, 256, 64, 0, 1, false, [⟨11, 0, .ro, 0⟩]⟩
  | .flume_PORT_GT6 => ⟨.flume, 0xA10090, 256, 64, 0, 1, false, [⟨29, 0, .ro, 0⟩]⟩
  | .flume_PORT_GT7 => ⟨.flume, 0xA10098, 256, 64, 0, 1, false, [⟨29, 0, .ro, 0⟩]⟩
  | .flume_QLATE => ⟨.flume, 0xA20000, 8, 8192, 0, 1, false, [⟨31, 0, .rw, 0⟩]⟩
  | .flume_GCL_ADMIN => ⟨.flume, 0xB00000, 16384, 64, 8, 1024, false, [⟨35, 28, .rw, 0⟩, ⟨27, 0, .rw, 0⟩]⟩
  | .flume_GCL_OPER => ⟨.flume, 0xB02000, 16384, 64, 8, 1024, false, [⟨35, 28, .ro, 0⟩, ⟨27, 0, .ro, 0⟩]⟩
  | .boom_REQSTAT => ⟨.boom, 0xC00000, 0, 1, 0, 1, true, [⟨35, 30, .rc, 0⟩]⟩
  | .boom_PORT_SHAPER => ⟨.boom, 0xC00100, 16, 67, 0, 1, false, [⟨35, 35, .wo, 0⟩, ⟨34, 30, .rw, 0⟩, ⟨28, 0, .rw, 0⟩]⟩
  | .boom_TEN_CFG => ⟨.boom, 0xC10000, 32, 4096, 0, 1, false, [⟨35, 35, .rw, 0⟩, ⟨34, 34, .ro, 1⟩, ⟨33, 27, .rwi, 0⟩, ⟨26, 19, .rw, 1⟩]⟩
  | .boom_TEN_SHAPER => ⟨.boom, 0xC10008, 32, 4096, 0, 1, false, [⟨35, 35, .wo, 0⟩, ⟨34, 30, .rw, 0⟩, ⟨28, 0, .rw, 0⟩]⟩
  | .boom_TEN_BQUOTA => ⟨.boom, 0xC10010, 32, 4096, 0, 1, false, [⟨28, 0, .rw, 0x17d78400⟩]⟩
  | .boom_SVC_CFG => ⟨.boom, 0xC40000, 16, 32768, 0, 1, false, [⟨35, 35, .rw, 0⟩, ⟨34, 34, .ro, 1⟩, ⟨33, 22, .rwi, 0⟩, ⟨21, 14, .rw, 1⟩]⟩
  | .boom_SVC_SHAPER => ⟨.boom, 0xC40008, 16, 32768, 0, 1, false, [⟨35, 35, .wo, 0⟩, ⟨34, 30, .rw, 0⟩, ⟨28, 0, .rw, 0⟩]⟩
  | .boom_POL_CFG => ⟨.boom, 0xD00000, 16, 65536, 0, 1, false, [⟨35, 35, .wo, 0⟩, ⟨34, 30, .rw, 0⟩, ⟨28, 0, .rw, 0⟩]⟩
  | .boom_POL_DROPS => ⟨.boom, 0xD00008, 16, 65536, 0, 1, false, [⟨35, 0, .rc, 0⟩]⟩
  | .boom_Q_CFG => ⟨.boom, 0xE00000, 16, 131072, 0, 1, false, [⟨35, 33, .rw, 0⟩, ⟨18, 0, .rw, 0x1000⟩]⟩
  | .boom_Q_STAT => ⟨.boom, 0xE00008, 16, 131072, 0, 1, false, [⟨35, 17, .ro, 0⟩, ⟨16, 0, .rc, 0⟩]⟩
  | .mac_CFG => ⟨.mac, 0x1000000, 65536, 64, 0, 1, false, [⟨35, 35, .rw, 0⟩, ⟨34, 31, .rwi, 0⟩, ⟨30, 16, .rwi, 0x5f2⟩]⟩
  | .mac_REQSTAT => ⟨.mac, 0x1000008, 65536, 64, 0, 1, true, [⟨35, 30, .rc, 0⟩]⟩
  | .mac_FILT => ⟨.mac, 0x1000010, 65536, 64, 0, 1, false, [⟨2, 2, .rw, 0⟩, ⟨1, 1, .rw, 1⟩, ⟨0, 0, .rw, 1⟩]⟩
  | .mac_LINK => ⟨.mac, 0x1000018, 65536, 64, 0, 1, false, [⟨14, 14, .ro, 0⟩, ⟨13, 6, .ro, 0⟩, ⟨5, 5, .ro, 0⟩, ⟨4, 4, .ro, 0⟩, ⟨3, 0, .ro, 0⟩]⟩
  | .mac_EVENT => ⟨.mac, 0x1000020, 65536, 64, 0, 1, false, [⟨4, 4, .w1c, 0⟩, ⟨3, 3, .w1c, 0⟩, ⟨2, 2, .w1c, 0⟩, ⟨1, 1, .w1c, 0⟩, ⟨0, 0, .w1c, 0⟩]⟩
  | .mac_EVENTEN => ⟨.mac, 0x1000028, 65536, 64, 0, 1, false, [⟨4, 0, .rw, 0⟩]⟩
  | .mac_PREEMPT => ⟨.mac, 0x1000030, 65536, 64, 0, 1, false, [⟨35, 35, .rw, 0⟩, ⟨34, 32, .ro, 0⟩, ⟨31, 30, .rw, 0⟩, ⟨29, 23, .rw, 0xa⟩, ⟨22, 15, .rw, 0⟩]⟩
  | .mac_CTADAPT => ⟨.mac, 0x1000038, 65536, 64, 0, 1, false, [⟨35, 35, .wo, 0⟩, ⟨29, 21, .ro, 0⟩, ⟨20, 0, .ro, 0⟩]⟩
  | .mac_TSLAT => ⟨.mac, 0x1000040, 65536, 64, 0, 1, false, [⟨35, 18, .ro, 0⟩, ⟨17, 0, .ro, 0⟩]⟩
  | .mac_HALF0 => ⟨.mac, 0x1000048, 65536, 64, 0, 1, false, [⟨35, 0, .w1c, 0⟩]⟩
  | .mac_HALF1 => ⟨.mac, 0x1000050, 65536, 64, 0, 1, false, [⟨11, 0, .w1c, 0⟩]⟩
  | .mac_LANECFG => ⟨.mac, 0x1000058, 65536, 64, 0, 1, false, [⟨35, 35, .rw, 0⟩, ⟨34, 34, .rw, 0⟩, ⟨33, 28, .rw, 0⟩, ⟨27, 21, .rw, 0x40⟩, ⟨20, 15, .rw, 0⟩, ⟨14, 14, .ro, 0⟩, ⟨13, 13, .ro, 0⟩]⟩
  | .mac_STAT => ⟨.mac, 0x1000400, 65536, 64, 8, 48, false, [⟨35, 0, .ro, 0⟩]⟩
  | .mac_GHASH => ⟨.mac, 0x1001000, 65536, 64, 8, 128, false, [⟨31, 0, .rw, 0⟩]⟩
  | .hedge_SEG_CFG => ⟨.hedge, 0x1400000, 1024, 24, 0, 1, false, [⟨35, 35, .rw, 0⟩, ⟨34, 34, .wo, 0⟩, ⟨33, 32, .rw, 0⟩, ⟨31, 28, .rw, 8⟩, ⟨27, 17, .rw, 0⟩, ⟨16, 6, .rw, 0⟩]⟩
  | .hedge_SEG_ALLOW => ⟨.hedge, 0x1400008, 1024, 24, 0, 1, false, [⟨31, 1, .rw, 0x7fffffff⟩]⟩
  | .hedge_SEG_STAT => ⟨.hedge, 0x1400010, 1024, 24, 0, 1, false, [⟨35, 34, .ro, 0⟩, ⟨33, 29, .ro, 0⟩, ⟨28, 25, .ro, 0⟩, ⟨24, 19, .rc, 0⟩]⟩
  | .hedge_SEG_EVENT => ⟨.hedge, 0x1400018, 1024, 24, 0, 1, false, [⟨3, 3, .w1c, 0⟩, ⟨2, 2, .w1c, 0⟩, ⟨1, 1, .w1c, 0⟩, ⟨0, 0, .w1c, 0⟩]⟩
  | .hedge_SEG_CNT => ⟨.hedge, 0x1400020, 1024, 24, 8, 8, false, [⟨35, 0, .rc, 0⟩]⟩
  | .hedge_SEG_NODE => ⟨.hedge, 0x1400100, 1024, 24, 8, 32, false, [⟨35, 35, .ro, 0⟩, ⟨34, 34, .ro, 0⟩, ⟨33, 33, .ro, 0⟩, ⟨32, 32, .ro, 0⟩, ⟨31, 27, .ro, 0⟩, ⟨26, 3, .ro, 0⟩]⟩
  | .hedge_SEG_DOWN => ⟨.hedge, 0x1400200, 1024, 24, 8, 24, false, [⟨35, 35, .rw, 0⟩, ⟨34, 30, .rwi, 0⟩, ⟨29, 25, .rwi, 0⟩, ⟨24, 24, .rwi, 0⟩, ⟨23, 12, .rwi, 0⟩]⟩
  | .hedge_MDIO => ⟨.hedge, 0x1410000, 0, 1, 0, 1, true, [⟨35, 35, .wo, 0⟩, ⟨34, 34, .ro, 0⟩, ⟨33, 32, .rw, 0⟩, ⟨31, 27, .rw, 0⟩, ⟨26, 22, .rw, 0⟩, ⟨15, 0, .rw, 0⟩]⟩
  | .audioio_TDM_CFG => ⟨.audioio, 0x1500000, 1024, 8, 0, 1, false, [⟨35, 35, .rw, 0⟩, ⟨34, 34, .rwi, 1⟩, ⟨33, 32, .rwi, 1⟩, ⟨31, 31, .rwi, 0⟩, ⟨30, 26, .rwi, 1⟩, ⟨25, 24, .rwi, 1⟩, ⟨23, 23, .rwi, 0⟩, ⟨22, 22, .rwi, 0⟩, ⟨21, 7, .rwi, 0⟩]⟩
  | .audioio_TDM_STAT => ⟨.audioio, 0x1500008, 1024, 8, 0, 1, false, [⟨35, 35, .ro, 0⟩, ⟨34, 24, .rc, 0⟩, ⟨23, 12, .rc, 0⟩, ⟨11, 0, .rc, 0⟩]⟩
  | .audioio_TDM_OUT => ⟨.audioio, 0x1500100, 1024, 8, 8, 32, false, [⟨35, 35, .rw, 0⟩, ⟨34, 23, .rwi, 0⟩]⟩
  | .audioio_MADI_CFG => ⟨.audioio, 0x1502000, 1024, 4, 0, 1, false, [⟨35, 35, .rw, 0⟩, ⟨34, 34, .rwi, 0⟩, ⟨33, 19, .rwi, 0⟩]⟩
  | .audioio_MADI_STAT => ⟨.audioio, 0x1502008, 1024, 4, 0, 1, false, [⟨35, 35, .ro, 0⟩, ⟨34, 24, .rc, 0⟩, ⟨23, 12, .rc, 0⟩, ⟨11, 0, .rc, 0⟩]⟩
  | .audioio_MADI_OUT => ⟨.audioio, 0x1502100, 1024, 4, 8, 64, false, [⟨35, 35, .rw, 0⟩, ⟨34, 23, .rwi, 0⟩]⟩
  | .audioio_GPIO_CFG => ⟨.audioio, 0x1503000, 8, 32, 0, 1, false, [⟨35, 35, .rw, 0⟩, ⟨34, 34, .rw, 0⟩, ⟨33, 32, .rw, 0⟩, ⟨31, 22, .rw, 0⟩]⟩
  | .audioio_GPIO_LEVEL => ⟨.audioio, 0x1503100, 0, 1, 0, 1, false, [⟨31, 0, .ro, 0⟩]⟩
  | .audioio_GPIO_OUT => ⟨.audioio, 0x1503108, 0, 1, 0, 1, false, [⟨31, 0, .rw, 0⟩]⟩
  | .audioio_GPIO_TSET => ⟨.audioio, 0x1503110, 0, 1, 0, 1, true, [⟨35, 0, .rw, 0⟩]⟩
  | .audioio_GPIO_TGO => ⟨.audioio, 0x1503118, 0, 1, 0, 1, true, [⟨35, 35, .wo, 0⟩, ⟨5, 5, .wo, 0⟩, ⟨4, 0, .wo, 0⟩]⟩
  | .audioio_REQSTAT => ⟨.audioio, 0x1503200, 0, 1, 0, 1, true, [⟨35, 30, .rc, 0⟩]⟩
  | .mc_CFG => ⟨.mc, 0x1600000, 0, 1, 0, 1, false, [⟨35, 34, .rwb, 2⟩, ⟨33, 33, .rwb, 0⟩, ⟨32, 32, .rwb, 0⟩, ⟨31, 31, .rwb, 0⟩]⟩
  | .mc_STATUS => ⟨.mc, 0x1600008, 0, 1, 0, 1, false, [⟨35, 25, .ro, 0x100⟩, ⟨24, 23, .ro, 0⟩, ⟨22, 22, .ro, 0⟩, ⟨15, 0, .ro, 0⟩]⟩
  | .mc_REQSTAT => ⟨.mc, 0x1600010, 0, 1, 0, 1, true, [⟨35, 30, .rc, 0⟩]⟩
  | .mc_FPREQ => ⟨.mc, 0x1600018, 0, 1, 0, 1, false, [⟨1, 0, .rw, 0⟩]⟩
  | .mc_REFCFG => ⟨.mc, 0x1600020, 0, 1, 0, 1, false, [⟨0, 0, .rw, 0⟩]⟩
  | .mc_ACTCFG => ⟨.mc, 0x1600028, 0, 1, 0, 1, false, [⟨15, 0, .rwb, 0x800⟩]⟩
  | .mc_HOSTCFG => ⟨.mc, 0x1600030, 0, 1, 0, 1, false, [⟨11, 0, .rw, 0x200⟩]⟩
  | .mc_SCRUB => ⟨.mc, 0x1600038, 0, 1, 0, 1, false, [⟨8, 8, .rw, 1⟩, ⟨7, 0, .rw, 0x18⟩]⟩
  | .mc_CNT => ⟨.mc, 0x1600040, 8, 8, 0, 1, false, [⟨35, 0, .rc, 0⟩]⟩
  | .mc_ELOGCNT => ⟨.mc, 0x1600100, 0, 1, 0, 1, false, [⟨6, 0, .ro, 0⟩]⟩
  | .mc_ELOG => ⟨.mc, 0x1600108, 8, 4, 0, 1, true, [⟨35, 0, .ro, 0⟩]⟩
  | .mc_FP_CFG => ⟨.mc, 0x1601000, 2048, 4, 0, 1, false, [⟨35, 35, .rwb, 0⟩, ⟨34, 32, .rwb, 4⟩, ⟨31, 25, .rwb, 0x34⟩, ⟨24, 18, .rwb, 0x34⟩, ⟨17, 11, .rwb, 0x34⟩]⟩
  | .mc_FP_NIB => ⟨.mc, 0x1601008, 2048, 4, 8, 160, false, [⟨35, 26, .rwb, 0⟩, ⟨25, 16, .rwb, 0⟩, ⟨15, 8, .rwb, 0⟩, ⟨7, 0, .rwb, 0⟩]⟩
  | .mc_DRIFT => ⟨.mc, 0x1604000, 8, 16, 0, 1, false, [⟨35, 24, .ro, 0⟩, ⟨23, 23, .ro, 0⟩, ⟨22, 0, .ro, 0⟩]⟩
  | .hostdma_CFG => ⟨.hostdma, 0x1700000, 0, 1, 0, 1, false, [⟨6, 4, .rwb, 6⟩, ⟨3, 0, .rw, 0⟩]⟩
  | .hostdma_BAR2BASE => ⟨.hostdma, 0x1700008, 0, 1, 0, 1, false, [⟨33, 0, .rw, 0⟩]⟩
  | .hostdma_CNT => ⟨.hostdma, 0x1700010, 8, 8, 0, 1, false, [⟨35, 0, .rc, 0⟩]⟩
  | .hostdma_TAGS => ⟨.hostdma, 0x1700050, 0, 1, 0, 1, false, [⟨16, 15, .ro, 0⟩, ⟨14, 0, .ro, 0⟩]⟩
  | .hostdma_REQSTAT => ⟨.hostdma, 0x1700058, 0, 1, 0, 1, true, [⟨35, 30, .rc, 0⟩]⟩
  | .hostdma_EPOCH => ⟨.hostdma, 0x1700060, 0, 1, 0, 1, false, [⟨31, 0, .ro, 0⟩]⟩
  | .hostdma_MGMT => ⟨.hostdma, 0x1700068, 0, 1, 0, 1, false, [⟨35, 35, .rwb, 0⟩, ⟨34, 19, .rwb, 0⟩, ⟨18, 4, .rwb, 0⟩, ⟨3, 2, .rwb, 0⟩]⟩
  | .hostdma_IRQMAP => ⟨.hostdma, 0x1700080, 8, 6, 0, 1, false, [⟨35, 35, .rw, 0⟩, ⟨7, 0, .rw, 0⟩]⟩
  | .hostdma_R_CFG => ⟨.hostdma, 0x1701000, 64, 16, 0, 1, false, [⟨35, 35, .rw, 0⟩, ⟨34, 32, .rwi, 0⟩, ⟨31, 31, .rwi, 0⟩, ⟨30, 23, .rwi, 0⟩, ⟨22, 11, .rw, 0⟩]⟩
  | .hostdma_R_BASELO => ⟨.hostdma, 0x1701008, 64, 16, 0, 1, false, [⟨35, 5, .rwi, 0⟩]⟩
  | .hostdma_R_BASEHI => ⟨.hostdma, 0x1701010, 64, 16, 0, 1, false, [⟨27, 0, .rwi, 0⟩]⟩
  | .hostdma_R_SIZE => ⟨.hostdma, 0x1701018, 64, 16, 0, 1, false, [⟨16, 0, .rwi, 0⟩]⟩
  | .hostdma_R_TAIL => ⟨.hostdma, 0x1701020, 64, 16, 0, 1, false, [⟨15, 0, .rw, 0⟩]⟩
  | .hostdma_R_HEAD => ⟨.hostdma, 0x1701028, 64, 16, 0, 1, false, [⟨15, 0, .ro, 0⟩]⟩
  | .hostdma_R_DROPS => ⟨.hostdma, 0x1701030, 64, 16, 0, 1, false, [⟨35, 0, .rc, 0⟩]⟩
  | .ranger_STATUS => ⟨.ranger, 0x1800000, 0, 1, 0, 1, false, [⟨35, 24, .ro, 0⟩, ⟨2, 2, .ro, 0⟩, ⟨1, 1, .ro, 0⟩, ⟨0, 0, .ro, 0⟩]⟩
  | .ranger_TMAX => ⟨.ranger, 0x1800008, 0, 1, 0, 1, false, [⟨17, 12, .ro, 0⟩, ⟨11, 0, .ro, 0⟩]⟩
  | .ranger_POWER => ⟨.ranger, 0x1800010, 0, 1, 0, 1, false, [⟨19, 0, .ro, 0⟩]⟩
  | .ranger_EVENT => ⟨.ranger, 0x1800018, 0, 1, 0, 1, false, [⟨3, 3, .w1c, 0⟩, ⟨2, 2, .w1c, 0⟩, ⟨1, 1, .w1c, 0⟩, ⟨0, 0, .w1c, 0⟩]⟩
  | .ranger_EVENTEN => ⟨.ranger, 0x1800020, 0, 1, 0, 1, false, [⟨3, 0, .rw, 0⟩]⟩
  | .ranger_POL0 => ⟨.ranger, 0x1800100, 0, 1, 0, 1, false, [⟨8, 0, .rwb, 0x168⟩]⟩
  | .ranger_POL1 => ⟨.ranger, 0x1800108, 0, 1, 0, 1, false, [⟨25, 0, .rwb, 0x18b8200⟩]⟩
  | .ranger_POL2 => ⟨.ranger, 0x1800110, 0, 1, 0, 1, false, [⟨13, 2, .rwb, 0⟩, ⟨1, 0, .rwb, 0⟩]⟩
  | .ranger_POL3 => ⟨.ranger, 0x1800118, 0, 1, 0, 1, false, [⟨13, 7, .rwb, 0x50⟩, ⟨6, 0, .rwb, 0x28⟩]⟩
  | .ranger_POL4 => ⟨.ranger, 0x1800120, 0, 1, 0, 1, false, [⟨31, 0, .rwb, 0⟩]⟩
  | .ranger_TEMP => ⟨.ranger, 0x1800200, 8, 64, 0, 1, false, [⟨11, 0, .ro, 0⟩]⟩
  | .ranger_DOMPWR => ⟨.ranger, 0x1800400, 8, 18, 0, 1, false, [⟨19, 0, .ro, 0⟩]⟩
  | .ranger_OPP => ⟨.ranger, 0x1800500, 8, 13, 0, 1, false, [⟨2, 0, .ro, 0⟩]⟩
  | .fault_MODEREQ => ⟨.fault, 0x1900000, 0, 1, 0, 1, true, [⟨3, 0, .wo, 0⟩]⟩
  | .fault_REQSTAT => ⟨.fault, 0x1900008, 0, 1, 0, 1, true, [⟨35, 30, .rc, 0⟩]⟩
  | .fault_BASE => ⟨.fault, 0x1900010, 0, 1, 0, 1, false, [⟨3, 0, .ro, 0⟩]⟩
  | .fault_CFG => ⟨.fault, 0x1900018, 0, 1, 0, 1, false, [⟨16, 16, .rwb, 0⟩, ⟨15, 8, .rwb, 8⟩, ⟨7, 0, .rwb, 0xa⟩]⟩
  | .fault_EVENT => ⟨.fault, 0x1900020, 0, 1, 0, 1, false, [⟨6, 6, .w1c, 0⟩, ⟨5, 5, .w1c, 0⟩, ⟨4, 4, .w1c, 0⟩, ⟨3, 3, .w1c, 0⟩, ⟨2, 2, .w1c, 0⟩, ⟨1, 1, .w1c, 0⟩, ⟨0, 0, .w1c, 0⟩]⟩
  | .fault_CNT => ⟨.fault, 0x1900040, 8, 8, 0, 1, false, [⟨35, 0, .rc, 0⟩]⟩
  | .fault_LAST0 => ⟨.fault, 0x1900100, 0, 1, 0, 1, false, [⟨35, 30, .ro, 0⟩, ⟨29, 27, .ro, 0⟩]⟩
  | .fault_LAST1 => ⟨.fault, 0x1900108, 0, 1, 0, 1, false, [⟨35, 0, .ro, 0⟩]⟩
  | .fault_FLASH => ⟨.fault, 0x1900180, 0, 1, 0, 1, false, [⟨35, 35, .ro, 0⟩, ⟨34, 34, .ro, 0⟩, ⟨33, 22, .ro, 0⟩, ⟨3, 0, .ro, 0⟩]⟩
  | .bootinfo_IDENT => ⟨.bootinfo, 0x1A00000, 0, 1, 0, 1, false, [⟨21, 6, .ro, 0⟩, ⟨5, 4, .ro, 0⟩, ⟨3, 0, .ro, 0⟩]⟩
  | .bootinfo_SERIALLO => ⟨.bootinfo, 0x1A00008, 0, 1, 0, 1, false, [⟨35, 0, .ro, 0⟩]⟩
  | .bootinfo_SERIALHI => ⟨.bootinfo, 0x1A00010, 0, 1, 0, 1, false, [⟨27, 0, .ro, 0⟩]⟩
  | .bootinfo_FUSESTAT => ⟨.bootinfo, 0x1A00018, 0, 1, 0, 1, false, [⟨8, 3, .ro, 0⟩, ⟨2, 2, .ro, 0⟩, ⟨1, 1, .ro, 0⟩, ⟨0, 0, .ro, 0⟩]⟩
  | .bootinfo_ROLLLO => ⟨.bootinfo, 0x1A00020, 0, 1, 0, 1, false, [⟨35, 0, .ro, 0⟩]⟩
  | .bootinfo_ROLLHI => ⟨.bootinfo, 0x1A00028, 0, 1, 0, 1, false, [⟨27, 0, .ro, 0⟩]⟩
  | .bootinfo_BOOT => ⟨.bootinfo, 0x1A00030, 0, 1, 0, 1, false, [⟨35, 34, .ro, 0⟩, ⟨33, 33, .ro, 0⟩, ⟨32, 32, .ro, 0⟩, ⟨31, 26, .ro, 0⟩, ⟨25, 25, .ro, 0⟩, ⟨24, 19, .ro, 0⟩, ⟨18, 18, .ro, 0⟩]⟩
  | .bootinfo_IMAGE => ⟨.bootinfo, 0x1A00038, 0, 1, 0, 1, false, [⟨31, 0, .ro, 0⟩]⟩
  | .bootinfo_IMGROLLLO => ⟨.bootinfo, 0x1A00040, 0, 1, 0, 1, false, [⟨35, 0, .ro, 0⟩]⟩
  | .bootinfo_IMGROLLHI => ⟨.bootinfo, 0x1A00048, 0, 1, 0, 1, false, [⟨27, 0, .ro, 0⟩]⟩
  | .bootinfo_IMGSIZE => ⟨.bootinfo, 0x1A00050, 0, 1, 0, 1, false, [⟨26, 0, .ro, 0⟩]⟩
  | .bootinfo_BRINGUP => ⟨.bootinfo, 0x1A00058, 0, 1, 0, 1, false, [⟨35, 0, .ro, 0⟩]⟩
  | .coredbg_EXCCOUNT => ⟨.coredbg, 0x1B00000, 0, 1, 0, 1, false, [⟨35, 0, .rc, 0⟩]⟩
  | .coredbg_LASTEXC => ⟨.coredbg, 0x1B00008, 0, 1, 0, 1, false, [⟨35, 32, .ro, 0⟩, ⟨31, 25, .ro, 0⟩, ⟨24, 24, .ro, 0⟩, ⟨23, 18, .ro, 0⟩, ⟨14, 0, .ro, 0⟩]⟩
  | .coredbg_LASTPC => ⟨.coredbg, 0x1B00010, 0, 1, 0, 1, false, [⟨18, 0, .ro, 0⟩]⟩
  | .coredbg_STATUS => ⟨.coredbg, 0x1B00018, 0, 1, 0, 1, false, [⟨14, 14, .ro, 0⟩, ⟨13, 7, .ro, 0⟩, ⟨6, 0, .ro, 0⟩]⟩
  | .coredbg_MBOX => ⟨.coredbg, 0x1B00100, 8, 4, 0, 1, false, [⟨35, 0, .rw, 0⟩]⟩

/-- The registers of block GLOBAL. -/
def regsOf_global : List RegName := [.global_ID, .global_MODE, .global_RECOVERING, .global_DEVNUM, .global_SCRATCH]

/-- The registers of block TIME. -/
def regsOf_time : List RegName := [.time_NOW_SECLO, .time_NOW_SECHI, .time_NOW_NS, .time_NOW_FRAC, .time_COUNT_LO, .time_COUNT_HI, .time_MT_LO, .time_MT_HI, .time_RATE, .time_STEP_SEC, .time_STEP_NS, .time_STATUS, .time_CTRL, .time_SERVO, .time_STEPLIMIT, .time_OFFSET, .time_LADDER, .time_PTPCFG, .time_PPSO, .time_PPSI, .time_FREQO, .time_WCLKO, .time_EVT_COUNT, .time_EVT_DROPS, .time_TC_SKIP, .time_TC_PORT]

/-- The registers of block CHAN. -/
def regsOf_chan : List RegName := [.chan_CFG, .chan_DESCBASE, .chan_LUCEIL, .chan_CLCEIL, .chan_LUEFF, .chan_LUUSE, .chan_CLUSE, .chan_DRAMBUDGET, .chan_DRAMUSE, .chan_ACTIVE, .chan_PROTVIOL, .chan_CMD, .chan_CMDSTAT, .chan_STAGEMASK, .chan_INGDISC, .chan_STAGE, .chan_READBACK, .chan_TQUOTA, .chan_TUSE, .chan_MIXCELLS, .chan_MIXINPUTS, .chan_MIXLATE, .chan_MIXSTALE, .chan_MIXUNCORR, .chan_BUS, .chan_BUSGAIN, .chan_BUSSTAT]

/-- The registers of block KERF. -/
def regsOf_kerf : List RegName := [.kerf_STATUS, .kerf_LANEUSE, .kerf_XUSE, .kerf_RINGUNCORR, .kerf_COEFADDR, .kerf_COEFDATA, .kerf_SETHDR, .kerf_GANG, .kerf_LCFG, .kerf_LRATE, .kerf_LIBASE, .kerf_LOBASE]

/-- The registers of block BALER. -/
def regsOf_baler : List RegName := [.baler_CAPDROPS, .baler_UNCORR, .baler_SUBW, .baler_SUBMIT, .baler_SUBSTAT, .baler_U_CTRL, .baler_U_OCC, .baler_U_JOBS, .baler_U_QUANT, .baler_U_VERIFY, .baler_U_NOFIT]

/-- The registers of block LANDING. -/
def regsOf_landing : List RegName := [.landing_SQBASE, .landing_SQSIZE, .landing_SQTAIL]

/-- The registers of block CHUTE. -/
def regsOf_chute : List RegName := [.chute_POOLUSE, .chute_REQSTAT, .chute_DROPREST, .chute_C_CFG, .chute_C_COUNT, .chute_C_PKTS, .chute_C_PTRS, .chute_C_DROPS, .chute_C_PUSH, .chute_C_PUSHEND, .chute_C_POP]

/-- The registers of block FLUME. -/
def regsOf_flume : List RegName := [.flume_FTBASE, .flume_FTSIZE, .flume_HSEED, .flume_FTCOUNT, .flume_GCNT, .flume_BUFFREE, .flume_FCMD, .flume_FCMDSTAT, .flume_FSTAGE, .flume_FREAD, .flume_V6STAGE, .flume_PORT_KEYSEL, .flume_PORT_MISS, .flume_PORT_CUT, .flume_PORT_CNT, .flume_PORT_GCTRL, .flume_PORT_GT0, .flume_PORT_GT1, .flume_PORT_GT2, .flume_PORT_GT3, .flume_PORT_GT4, .flume_PORT_GT5, .flume_PORT_GT6, .flume_PORT_GT7, .flume_QLATE, .flume_GCL_ADMIN, .flume_GCL_OPER]

/-- The registers of block BOOM. -/
def regsOf_boom : List RegName := [.boom_REQSTAT, .boom_PORT_SHAPER, .boom_TEN_CFG, .boom_TEN_SHAPER, .boom_TEN_BQUOTA, .boom_SVC_CFG, .boom_SVC_SHAPER, .boom_POL_CFG, .boom_POL_DROPS, .boom_Q_CFG, .boom_Q_STAT]

/-- The registers of block MAC. -/
def regsOf_mac : List RegName := [.mac_CFG, .mac_REQSTAT, .mac_FILT, .mac_LINK, .mac_EVENT, .mac_EVENTEN, .mac_PREEMPT, .mac_CTADAPT, .mac_TSLAT, .mac_HALF0, .mac_HALF1, .mac_LANECFG, .mac_STAT, .mac_GHASH]

/-- The registers of block HEDGE. -/
def regsOf_hedge : List RegName := [.hedge_SEG_CFG, .hedge_SEG_ALLOW, .hedge_SEG_STAT, .hedge_SEG_EVENT, .hedge_SEG_CNT, .hedge_SEG_NODE, .hedge_SEG_DOWN, .hedge_MDIO]

/-- The registers of block AUDIO_IO. -/
def regsOf_audioio : List RegName := [.audioio_TDM_CFG, .audioio_TDM_STAT, .audioio_TDM_OUT, .audioio_MADI_CFG, .audioio_MADI_STAT, .audioio_MADI_OUT, .audioio_GPIO_CFG, .audioio_GPIO_LEVEL, .audioio_GPIO_OUT, .audioio_GPIO_TSET, .audioio_GPIO_TGO, .audioio_REQSTAT]

/-- The registers of block MC. -/
def regsOf_mc : List RegName := [.mc_CFG, .mc_STATUS, .mc_REQSTAT, .mc_FPREQ, .mc_REFCFG, .mc_ACTCFG, .mc_HOSTCFG, .mc_SCRUB, .mc_CNT, .mc_ELOGCNT, .mc_ELOG, .mc_FP_CFG, .mc_FP_NIB, .mc_DRIFT]

/-- The registers of block HOSTDMA. -/
def regsOf_hostdma : List RegName := [.hostdma_CFG, .hostdma_BAR2BASE, .hostdma_CNT, .hostdma_TAGS, .hostdma_REQSTAT, .hostdma_EPOCH, .hostdma_MGMT, .hostdma_IRQMAP, .hostdma_R_CFG, .hostdma_R_BASELO, .hostdma_R_BASEHI, .hostdma_R_SIZE, .hostdma_R_TAIL, .hostdma_R_HEAD, .hostdma_R_DROPS]

/-- The registers of block RANGER. -/
def regsOf_ranger : List RegName := [.ranger_STATUS, .ranger_TMAX, .ranger_POWER, .ranger_EVENT, .ranger_EVENTEN, .ranger_POL0, .ranger_POL1, .ranger_POL2, .ranger_POL3, .ranger_POL4, .ranger_TEMP, .ranger_DOMPWR, .ranger_OPP]

/-- The registers of block FAULT. -/
def regsOf_fault : List RegName := [.fault_MODEREQ, .fault_REQSTAT, .fault_BASE, .fault_CFG, .fault_EVENT, .fault_CNT, .fault_LAST0, .fault_LAST1, .fault_FLASH]

/-- The registers of block BOOTINFO. -/
def regsOf_bootinfo : List RegName := [.bootinfo_IDENT, .bootinfo_SERIALLO, .bootinfo_SERIALHI, .bootinfo_FUSESTAT, .bootinfo_ROLLLO, .bootinfo_ROLLHI, .bootinfo_BOOT, .bootinfo_IMAGE, .bootinfo_IMGROLLLO, .bootinfo_IMGROLLHI, .bootinfo_IMGSIZE, .bootinfo_BRINGUP]

/-- The registers of block COREDBG. -/
def regsOf_coredbg : List RegName := [.coredbg_EXCCOUNT, .coredbg_LASTEXC, .coredbg_LASTPC, .coredbg_STATUS, .coredbg_MBOX]

/-- The registers of a block. -/
def regsOf : Block → List RegName
  | .global => regsOf_global
  | .time => regsOf_time
  | .chan => regsOf_chan
  | .kerf => regsOf_kerf
  | .baler => regsOf_baler
  | .landing => regsOf_landing
  | .chute => regsOf_chute
  | .flume => regsOf_flume
  | .boom => regsOf_boom
  | .mac => regsOf_mac
  | .hedge => regsOf_hedge
  | .audioio => regsOf_audioio
  | .mc => regsOf_mc
  | .hostdma => regsOf_hostdma
  | .ranger => regsOf_ranger
  | .fault => regsOf_fault
  | .bootinfo => regsOf_bootinfo
  | .coredbg => regsOf_coredbg

/-- Every register. -/
def allRegs : List RegName :=
  regsOf_global ++ regsOf_time ++ regsOf_chan ++ regsOf_kerf ++ regsOf_baler ++ regsOf_landing ++ regsOf_chute ++ regsOf_flume ++ regsOf_boom ++ regsOf_mac ++ regsOf_hedge ++ regsOf_audioio ++ regsOf_mc ++ regsOf_hostdma ++ regsOf_ranger ++ regsOf_fault ++ regsOf_bootinfo ++ regsOf_coredbg

/-- The block of a BAR0 offset (Table 1.7, R35); none in the reserved range (R36). -/
def blockAt (off : Nat) : Option Block :=
  if off < 0x100000 then some .global
  else if off < 0x400000 then some .time
  else if off < 0x600000 then some .chan
  else if off < 0x700000 then some .kerf
  else if off < 0x800000 then some .baler
  else if off < 0x900000 then some .landing
  else if off < 0xA00000 then some .chute
  else if off < 0xC00000 then some .flume
  else if off < 0x1000000 then some .boom
  else if off < 0x1400000 then some .mac
  else if off < 0x1500000 then some .hedge
  else if off < 0x1600000 then some .audioio
  else if off < 0x1700000 then some .mc
  else if off < 0x1800000 then some .hostdma
  else if off < 0x1900000 then some .ranger
  else if off < 0x1A00000 then some .fault
  else if off < 0x1B00000 then some .bootinfo
  else if off < 0x1C00000 then some .coredbg
  else none

/-- The indices of a register that a BAR0 offset names, if it names that register. -/
def RegInfo.indices (d : RegInfo) (off : Nat) : Option (Nat × Nat) :=
  if off < d.base then none
  else
    let r := off - d.base
    if d.s1 = 0 then (if r = 0 then some (0, 0) else none)
    else
      let i := r / d.s1
      let r2 := r % d.s1
      if d.n1 ≤ i then none
      else if d.s2 = 0 then (if r2 = 0 then some (i, 0) else none)
      else if r2 % d.s2 = 0 ∧ r2 / d.s2 < d.n2 then some (i, r2 / d.s2) else none

/-- The register and indices that a BAR0 octet offset names; none for an unnamed offset (R12). -/
def regAt (off : Nat) : Option (RegName × Nat × Nat) :=
  match blockAt off with
  | none => none
  | some b => (regsOf b).findSome? (fun r => (r.info.indices off).map (fun ij => (r, ij.1, ij.2)))

/-- The BAR0 octet offset of a register. An index beyond a register's array wraps within that array: no command gives one, and
it then names no other register. -/
def RegName.addr (r : RegName) (i j : Nat) : Nat :=
  r.info.base + i % r.info.n1 * r.info.s1 + j % r.info.n2 * r.info.s2

/-- The field of a table that starts at a bit, as the table gives it. -/
def RegInfo.fieldAt (d : RegInfo) (lo : Nat) : Option RegField := d.fields.find? (fun f => f.lo == lo)

/-- The reset value of a register: its fields' reset values; three registers' resets depend on the index
(KERF.LCFG.GANG is the lane's own number, FLUME.HSEED[1] is 0x5A5A_5A5A, MC.FP[0].CFG.EN is 1). -/
def RegName.resetVal (r : RegName) (i : Nat) : Nat :=
  let v := r.info.fields.foldl (fun a f => a + f.reset * 2 ^ f.lo) 0
  match r with
  | .kerf_LCFG => v + i * 2 ^ 22
  | .flume_HSEED => if i = 1 then 0x5A5A5A5A else v
  | .mc_FP_CFG => if i = 0 then v + 2 ^ 35 else v
  | _ => v

end Sys2Proof.Machine

namespace Sys2Proof.Machine.F

/-- GLOBAL.ID.PART, RO. -/
def global_ID_PART : Fld := ⟨.global_ID, 35, 20⟩
/-- GLOBAL.ID.REV, RO. -/
def global_ID_REV : Fld := ⟨.global_ID, 19, 16⟩
/-- GLOBAL.MODE.PREV, RO. -/
def global_MODE_PREV : Fld := ⟨.global_MODE, 7, 4⟩
/-- GLOBAL.MODE.MODE, RO. -/
def global_MODE_MODE : Fld := ⟨.global_MODE, 3, 0⟩
/-- GLOBAL.RECOVERING.CHANNEL, RO. -/
def global_RECOVERING_CHANNEL : Fld := ⟨.global_RECOVERING, 1, 1⟩
/-- GLOBAL.RECOVERING.FORWARDING, RO. -/
def global_RECOVERING_FORWARDING : Fld := ⟨.global_RECOVERING, 0, 0⟩
/-- GLOBAL.DEVNUM.DEVNUM, RWB. -/
def global_DEVNUM_DEVNUM : Fld := ⟨.global_DEVNUM, 17, 0⟩
/-- GLOBAL.SCRATCH.VALUE, RW. -/
def global_SCRATCH_VALUE : Fld := ⟨.global_SCRATCH, 35, 0⟩
/-- TIME.NOW_SECLO.SEC, RO. -/
def time_NOW_SECLO_SEC : Fld := ⟨.time_NOW_SECLO, 35, 0⟩
/-- TIME.NOW_SECHI.SEC, RO. -/
def time_NOW_SECHI_SEC : Fld := ⟨.time_NOW_SECHI, 11, 0⟩
/-- TIME.NOW_NS.NS, RO. -/
def time_NOW_NS_NS : Fld := ⟨.time_NOW_NS, 31, 0⟩
/-- TIME.NOW_FRAC.FRAC, RO. -/
def time_NOW_FRAC_FRAC : Fld := ⟨.time_NOW_FRAC, 15, 0⟩
/-- TIME.COUNT_LO.COUNT, RO. -/
def time_COUNT_LO_COUNT : Fld := ⟨.time_COUNT_LO, 35, 0⟩
/-- TIME.COUNT_HI.COUNT, RO. -/
def time_COUNT_HI_COUNT : Fld := ⟨.time_COUNT_HI, 35, 0⟩
/-- TIME.MT_LO.MT, RO. -/
def time_MT_LO_MT : Fld := ⟨.time_MT_LO, 35, 0⟩
/-- TIME.MT_HI.MT, RO. -/
def time_MT_HI_MT : Fld := ⟨.time_MT_HI, 17, 0⟩
/-- TIME.RATE.RATE, RW. -/
def time_RATE_RATE : Fld := ⟨.time_RATE, 35, 0⟩
/-- TIME.STEP_SEC.SEC, RW. -/
def time_STEP_SEC_SEC : Fld := ⟨.time_STEP_SEC, 35, 0⟩
/-- TIME.STEP_NS.GO, WO. -/
def time_STEP_NS_GO : Fld := ⟨.time_STEP_NS, 35, 35⟩
/-- TIME.STEP_NS.NS, RW. -/
def time_STEP_NS_NS : Fld := ⟨.time_STEP_NS, 29, 0⟩
/-- TIME.STATUS.LASTERR, RC. -/
def time_STATUS_LASTERR : Fld := ⟨.time_STATUS, 13, 8⟩
/-- TIME.STATUS.STEPPED, RO. -/
def time_STATUS_STEPPED : Fld := ⟨.time_STATUS, 6, 6⟩
/-- TIME.STATUS.STEPREQ, RO. -/
def time_STATUS_STEPREQ : Fld := ⟨.time_STATUS, 5, 5⟩
/-- TIME.STATUS.ARMED, RO. -/
def time_STATUS_ARMED : Fld := ⟨.time_STATUS, 4, 4⟩
/-- TIME.STATUS.STATE, RO. -/
def time_STATUS_STATE : Fld := ⟨.time_STATUS, 3, 0⟩
/-- TIME.CTRL.AUTOSTEP, RW. -/
def time_CTRL_AUTOSTEP : Fld := ⟨.time_CTRL, 2, 2⟩
/-- TIME.CTRL.SOURCE, RW. -/
def time_CTRL_SOURCE : Fld := ⟨.time_CTRL, 1, 0⟩
/-- TIME.SERVO.TAU, RWB. -/
def time_SERVO_TAU : Fld := ⟨.time_SERVO, 35, 28⟩
/-- TIME.SERVO.HOLDMS, RWB. -/
def time_SERVO_HOLDMS : Fld := ⟨.time_SERVO, 27, 21⟩
/-- TIME.SERVO.LOCKNS, RWB. -/
def time_SERVO_LOCKNS : Fld := ⟨.time_SERVO, 20, 9⟩
/-- TIME.SERVO.SLEWMAX, RWB. -/
def time_SERVO_SLEWMAX : Fld := ⟨.time_SERVO, 8, 0⟩
/-- TIME.STEPLIMIT.US, RWB. -/
def time_STEPLIMIT_US : Fld := ⟨.time_STEPLIMIT, 35, 0⟩
/-- TIME.OFFSET.NS, RO. -/
def time_OFFSET_NS : Fld := ⟨.time_OFFSET, 35, 0⟩
/-- TIME.LADDER.BLOCK, RWB. -/
def time_LADDER_BLOCK : Fld := ⟨.time_LADDER, 2, 0⟩
/-- TIME.PTPCFG.TRANSPORT, RWB. -/
def time_PTPCFG_TRANSPORT : Fld := ⟨.time_PTPCFG, 17, 16⟩
/-- TIME.PTPCFG.DOMAIN, RWB. -/
def time_PTPCFG_DOMAIN : Fld := ⟨.time_PTPCFG, 15, 8⟩
/-- TIME.PTPCFG.LOGSYNC, RWB. -/
def time_PTPCFG_LOGSYNC : Fld := ⟨.time_PTPCFG, 7, 4⟩
/-- TIME.PTPCFG.PROFILE, RWB. -/
def time_PTPCFG_PROFILE : Fld := ⟨.time_PTPCFG, 1, 0⟩
/-- TIME.PPSO.OFFSET, RW. -/
def time_PPSO_OFFSET : Fld := ⟨.time_PPSO, 35, 12⟩
/-- TIME.PPSO.WIDTH, RW. -/
def time_PPSO_WIDTH : Fld := ⟨.time_PPSO, 11, 2⟩
/-- TIME.PPSO.ONLYLOCKED, RW. -/
def time_PPSO_ONLYLOCKED : Fld := ⟨.time_PPSO, 1, 1⟩
/-- TIME.PPSO.EN, RW. -/
def time_PPSO_EN : Fld := ⟨.time_PPSO, 0, 0⟩
/-- TIME.PPSI.TOCHUTE, RW. -/
def time_PPSI_TOCHUTE : Fld := ⟨.time_PPSI, 2, 2⟩
/-- TIME.PPSI.EDGE, RW. -/
def time_PPSI_EDGE : Fld := ⟨.time_PPSI, 1, 1⟩
/-- TIME.PPSI.EN, RW. -/
def time_PPSI_EN : Fld := ⟨.time_PPSI, 0, 0⟩
/-- TIME.FREQO.RUNG, RW. -/
def time_FREQO_RUNG : Fld := ⟨.time_FREQO, 8, 6⟩
/-- TIME.FREQO.SEL, RW. -/
def time_FREQO_SEL : Fld := ⟨.time_FREQO, 5, 2⟩
/-- TIME.FREQO.ONLYLOCKED, RW. -/
def time_FREQO_ONLYLOCKED : Fld := ⟨.time_FREQO, 1, 1⟩
/-- TIME.FREQO.EN, RW. -/
def time_FREQO_EN : Fld := ⟨.time_FREQO, 0, 0⟩
/-- TIME.WCLKO.ONLYLOCKED, RW. -/
def time_WCLKO_ONLYLOCKED : Fld := ⟨.time_WCLKO, 1, 1⟩
/-- TIME.WCLKO.EN, RW. -/
def time_WCLKO_EN : Fld := ⟨.time_WCLKO, 0, 0⟩
/-- TIME.EVT_COUNT.RECORDS, RO. -/
def time_EVT_COUNT_RECORDS : Fld := ⟨.time_EVT_COUNT, 12, 0⟩
/-- TIME.EVT_DROPS.DROPS, RC. -/
def time_EVT_DROPS_DROPS : Fld := ⟨.time_EVT_DROPS, 35, 0⟩
/-- TIME.TC_SKIP.FRAMES, RC. -/
def time_TC_SKIP_FRAMES : Fld := ⟨.time_TC_SKIP, 35, 0⟩
/-- TIME.TC_PORT[p].LINKDELAY, RW. -/
def time_TC_PORT_LINKDELAY : Fld := ⟨.time_TC_PORT, 35, 4⟩
/-- TIME.TC_PORT[p].MODE, RW. -/
def time_TC_PORT_MODE : Fld := ⟨.time_TC_PORT, 1, 0⟩
/-- CHAN.CFG.SLOTS, RWB. -/
def chan_CFG_SLOTS : Fld := ⟨.chan_CFG, 15, 0⟩
/-- CHAN.DESCBASE.BASE, RWB. -/
def chan_DESCBASE_BASE : Fld := ⟨.chan_DESCBASE, 33, 0⟩
/-- CHAN.LUCEIL.CEIL, RWB. -/
def chan_LUCEIL_CEIL : Fld := ⟨.chan_LUCEIL, 25, 0⟩
/-- CHAN.CLCEIL.CEIL, RWB. -/
def chan_CLCEIL_CEIL : Fld := ⟨.chan_CLCEIL, 22, 0⟩
/-- CHAN.LUEFF.CEIL, RO. -/
def chan_LUEFF_CEIL : Fld := ⟨.chan_LUEFF, 25, 0⟩
/-- CHAN.LUUSE.USE, RO. -/
def chan_LUUSE_USE : Fld := ⟨.chan_LUUSE, 25, 0⟩
/-- CHAN.CLUSE[k].USE, RO. -/
def chan_CLUSE_USE : Fld := ⟨.chan_CLUSE, 22, 0⟩
/-- CHAN.DRAMBUDGET.KBPS, RWB. -/
def chan_DRAMBUDGET_KBPS : Fld := ⟨.chan_DRAMBUDGET, 28, 0⟩
/-- CHAN.DRAMUSE.KBPS, RO. -/
def chan_DRAMUSE_KBPS : Fld := ⟨.chan_DRAMUSE, 28, 0⟩
/-- CHAN.ACTIVE.COUNT, RO. -/
def chan_ACTIVE_COUNT : Fld := ⟨.chan_ACTIVE, 15, 0⟩
/-- CHAN.PROTVIOL.WRITES, RC. -/
def chan_PROTVIOL_WRITES : Fld := ⟨.chan_PROTVIOL, 35, 0⟩
/-- CHAN.CMD.OP, RWI. -/
def chan_CMD_OP : Fld := ⟨.chan_CMD, 35, 32⟩
/-- CHAN.CMD.CHANNEL, RWI. -/
def chan_CMD_CHANNEL : Fld := ⟨.chan_CMD, 14, 0⟩
/-- CHAN.CMDSTAT.BUSY, RO. -/
def chan_CMDSTAT_BUSY : Fld := ⟨.chan_CMDSTAT, 35, 35⟩
/-- CHAN.CMDSTAT.STATUS, RO. -/
def chan_CMDSTAT_STATUS : Fld := ⟨.chan_CMDSTAT, 34, 29⟩
/-- CHAN.CMDSTAT.LASTERR, RC. -/
def chan_CMDSTAT_LASTERR : Fld := ⟨.chan_CMDSTAT, 28, 23⟩
/-- CHAN.CMDSTAT.CHANNEL, RO. -/
def chan_CMDSTAT_CHANNEL : Fld := ⟨.chan_CMDSTAT, 14, 0⟩
/-- CHAN.STAGEMASK.WORDS, RW. -/
def chan_STAGEMASK_WORDS : Fld := ⟨.chan_STAGEMASK, 23, 0⟩
/-- CHAN.INGDISC.FRAMES, RC. -/
def chan_INGDISC_FRAMES : Fld := ⟨.chan_INGDISC, 35, 0⟩
/-- CHAN.STAGE[w].WORD, RW. -/
def chan_STAGE_WORD : Fld := ⟨.chan_STAGE, 35, 0⟩
/-- CHAN.READBACK[w].WORD, RO. -/
def chan_READBACK_WORD : Fld := ⟨.chan_READBACK, 35, 0⟩
/-- CHAN.TQUOTA[t].CHANNELS, RW. -/
def chan_TQUOTA_CHANNELS : Fld := ⟨.chan_TQUOTA, 15, 0⟩
/-- CHAN.TUSE[t].CHANNELS, RO. -/
def chan_TUSE_CHANNELS : Fld := ⟨.chan_TUSE, 15, 0⟩
/-- CHAN.MIXCELLS.CELLS, RO. -/
def chan_MIXCELLS_CELLS : Fld := ⟨.chan_MIXCELLS, 20, 0⟩
/-- CHAN.MIXINPUTS.INPUTS, RO. -/
def chan_MIXINPUTS_INPUTS : Fld := ⟨.chan_MIXINPUTS, 16, 0⟩
/-- CHAN.MIXLATE.SAMPLES, RC. -/
def chan_MIXLATE_SAMPLES : Fld := ⟨.chan_MIXLATE, 35, 0⟩
/-- CHAN.MIXSTALE.READS, RC. -/
def chan_MIXSTALE_READS : Fld := ⟨.chan_MIXSTALE, 35, 0⟩
/-- CHAN.MIXUNCORR.CELLS, RC. -/
def chan_MIXUNCORR_CELLS : Fld := ⟨.chan_MIXUNCORR, 35, 0⟩
/-- CHAN.BUS[b].EN, RW. -/
def chan_BUS_EN : Fld := ⟨.chan_BUS, 35, 35⟩
/-- CHAN.BUS[b].RATE, RWI. -/
def chan_BUS_RATE : Fld := ⟨.chan_BUS, 34, 33⟩
/-- CHAN.BUS[b].WIN, RWI. -/
def chan_BUS_WIN : Fld := ⟨.chan_BUS, 32, 30⟩
/-- CHAN.BUS[b].WBASE, RWI. -/
def chan_BUS_WBASE : Fld := ⟨.chan_BUS, 29, 18⟩
/-- CHAN.BUSGAIN[b].OUTGAIN, RW. -/
def chan_BUSGAIN_OUTGAIN : Fld := ⟨.chan_BUSGAIN, 35, 25⟩
/-- CHAN.BUSGAIN[b].INPUTS, RO. -/
def chan_BUSGAIN_INPUTS : Fld := ⟨.chan_BUSGAIN, 24, 18⟩
/-- CHAN.BUSGAIN[b].READERS, RO. -/
def chan_BUSGAIN_READERS : Fld := ⟨.chan_BUSGAIN, 17, 2⟩
/-- CHAN.BUSSTAT[b].CLIPS, RC. -/
def chan_BUSSTAT_CLIPS : Fld := ⟨.chan_BUSSTAT, 35, 18⟩
/-- CHAN.BUSSTAT[b].LATEIN, RC. -/
def chan_BUSSTAT_LATEIN : Fld := ⟨.chan_BUSSTAT, 17, 0⟩
/-- KERF.STATUS.LASTERR, RC. -/
def kerf_STATUS_LASTERR : Fld := ⟨.kerf_STATUS, 13, 8⟩
/-- KERF.STATUS.COEFERR, W1C. -/
def kerf_STATUS_COEFERR : Fld := ⟨.kerf_STATUS, 7, 7⟩
/-- KERF.STATUS.COEFBANK, RO. -/
def kerf_STATUS_COEFBANK : Fld := ⟨.kerf_STATUS, 6, 6⟩
/-- KERF.STATUS.COEFSET, RO. -/
def kerf_STATUS_COEFSET : Fld := ⟨.kerf_STATUS, 5, 2⟩
/-- KERF.LANEUSE.CHANNEL, RO. -/
def kerf_LANEUSE_CHANNEL : Fld := ⟨.kerf_LANEUSE, 29, 15⟩
/-- KERF.LANEUSE.RING, RO. -/
def kerf_LANEUSE_RING : Fld := ⟨.kerf_LANEUSE, 14, 0⟩
/-- KERF.XUSE.EXTRA, RO. -/
def kerf_XUSE_EXTRA : Fld := ⟨.kerf_XUSE, 13, 0⟩
/-- KERF.RINGUNCORR.EVENTS, RC. -/
def kerf_RINGUNCORR_EVENTS : Fld := ⟨.kerf_RINGUNCORR, 35, 0⟩
/-- KERF.COEFADDR.BANK, RW. -/
def kerf_COEFADDR_BANK : Fld := ⟨.kerf_COEFADDR, 17, 17⟩
/-- KERF.COEFADDR.SET, RW. -/
def kerf_COEFADDR_SET : Fld := ⟨.kerf_COEFADDR, 16, 13⟩
/-- KERF.COEFADDR.INDEX, RW. -/
def kerf_COEFADDR_INDEX : Fld := ⟨.kerf_COEFADDR, 11, 0⟩
/-- KERF.COEFDATA.COEF, RW. -/
def kerf_COEFDATA_COEF : Fld := ⟨.kerf_COEFDATA, 23, 0⟩
/-- KERF.SETHDR[b][s].LAT, RW. -/
def kerf_SETHDR_LAT : Fld := ⟨.kerf_SETHDR, 25, 14⟩
/-- KERF.SETHDR[b][s].M, RW. -/
def kerf_SETHDR_M : Fld := ⟨.kerf_SETHDR, 13, 7⟩
/-- KERF.SETHDR[b][s].N, RW. -/
def kerf_SETHDR_N : Fld := ⟨.kerf_SETHDR, 6, 0⟩
/-- KERF.GANG[g].SET, RWI. -/
def kerf_GANG_SET : Fld := ⟨.kerf_GANG, 35, 32⟩
/-- KERF.GANG[g].ACTBANK, RO. -/
def kerf_GANG_ACTBANK : Fld := ⟨.kerf_GANG, 31, 31⟩
/-- KERF.GANG[g].SWAP, WO. -/
def kerf_GANG_SWAP : Fld := ⟨.kerf_GANG, 30, 30⟩
/-- KERF.GANG[g].PENDING, RO. -/
def kerf_GANG_PENDING : Fld := ⟨.kerf_GANG, 29, 29⟩
/-- KERF.GANG[g].MEMBERS, RO. -/
def kerf_GANG_MEMBERS : Fld := ⟨.kerf_GANG, 28, 14⟩
/-- KERF.GANG[g].INRATE, RO. -/
def kerf_GANG_INRATE : Fld := ⟨.kerf_GANG, 13, 11⟩
/-- KERF.GANG[g].OUTRATE, RO. -/
def kerf_GANG_OUTRATE : Fld := ⟨.kerf_GANG, 10, 9⟩
/-- KERF.LCFG[l].GANG, RWI. -/
def kerf_LCFG_GANG : Fld := ⟨.kerf_LCFG, 35, 22⟩
/-- KERF.LCFG[l].DCK, RW. -/
def kerf_LCFG_DCK : Fld := ⟨.kerf_LCFG, 21, 17⟩
/-- KERF.LCFG[l].DCFRZ, RW. -/
def kerf_LCFG_DCFRZ : Fld := ⟨.kerf_LCFG, 16, 16⟩
/-- KERF.LCFG[l].DSW, RW. -/
def kerf_LCFG_DSW : Fld := ⟨.kerf_LCFG, 15, 14⟩
/-- KERF.LCFG[l].THR, RW. -/
def kerf_LCFG_THR : Fld := ⟨.kerf_LCFG, 13, 0⟩
/-- KERF.LRATE[l].OWNER, RO. -/
def kerf_LRATE_OWNER : Fld := ⟨.kerf_LRATE, 35, 34⟩
/-- KERF.LRATE[l].EN, RW. -/
def kerf_LRATE_EN : Fld := ⟨.kerf_LRATE, 33, 33⟩
/-- KERF.LRATE[l].INRATE, RWI. -/
def kerf_LRATE_INRATE : Fld := ⟨.kerf_LRATE, 32, 30⟩
/-- KERF.LRATE[l].OUTRATE, RWI. -/
def kerf_LRATE_OUTRATE : Fld := ⟨.kerf_LRATE, 29, 28⟩
/-- KERF.LRATE[l].ISZ, RWI. -/
def kerf_LRATE_ISZ : Fld := ⟨.kerf_LRATE, 27, 24⟩
/-- KERF.LRATE[l].OSZ, RWI. -/
def kerf_LRATE_OSZ : Fld := ⟨.kerf_LRATE, 23, 20⟩
/-- KERF.LRATE[l].SPIKES, RC. -/
def kerf_LRATE_SPIKES : Fld := ⟨.kerf_LRATE, 19, 0⟩
/-- KERF.LIBASE[l].IBASE, RWI. -/
def kerf_LIBASE_IBASE : Fld := ⟨.kerf_LIBASE, 33, 0⟩
/-- KERF.LOBASE[l].OBASE, RWI. -/
def kerf_LOBASE_OBASE : Fld := ⟨.kerf_LOBASE, 33, 0⟩
/-- BALER.CAPDROPS.FRAMES, RC. -/
def baler_CAPDROPS_FRAMES : Fld := ⟨.baler_CAPDROPS, 35, 0⟩
/-- BALER.UNCORR.JOBS, RC. -/
def baler_UNCORR_JOBS : Fld := ⟨.baler_UNCORR, 35, 0⟩
/-- BALER.SUBW[w].WORD, RW. -/
def baler_SUBW_WORD : Fld := ⟨.baler_SUBW, 35, 0⟩
/-- BALER.SUBMIT.UNIT, WO. -/
def baler_SUBMIT_UNIT : Fld := ⟨.baler_SUBMIT, 1, 0⟩
/-- BALER.SUBSTAT.LASTERR, RC. -/
def baler_SUBSTAT_LASTERR : Fld := ⟨.baler_SUBSTAT, 13, 8⟩
/-- BALER.U[u].CTRL.EN, RW. -/
def baler_U_CTRL_EN : Fld := ⟨.baler_U_CTRL, 0, 0⟩
/-- BALER.U[u].OCC.STAGE, RO. -/
def baler_U_OCC_STAGE : Fld := ⟨.baler_U_OCC, 34, 18⟩
/-- BALER.U[u].OCC.SHARED, RO. -/
def baler_U_OCC_SHARED : Fld := ⟨.baler_U_OCC, 17, 8⟩
/-- BALER.U[u].OCC.RSVD, RO. -/
def baler_U_OCC_RSVD : Fld := ⟨.baler_U_OCC, 7, 0⟩
/-- BALER.U[u].JOBS.COUNT, RC. -/
def baler_U_JOBS_COUNT : Fld := ⟨.baler_U_JOBS, 35, 0⟩
/-- BALER.U[u].QUANT.BLOCKS, RC. -/
def baler_U_QUANT_BLOCKS : Fld := ⟨.baler_U_QUANT, 35, 0⟩
/-- BALER.U[u].VERIFY.JOBS, RC. -/
def baler_U_VERIFY_JOBS : Fld := ⟨.baler_U_VERIFY, 35, 0⟩
/-- BALER.U[u].NOFIT.JOBS, RC. -/
def baler_U_NOFIT_JOBS : Fld := ⟨.baler_U_NOFIT, 35, 0⟩
/-- LANDING.SQBASE.BASE, WO. -/
def landing_SQBASE_BASE : Fld := ⟨.landing_SQBASE, 33, 0⟩
/-- LANDING.SQSIZE.ENTRIES, WO. -/
def landing_SQSIZE_ENTRIES : Fld := ⟨.landing_SQSIZE, 12, 0⟩
/-- LANDING.SQTAIL.TAIL, WO. -/
def landing_SQTAIL_TAIL : Fld := ⟨.landing_SQTAIL, 12, 0⟩
/-- CHUTE.POOLUSE.ENTRIES, RO. -/
def chute_POOLUSE_ENTRIES : Fld := ⟨.chute_POOLUSE, 20, 0⟩
/-- CHUTE.REQSTAT.LASTERR, RC. -/
def chute_REQSTAT_LASTERR : Fld := ⟨.chute_REQSTAT, 35, 30⟩
/-- CHUTE.REQSTAT.E, RO. -/
def chute_REQSTAT_E : Fld := ⟨.chute_REQSTAT, 19, 19⟩
/-- CHUTE.REQSTAT.T, RO. -/
def chute_REQSTAT_T : Fld := ⟨.chute_REQSTAT, 18, 18⟩
/-- CHUTE.REQSTAT.P, RO. -/
def chute_REQSTAT_P : Fld := ⟨.chute_REQSTAT, 17, 17⟩
/-- CHUTE.REQSTAT.DISCARDED, RO. -/
def chute_REQSTAT_DISCARDED : Fld := ⟨.chute_REQSTAT, 16, 0⟩
/-- CHUTE.DROPREST.CHUTE, WO. -/
def chute_DROPREST_CHUTE : Fld := ⟨.chute_DROPREST, 10, 0⟩
/-- CHUTE.C[n].CFG.FORCE, WO. -/
def chute_C_CFG_FORCE : Fld := ⟨.chute_C_CFG, 35, 35⟩
/-- CHUTE.C[n].CFG.PENDING, RO. -/
def chute_C_CFG_PENDING : Fld := ⟨.chute_C_CFG, 34, 34⟩
/-- CHUTE.C[n].CFG.LEN, RW. -/
def chute_C_CFG_LEN : Fld := ⟨.chute_C_CFG, 33, 30⟩
/-- CHUTE.C[n].CFG.MODE, RW. -/
def chute_C_CFG_MODE : Fld := ⟨.chute_C_CFG, 29, 29⟩
/-- CHUTE.C[n].CFG.DOMAIN, RW. -/
def chute_C_CFG_DOMAIN : Fld := ⟨.chute_C_CFG, 28, 28⟩
/-- CHUTE.C[n].CFG.BASE, RW. -/
def chute_C_CFG_BASE : Fld := ⟨.chute_C_CFG, 27, 12⟩
/-- CHUTE.C[n].COUNT.COUNT, RO. -/
def chute_C_COUNT_COUNT : Fld := ⟨.chute_C_COUNT, 16, 0⟩
/-- CHUTE.C[n].PKTS.PACKETS, RO. -/
def chute_C_PKTS_PACKETS : Fld := ⟨.chute_C_PKTS, 16, 0⟩
/-- CHUTE.C[n].PTRS.WR, RO. -/
def chute_C_PTRS_WR : Fld := ⟨.chute_C_PTRS, 33, 17⟩
/-- CHUTE.C[n].PTRS.RD, RO. -/
def chute_C_PTRS_RD : Fld := ⟨.chute_C_PTRS, 16, 0⟩
/-- CHUTE.C[n].DROPS.WORDS, RC. -/
def chute_C_DROPS_WORDS : Fld := ⟨.chute_C_DROPS, 35, 0⟩
/-- CHUTE.C[n].PUSH.WORD, WO. -/
def chute_C_PUSH_WORD : Fld := ⟨.chute_C_PUSH, 35, 0⟩
/-- CHUTE.C[n].PUSHEND.WORD, WO. -/
def chute_C_PUSHEND_WORD : Fld := ⟨.chute_C_PUSHEND, 35, 0⟩
/-- CHUTE.C[n].POP.WORD, RO. -/
def chute_C_POP_WORD : Fld := ⟨.chute_C_POP, 35, 0⟩
/-- FLUME.FTBASE.BASE, RWB. -/
def flume_FTBASE_BASE : Fld := ⟨.flume_FTBASE, 33, 0⟩
/-- FLUME.FTSIZE.K, RWB. -/
def flume_FTSIZE_K : Fld := ⟨.flume_FTSIZE, 4, 0⟩
/-- FLUME.HSEED[w].SEED, RWB. -/
def flume_HSEED_SEED : Fld := ⟨.flume_HSEED, 31, 0⟩
/-- FLUME.FTCOUNT.ENTRIES, RO. -/
def flume_FTCOUNT_ENTRIES : Fld := ⟨.flume_FTCOUNT, 24, 0⟩
/-- FLUME.GCNT[k].COUNT, RC. -/
def flume_GCNT_COUNT : Fld := ⟨.flume_GCNT, 35, 0⟩
/-- FLUME.BUFFREE.CELLS, RO. -/
def flume_BUFFREE_CELLS : Fld := ⟨.flume_BUFFREE, 18, 0⟩
/-- FLUME.FCMD.OP, RWI. -/
def flume_FCMD_OP : Fld := ⟨.flume_FCMD, 35, 32⟩
/-- FLUME.FCMD.INDEX, RWI. -/
def flume_FCMD_INDEX : Fld := ⟨.flume_FCMD, 15, 0⟩
/-- FLUME.FCMDSTAT.BUSY, RO. -/
def flume_FCMDSTAT_BUSY : Fld := ⟨.flume_FCMDSTAT, 35, 35⟩
/-- FLUME.FCMDSTAT.STATUS, RO. -/
def flume_FCMDSTAT_STATUS : Fld := ⟨.flume_FCMDSTAT, 34, 29⟩
/-- FLUME.FCMDSTAT.LASTERR, RC. -/
def flume_FCMDSTAT_LASTERR : Fld := ⟨.flume_FCMDSTAT, 28, 23⟩
/-- FLUME.FCMDSTAT.MOVES, RO. -/
def flume_FCMDSTAT_MOVES : Fld := ⟨.flume_FCMDSTAT, 6, 0⟩
/-- FLUME.FSTAGE[w].WORD, RW. -/
def flume_FSTAGE_WORD : Fld := ⟨.flume_FSTAGE, 35, 0⟩
/-- FLUME.FREAD[w].WORD, RO. -/
def flume_FREAD_WORD : Fld := ⟨.flume_FREAD, 35, 0⟩
/-- FLUME.V6STAGE[w].ADDR, RW. -/
def flume_V6STAGE_ADDR : Fld := ⟨.flume_V6STAGE, 31, 0⟩
/-- FLUME.PORT[p].KEYSEL.L2ONLY, RW. -/
def flume_PORT_KEYSEL_L2ONLY : Fld := ⟨.flume_PORT_KEYSEL, 4, 4⟩
/-- FLUME.PORT[p].KEYSEL.SSRC, RW. -/
def flume_PORT_KEYSEL_SSRC : Fld := ⟨.flume_PORT_KEYSEL, 3, 3⟩
/-- FLUME.PORT[p].KEYSEL.SRC, RW. -/
def flume_PORT_KEYSEL_SRC : Fld := ⟨.flume_PORT_KEYSEL, 2, 2⟩
/-- FLUME.PORT[p].KEYSEL.VLAN, RW. -/
def flume_PORT_KEYSEL_VLAN : Fld := ⟨.flume_PORT_KEYSEL, 1, 1⟩
/-- FLUME.PORT[p].KEYSEL.INPORT, RW. -/
def flume_PORT_KEYSEL_INPORT : Fld := ⟨.flume_PORT_KEYSEL, 0, 0⟩
/-- FLUME.PORT[p].MISS.ACTION, RW. -/
def flume_PORT_MISS_ACTION : Fld := ⟨.flume_PORT_MISS, 35, 33⟩
/-- FLUME.PORT[p].MISS.SERVICE, RW. -/
def flume_PORT_MISS_SERVICE : Fld := ⟨.flume_PORT_MISS, 32, 18⟩
/-- FLUME.PORT[p].MISS.QUEUE, RW. -/
def flume_PORT_MISS_QUEUE : Fld := ⟨.flume_PORT_MISS, 17, 16⟩
/-- FLUME.PORT[p].MISS.RING, RW. -/
def flume_PORT_MISS_RING : Fld := ⟨.flume_PORT_MISS, 4, 1⟩
/-- FLUME.PORT[p].CUT.STORE, RW. -/
def flume_PORT_CUT_STORE : Fld := ⟨.flume_PORT_CUT, 35, 35⟩
/-- FLUME.PORT[p].CUT.SFEFF, RO. -/
def flume_PORT_CUT_SFEFF : Fld := ⟨.flume_PORT_CUT, 34, 34⟩
/-- FLUME.PORT[p].CUT.CTEFF, RO. -/
def flume_PORT_CUT_CTEFF : Fld := ⟨.flume_PORT_CUT, 19, 10⟩
/-- FLUME.PORT[p].CUT.CTSTART, RW. -/
def flume_PORT_CUT_CTSTART : Fld := ⟨.flume_PORT_CUT, 7, 0⟩
/-- FLUME.PORT[p].CNT[k].COUNT, RC. -/
def flume_PORT_CNT_COUNT : Fld := ⟨.flume_PORT_CNT, 35, 0⟩
/-- FLUME.PORT[p].GCTRL.CHANGE, WO. -/
def flume_PORT_GCTRL_CHANGE : Fld := ⟨.flume_PORT_GCTRL, 35, 35⟩
/-- FLUME.PORT[p].GCTRL.ABORT, WO. -/
def flume_PORT_GCTRL_ABORT : Fld := ⟨.flume_PORT_GCTRL, 34, 34⟩
/-- FLUME.PORT[p].GCTRL.PENDING, RO. -/
def flume_PORT_GCTRL_PENDING : Fld := ⟨.flume_PORT_GCTRL, 33, 33⟩
/-- FLUME.PORT[p].GCTRL.DEFGATES, RW. -/
def flume_PORT_GCTRL_DEFGATES : Fld := ⟨.flume_PORT_GCTRL, 32, 25⟩
/-- FLUME.PORT[p].GCTRL.OPERLEN, RO. -/
def flume_PORT_GCTRL_OPERLEN : Fld := ⟨.flume_PORT_GCTRL, 21, 11⟩
/-- FLUME.PORT[p].GCTRL.ADMINLEN, RW. -/
def flume_PORT_GCTRL_ADMINLEN : Fld := ⟨.flume_PORT_GCTRL, 10, 0⟩
/-- FLUME.PORT[p].GT0.BASESEC, RW. -/
def flume_PORT_GT0_BASESEC : Fld := ⟨.flume_PORT_GT0, 35, 0⟩
/-- FLUME.PORT[p].GT1.BASESECHI, RW. -/
def flume_PORT_GT1_BASESECHI : Fld := ⟨.flume_PORT_GT1, 11, 0⟩
/-- FLUME.PORT[p].GT2.BASENS, RW. -/
def flume_PORT_GT2_BASENS : Fld := ⟨.flume_PORT_GT2, 29, 0⟩
/-- FLUME.PORT[p].GT3.CYCLE, RW. -/
def flume_PORT_GT3_CYCLE : Fld := ⟨.flume_PORT_GT3, 29, 0⟩
/-- FLUME.PORT[p].GT4.STARTSEC, RO. -/
def flume_PORT_GT4_STARTSEC : Fld := ⟨.flume_PORT_GT4, 35, 0⟩
/-- FLUME.PORT[p].GT5.STARTSECHI, RO. -/
def flume_PORT_GT5_STARTSECHI : Fld := ⟨.flume_PORT_GT5, 11, 0⟩
/-- FLUME.PORT[p].GT6.STARTNS, RO. -/
def flume_PORT_GT6_STARTNS : Fld := ⟨.flume_PORT_GT6, 29, 0⟩
/-- FLUME.PORT[p].GT7.OPERCYCLE, RO. -/
def flume_PORT_GT7_OPERCYCLE : Fld := ⟨.flume_PORT_GT7, 29, 0⟩
/-- FLUME.QLATE[j].POL, RW. -/
def flume_QLATE_POL : Fld := ⟨.flume_QLATE, 31, 0⟩
/-- FLUME.GCL[p].ADMIN[e].GATES, RW. -/
def flume_GCL_ADMIN_GATES : Fld := ⟨.flume_GCL_ADMIN, 35, 28⟩
/-- FLUME.GCL[p].ADMIN[e].INTERVAL, RW. -/
def flume_GCL_ADMIN_INTERVAL : Fld := ⟨.flume_GCL_ADMIN, 27, 0⟩
/-- FLUME.GCL[p].OPER[e].GATES, RO. -/
def flume_GCL_OPER_GATES : Fld := ⟨.flume_GCL_OPER, 35, 28⟩
/-- FLUME.GCL[p].OPER[e].INTERVAL, RO. -/
def flume_GCL_OPER_INTERVAL : Fld := ⟨.flume_GCL_OPER, 27, 0⟩
/-- BOOM.REQSTAT.LASTERR, RC. -/
def boom_REQSTAT_LASTERR : Fld := ⟨.boom_REQSTAT, 35, 30⟩
/-- BOOM.PORT[p].SHAPER.FILL, WO. -/
def boom_PORT_SHAPER_FILL : Fld := ⟨.boom_PORT_SHAPER, 35, 35⟩
/-- BOOM.PORT[p].SHAPER.BCODE, RW. -/
def boom_PORT_SHAPER_BCODE : Fld := ⟨.boom_PORT_SHAPER, 34, 30⟩
/-- BOOM.PORT[p].SHAPER.RATE, RW. -/
def boom_PORT_SHAPER_RATE : Fld := ⟨.boom_PORT_SHAPER, 28, 0⟩
/-- BOOM.TEN[t].CFG.EN, RW. -/
def boom_TEN_CFG_EN : Fld := ⟨.boom_TEN_CFG, 35, 35⟩
/-- BOOM.TEN[t].CFG.DRAINED, RO. -/
def boom_TEN_CFG_DRAINED : Fld := ⟨.boom_TEN_CFG, 34, 34⟩
/-- BOOM.TEN[t].CFG.PORT, RWI. -/
def boom_TEN_CFG_PORT : Fld := ⟨.boom_TEN_CFG, 33, 27⟩
/-- BOOM.TEN[t].CFG.WEIGHT, RW. -/
def boom_TEN_CFG_WEIGHT : Fld := ⟨.boom_TEN_CFG, 26, 19⟩
/-- BOOM.TEN[t].SHAPER.FILL, WO. -/
def boom_TEN_SHAPER_FILL : Fld := ⟨.boom_TEN_SHAPER, 35, 35⟩
/-- BOOM.TEN[t].SHAPER.BCODE, RW. -/
def boom_TEN_SHAPER_BCODE : Fld := ⟨.boom_TEN_SHAPER, 34, 30⟩
/-- BOOM.TEN[t].SHAPER.RATE, RW. -/
def boom_TEN_SHAPER_RATE : Fld := ⟨.boom_TEN_SHAPER, 28, 0⟩
/-- BOOM.TEN[t].BQUOTA.KBPS, RW. -/
def boom_TEN_BQUOTA_KBPS : Fld := ⟨.boom_TEN_BQUOTA, 28, 0⟩
/-- BOOM.SVC[s].CFG.EN, RW. -/
def boom_SVC_CFG_EN : Fld := ⟨.boom_SVC_CFG, 35, 35⟩
/-- BOOM.SVC[s].CFG.DRAINED, RO. -/
def boom_SVC_CFG_DRAINED : Fld := ⟨.boom_SVC_CFG, 34, 34⟩
/-- BOOM.SVC[s].CFG.TENANT, RWI. -/
def boom_SVC_CFG_TENANT : Fld := ⟨.boom_SVC_CFG, 33, 22⟩
/-- BOOM.SVC[s].CFG.WEIGHT, RW. -/
def boom_SVC_CFG_WEIGHT : Fld := ⟨.boom_SVC_CFG, 21, 14⟩
/-- BOOM.SVC[s].SHAPER.FILL, WO. -/
def boom_SVC_SHAPER_FILL : Fld := ⟨.boom_SVC_SHAPER, 35, 35⟩
/-- BOOM.SVC[s].SHAPER.BCODE, RW. -/
def boom_SVC_SHAPER_BCODE : Fld := ⟨.boom_SVC_SHAPER, 34, 30⟩
/-- BOOM.SVC[s].SHAPER.RATE, RW. -/
def boom_SVC_SHAPER_RATE : Fld := ⟨.boom_SVC_SHAPER, 28, 0⟩
/-- BOOM.POL[i].CFG.FILL, WO. -/
def boom_POL_CFG_FILL : Fld := ⟨.boom_POL_CFG, 35, 35⟩
/-- BOOM.POL[i].CFG.BCODE, RW. -/
def boom_POL_CFG_BCODE : Fld := ⟨.boom_POL_CFG, 34, 30⟩
/-- BOOM.POL[i].CFG.RATE, RW. -/
def boom_POL_CFG_RATE : Fld := ⟨.boom_POL_CFG, 28, 0⟩
/-- BOOM.POL[i].DROPS.FRAMES, RC. -/
def boom_POL_DROPS_FRAMES : Fld := ⟨.boom_POL_DROPS, 35, 0⟩
/-- BOOM.Q[q].CFG.CLASS, RW. -/
def boom_Q_CFG_CLASS : Fld := ⟨.boom_Q_CFG, 35, 33⟩
/-- BOOM.Q[q].CFG.LIMIT, RW. -/
def boom_Q_CFG_LIMIT : Fld := ⟨.boom_Q_CFG, 18, 0⟩
/-- BOOM.Q[q].STAT.OCC, RO. -/
def boom_Q_STAT_OCC : Fld := ⟨.boom_Q_STAT, 35, 17⟩
/-- BOOM.Q[q].STAT.TAILDROPS, RC. -/
def boom_Q_STAT_TAILDROPS : Fld := ⟨.boom_Q_STAT, 16, 0⟩
/-- MAC.CFG.EN, RW. -/
def mac_CFG_EN : Fld := ⟨.mac_CFG, 35, 35⟩
/-- MAC.CFG.MODE, RWI. -/
def mac_CFG_MODE : Fld := ⟨.mac_CFG, 34, 31⟩
/-- MAC.CFG.MAXLEN, RWI. -/
def mac_CFG_MAXLEN : Fld := ⟨.mac_CFG, 30, 16⟩
/-- MAC.REQSTAT.LASTERR, RC. -/
def mac_REQSTAT_LASTERR : Fld := ⟨.mac_REQSTAT, 35, 30⟩
/-- MAC.FILT.ALLGROUP, RW. -/
def mac_FILT_ALLGROUP : Fld := ⟨.mac_FILT, 2, 2⟩
/-- MAC.FILT.BCAST, RW. -/
def mac_FILT_BCAST : Fld := ⟨.mac_FILT, 1, 1⟩
/-- MAC.FILT.LINKLOCAL, RW. -/
def mac_FILT_LINKLOCAL : Fld := ⟨.mac_FILT, 0, 0⟩
/-- MAC.LINK.HIBER, RO. -/
def mac_LINK_HIBER : Fld := ⟨.mac_LINK, 14, 14⟩
/-- MAC.LINK.LOCK, RO. -/
def mac_LINK_LOCK : Fld := ⟨.mac_LINK, 13, 6⟩
/-- MAC.LINK.RFAULT, RO. -/
def mac_LINK_RFAULT : Fld := ⟨.mac_LINK, 5, 5⟩
/-- MAC.LINK.LFAULT, RO. -/
def mac_LINK_LFAULT : Fld := ⟨.mac_LINK, 4, 4⟩
/-- MAC.LINK.STATE, RO. -/
def mac_LINK_STATE : Fld := ⟨.mac_LINK, 3, 0⟩
/-- MAC.EVENT.VERIFYFAIL, W1C. -/
def mac_EVENT_VERIFYFAIL : Fld := ⟨.mac_EVENT, 4, 4⟩
/-- MAC.EVENT.VERIFYOK, W1C. -/
def mac_EVENT_VERIFYOK : Fld := ⟨.mac_EVENT, 3, 3⟩
/-- MAC.EVENT.FAULT, W1C. -/
def mac_EVENT_FAULT : Fld := ⟨.mac_EVENT, 2, 2⟩
/-- MAC.EVENT.LINKDOWN, W1C. -/
def mac_EVENT_LINKDOWN : Fld := ⟨.mac_EVENT, 1, 1⟩
/-- MAC.EVENT.LINKUP, W1C. -/
def mac_EVENT_LINKUP : Fld := ⟨.mac_EVENT, 0, 0⟩
/-- MAC.EVENTEN.EN, RW. -/
def mac_EVENTEN_EN : Fld := ⟨.mac_EVENTEN, 4, 0⟩
/-- MAC.PREEMPT.EN, RW. -/
def mac_PREEMPT_EN : Fld := ⟨.mac_PREEMPT, 35, 35⟩
/-- MAC.PREEMPT.VSTATE, RO. -/
def mac_PREEMPT_VSTATE : Fld := ⟨.mac_PREEMPT, 34, 32⟩
/-- MAC.PREEMPT.ADDFRAG, RW. -/
def mac_PREEMPT_ADDFRAG : Fld := ⟨.mac_PREEMPT, 31, 30⟩
/-- MAC.PREEMPT.VERIFYMS, RW. -/
def mac_PREEMPT_VERIFYMS : Fld := ⟨.mac_PREEMPT, 29, 23⟩
/-- MAC.PREEMPT.PMASK, RW. -/
def mac_PREEMPT_PMASK : Fld := ⟨.mac_PREEMPT, 22, 15⟩
/-- MAC.CTADAPT.CLR, WO. -/
def mac_CTADAPT_CLR : Fld := ⟨.mac_CTADAPT, 35, 35⟩
/-- MAC.CTADAPT.UINC, RO. -/
def mac_CTADAPT_UINC : Fld := ⟨.mac_CTADAPT, 29, 21⟩
/-- MAC.CTADAPT.CLEAN, RO. -/
def mac_CTADAPT_CLEAN : Fld := ⟨.mac_CTADAPT, 20, 0⟩
/-- MAC.TSLAT.RXLAT, RO. -/
def mac_TSLAT_RXLAT : Fld := ⟨.mac_TSLAT, 35, 18⟩
/-- MAC.TSLAT.TXLAT, RO. -/
def mac_TSLAT_TXLAT : Fld := ⟨.mac_TSLAT, 17, 0⟩
/-- MAC.HALF0.K, W1C. -/
def mac_HALF0_K : Fld := ⟨.mac_HALF0, 35, 0⟩
/-- MAC.HALF1.K, W1C. -/
def mac_HALF1_K : Fld := ⟨.mac_HALF1, 11, 0⟩
/-- MAC.LANECFG.TXINV, RW. -/
def mac_LANECFG_TXINV : Fld := ⟨.mac_LANECFG, 35, 35⟩
/-- MAC.LANECFG.RXINV, RW. -/
def mac_LANECFG_RXINV : Fld := ⟨.mac_LANECFG, 34, 34⟩
/-- MAC.LANECFG.PRE, RW. -/
def mac_LANECFG_PRE : Fld := ⟨.mac_LANECFG, 33, 28⟩
/-- MAC.LANECFG.MAIN, RW. -/
def mac_LANECFG_MAIN : Fld := ⟨.mac_LANECFG, 27, 21⟩
/-- MAC.LANECFG.POST, RW. -/
def mac_LANECFG_POST : Fld := ⟨.mac_LANECFG, 20, 15⟩
/-- MAC.LANECFG.CDR, RO. -/
def mac_LANECFG_CDR : Fld := ⟨.mac_LANECFG, 14, 14⟩
/-- MAC.LANECFG.PWR, RO. -/
def mac_LANECFG_PWR : Fld := ⟨.mac_LANECFG, 13, 13⟩
/-- MAC.STAT[k].COUNT, RO. -/
def mac_STAT_COUNT : Fld := ⟨.mac_STAT, 35, 0⟩
/-- MAC.GHASH[i].BITS, RW. -/
def mac_GHASH_BITS : Fld := ⟨.mac_GHASH, 31, 0⟩
/-- HEDGE.SEG[n].CFG.EN, RW. -/
def hedge_SEG_CFG_EN : Fld := ⟨.hedge_SEG_CFG, 35, 35⟩
/-- HEDGE.SEG[n].CFG.RECALL, WO. -/
def hedge_SEG_CFG_RECALL : Fld := ⟨.hedge_SEG_CFG, 34, 34⟩
/-- HEDGE.SEG[n].CFG.BU, RW. -/
def hedge_SEG_CFG_BU : Fld := ⟨.hedge_SEG_CFG, 33, 32⟩
/-- HEDGE.SEG[n].CFG.BOUND, RW. -/
def hedge_SEG_CFG_BOUND : Fld := ⟨.hedge_SEG_CFG, 31, 28⟩
/-- HEDGE.SEG[n].CFG.CTLRX, RW. -/
def hedge_SEG_CFG_CTLRX : Fld := ⟨.hedge_SEG_CFG, 27, 17⟩
/-- HEDGE.SEG[n].CFG.CTLTX, RW. -/
def hedge_SEG_CFG_CTLTX : Fld := ⟨.hedge_SEG_CFG, 16, 6⟩
/-- HEDGE.SEG[n].ALLOW.ADDR, RW. -/
def hedge_SEG_ALLOW_ADDR : Fld := ⟨.hedge_SEG_ALLOW, 31, 1⟩
/-- HEDGE.SEG[n].STAT.STATE, RO. -/
def hedge_SEG_STAT_STATE : Fld := ⟨.hedge_SEG_STAT, 35, 34⟩
/-- HEDGE.SEG[n].STAT.UNITS, RO. -/
def hedge_SEG_STAT_UNITS : Fld := ⟨.hedge_SEG_STAT, 33, 29⟩
/-- HEDGE.SEG[n].STAT.ADMITTED, RO. -/
def hedge_SEG_STAT_ADMITTED : Fld := ⟨.hedge_SEG_STAT, 28, 25⟩
/-- HEDGE.SEG[n].STAT.LASTERR, RC. -/
def hedge_SEG_STAT_LASTERR : Fld := ⟨.hedge_SEG_STAT, 24, 19⟩
/-- HEDGE.SEG[n].EVENT.NOTADM, W1C. -/
def hedge_SEG_EVENT_NOTADM : Fld := ⟨.hedge_SEG_EVENT, 3, 3⟩
/-- HEDGE.SEG[n].EVENT.CONFLICT, W1C. -/
def hedge_SEG_EVENT_CONFLICT : Fld := ⟨.hedge_SEG_EVENT, 2, 2⟩
/-- HEDGE.SEG[n].EVENT.NODELOST, W1C. -/
def hedge_SEG_EVENT_NODELOST : Fld := ⟨.hedge_SEG_EVENT, 1, 1⟩
/-- HEDGE.SEG[n].EVENT.NODEUP, W1C. -/
def hedge_SEG_EVENT_NODEUP : Fld := ⟨.hedge_SEG_EVENT, 0, 0⟩
/-- HEDGE.SEG[n].CNT[k].COUNT, RC. -/
def hedge_SEG_CNT_COUNT : Fld := ⟨.hedge_SEG_CNT, 35, 0⟩
/-- HEDGE.SEG[n].NODE[a].PRESENT, RO. -/
def hedge_SEG_NODE_PRESENT : Fld := ⟨.hedge_SEG_NODE, 35, 35⟩
/-- HEDGE.SEG[n].NODE[a].ADMITTED, RO. -/
def hedge_SEG_NODE_ADMITTED : Fld := ⟨.hedge_SEG_NODE, 34, 34⟩
/-- HEDGE.SEG[n].NODE[a].CONFLICT, RO. -/
def hedge_SEG_NODE_CONFLICT : Fld := ⟨.hedge_SEG_NODE, 33, 33⟩
/-- HEDGE.SEG[n].NODE[a].LOST, RO. -/
def hedge_SEG_NODE_LOST : Fld := ⟨.hedge_SEG_NODE, 32, 32⟩
/-- HEDGE.SEG[n].NODE[a].NUP, RO. -/
def hedge_SEG_NODE_NUP : Fld := ⟨.hedge_SEG_NODE, 31, 27⟩
/-- HEDGE.SEG[n].NODE[a].UP48, RO. -/
def hedge_SEG_NODE_UP48 : Fld := ⟨.hedge_SEG_NODE, 26, 3⟩
/-- HEDGE.SEG[n].DOWN[i].EN, RW. -/
def hedge_SEG_DOWN_EN : Fld := ⟨.hedge_SEG_DOWN, 35, 35⟩
/-- HEDGE.SEG[n].DOWN[i].NODE, RWI. -/
def hedge_SEG_DOWN_NODE : Fld := ⟨.hedge_SEG_DOWN, 34, 30⟩
/-- HEDGE.SEG[n].DOWN[i].INDEX, RWI. -/
def hedge_SEG_DOWN_INDEX : Fld := ⟨.hedge_SEG_DOWN, 29, 25⟩
/-- HEDGE.SEG[n].DOWN[i].RATE, RWI. -/
def hedge_SEG_DOWN_RATE : Fld := ⟨.hedge_SEG_DOWN, 24, 24⟩
/-- HEDGE.SEG[n].DOWN[i].BUS, RWI. -/
def hedge_SEG_DOWN_BUS : Fld := ⟨.hedge_SEG_DOWN, 23, 12⟩
/-- HEDGE.MDIO.GO, WO. -/
def hedge_MDIO_GO : Fld := ⟨.hedge_MDIO, 35, 35⟩
/-- HEDGE.MDIO.BUSY, RO. -/
def hedge_MDIO_BUSY : Fld := ⟨.hedge_MDIO, 34, 34⟩
/-- HEDGE.MDIO.OP, RW. -/
def hedge_MDIO_OP : Fld := ⟨.hedge_MDIO, 33, 32⟩
/-- HEDGE.MDIO.PHYAD, RW. -/
def hedge_MDIO_PHYAD : Fld := ⟨.hedge_MDIO, 31, 27⟩
/-- HEDGE.MDIO.REGAD, RW. -/
def hedge_MDIO_REGAD : Fld := ⟨.hedge_MDIO, 26, 22⟩
/-- HEDGE.MDIO.DATA, RW. -/
def hedge_MDIO_DATA : Fld := ⟨.hedge_MDIO, 15, 0⟩
/-- AUDIO_IO.TDM[u].CFG.EN, RW. -/
def audioio_TDM_CFG_EN : Fld := ⟨.audioio_TDM_CFG, 35, 35⟩
/-- AUDIO_IO.TDM[u].CFG.MASTER, RWI. -/
def audioio_TDM_CFG_MASTER : Fld := ⟨.audioio_TDM_CFG, 34, 34⟩
/-- AUDIO_IO.TDM[u].CFG.FMT, RWI. -/
def audioio_TDM_CFG_FMT : Fld := ⟨.audioio_TDM_CFG, 33, 32⟩
/-- AUDIO_IO.TDM[u].CFG.RATE96, RWI. -/
def audioio_TDM_CFG_RATE96 : Fld := ⟨.audioio_TDM_CFG, 31, 31⟩
/-- AUDIO_IO.TDM[u].CFG.SLOTS, RWI. -/
def audioio_TDM_CFG_SLOTS : Fld := ⟨.audioio_TDM_CFG, 30, 26⟩
/-- AUDIO_IO.TDM[u].CFG.WIDTH, RWI. -/
def audioio_TDM_CFG_WIDTH : Fld := ⟨.audioio_TDM_CFG, 25, 24⟩
/-- AUDIO_IO.TDM[u].CFG.FSINV, RWI. -/
def audioio_TDM_CFG_FSINV : Fld := ⟨.audioio_TDM_CFG, 23, 23⟩
/-- AUDIO_IO.TDM[u].CFG.BCLKINV, RWI. -/
def audioio_TDM_CFG_BCLKINV : Fld := ⟨.audioio_TDM_CFG, 22, 22⟩
/-- AUDIO_IO.TDM[u].CFG.PHASE, RWI. -/
def audioio_TDM_CFG_PHASE : Fld := ⟨.audioio_TDM_CFG, 21, 7⟩
/-- AUDIO_IO.TDM[u].STAT.LOCKED, RO. -/
def audioio_TDM_STAT_LOCKED : Fld := ⟨.audioio_TDM_STAT, 35, 35⟩
/-- AUDIO_IO.TDM[u].STAT.UNLOCKS, RC. -/
def audioio_TDM_STAT_UNLOCKS : Fld := ⟨.audioio_TDM_STAT, 34, 24⟩
/-- AUDIO_IO.TDM[u].STAT.PARITY, RC. -/
def audioio_TDM_STAT_PARITY : Fld := ⟨.audioio_TDM_STAT, 23, 12⟩
/-- AUDIO_IO.TDM[u].STAT.LATE, RC. -/
def audioio_TDM_STAT_LATE : Fld := ⟨.audioio_TDM_STAT, 11, 0⟩
/-- AUDIO_IO.TDM[u].OUT[s].EN, RW. -/
def audioio_TDM_OUT_EN : Fld := ⟨.audioio_TDM_OUT, 35, 35⟩
/-- AUDIO_IO.TDM[u].OUT[s].BUS, RWI. -/
def audioio_TDM_OUT_BUS : Fld := ⟨.audioio_TDM_OUT, 34, 23⟩
/-- AUDIO_IO.MADI[u].CFG.EN, RW. -/
def audioio_MADI_CFG_EN : Fld := ⟨.audioio_MADI_CFG, 35, 35⟩
/-- AUDIO_IO.MADI[u].CFG.CH56, RWI. -/
def audioio_MADI_CFG_CH56 : Fld := ⟨.audioio_MADI_CFG, 34, 34⟩
/-- AUDIO_IO.MADI[u].CFG.TXPHASE, RWI. -/
def audioio_MADI_CFG_TXPHASE : Fld := ⟨.audioio_MADI_CFG, 33, 19⟩
/-- AUDIO_IO.MADI[u].STAT.LOCKED, RO. -/
def audioio_MADI_STAT_LOCKED : Fld := ⟨.audioio_MADI_STAT, 35, 35⟩
/-- AUDIO_IO.MADI[u].STAT.UNLOCKS, RC. -/
def audioio_MADI_STAT_UNLOCKS : Fld := ⟨.audioio_MADI_STAT, 34, 24⟩
/-- AUDIO_IO.MADI[u].STAT.PARITY, RC. -/
def audioio_MADI_STAT_PARITY : Fld := ⟨.audioio_MADI_STAT, 23, 12⟩
/-- AUDIO_IO.MADI[u].STAT.LATE, RC. -/
def audioio_MADI_STAT_LATE : Fld := ⟨.audioio_MADI_STAT, 11, 0⟩
/-- AUDIO_IO.MADI[u].OUT[c].EN, RW. -/
def audioio_MADI_OUT_EN : Fld := ⟨.audioio_MADI_OUT, 35, 35⟩
/-- AUDIO_IO.MADI[u].OUT[c].BUS, RWI. -/
def audioio_MADI_OUT_BUS : Fld := ⟨.audioio_MADI_OUT, 34, 23⟩
/-- AUDIO_IO.GPIO[g].CFG.DIR, RW. -/
def audioio_GPIO_CFG_DIR : Fld := ⟨.audioio_GPIO_CFG, 35, 35⟩
/-- AUDIO_IO.GPIO[g].CFG.OD, RW. -/
def audioio_GPIO_CFG_OD : Fld := ⟨.audioio_GPIO_CFG, 34, 34⟩
/-- AUDIO_IO.GPIO[g].CFG.STAMP, RW. -/
def audioio_GPIO_CFG_STAMP : Fld := ⟨.audioio_GPIO_CFG, 33, 32⟩
/-- AUDIO_IO.GPIO[g].CFG.DEBOUNCE, RW. -/
def audioio_GPIO_CFG_DEBOUNCE : Fld := ⟨.audioio_GPIO_CFG, 31, 22⟩
/-- AUDIO_IO.GPIO.LEVEL.LEVEL, RO. -/
def audioio_GPIO_LEVEL_LEVEL : Fld := ⟨.audioio_GPIO_LEVEL, 31, 0⟩
/-- AUDIO_IO.GPIO.OUT.OUT, RW. -/
def audioio_GPIO_OUT_OUT : Fld := ⟨.audioio_GPIO_OUT, 31, 0⟩
/-- AUDIO_IO.GPIO.TSET.MT, RW. -/
def audioio_GPIO_TSET_MT : Fld := ⟨.audioio_GPIO_TSET, 35, 0⟩
/-- AUDIO_IO.GPIO.TGO.GO, WO. -/
def audioio_GPIO_TGO_GO : Fld := ⟨.audioio_GPIO_TGO, 35, 35⟩
/-- AUDIO_IO.GPIO.TGO.VALUE, WO. -/
def audioio_GPIO_TGO_VALUE : Fld := ⟨.audioio_GPIO_TGO, 5, 5⟩
/-- AUDIO_IO.GPIO.TGO.PIN, WO. -/
def audioio_GPIO_TGO_PIN : Fld := ⟨.audioio_GPIO_TGO, 4, 0⟩
/-- AUDIO_IO.REQSTAT.LASTERR, RC. -/
def audioio_REQSTAT_LASTERR : Fld := ⟨.audioio_REQSTAT, 35, 30⟩
/-- MC.CFG.CHANNELS, RWB. -/
def mc_CFG_CHANNELS : Fld := ⟨.mc_CFG, 35, 34⟩
/-- MC.CFG.DIMMS, RWB. -/
def mc_CFG_DIMMS : Fld := ⟨.mc_CFG, 33, 33⟩
/-- MC.CFG.RANKS, RWB. -/
def mc_CFG_RANKS : Fld := ⟨.mc_CFG, 32, 32⟩
/-- MC.CFG.DENSITY, RWB. -/
def mc_CFG_DENSITY : Fld := ⟨.mc_CFG, 31, 31⟩
/-- MC.STATUS.GIB, RO. -/
def mc_STATUS_GIB : Fld := ⟨.mc_STATUS, 35, 25⟩
/-- MC.STATUS.POINT, RO. -/
def mc_STATUS_POINT : Fld := ⟨.mc_STATUS, 24, 23⟩
/-- MC.STATUS.CHANGING, RO. -/
def mc_STATUS_CHANGING : Fld := ⟨.mc_STATUS, 22, 22⟩
/-- MC.STATUS.TRAINED, RO. -/
def mc_STATUS_TRAINED : Fld := ⟨.mc_STATUS, 15, 0⟩
/-- MC.REQSTAT.LASTERR, RC. -/
def mc_REQSTAT_LASTERR : Fld := ⟨.mc_REQSTAT, 35, 30⟩
/-- MC.FPREQ.POINT, RW. -/
def mc_FPREQ_POINT : Fld := ⟨.mc_FPREQ, 1, 0⟩
/-- MC.REFCFG.FAST, RW. -/
def mc_REFCFG_FAST : Fld := ⟨.mc_REFCFG, 0, 0⟩
/-- MC.ACTCFG.THRESH, RWB. -/
def mc_ACTCFG_THRESH : Fld := ⟨.mc_ACTCFG, 15, 0⟩
/-- MC.HOSTCFG.BANKMAX, RW. -/
def mc_HOSTCFG_BANKMAX : Fld := ⟨.mc_HOSTCFG, 11, 0⟩
/-- MC.SCRUB.EN, RW. -/
def mc_SCRUB_EN : Fld := ⟨.mc_SCRUB, 8, 8⟩
/-- MC.SCRUB.HOURS, RW. -/
def mc_SCRUB_HOURS : Fld := ⟨.mc_SCRUB, 7, 0⟩
/-- MC.CNT[k].COUNT, RC. -/
def mc_CNT_COUNT : Fld := ⟨.mc_CNT, 35, 0⟩
/-- MC.ELOGCNT.ENTRIES, RO. -/
def mc_ELOGCNT_ENTRIES : Fld := ⟨.mc_ELOGCNT, 6, 0⟩
/-- MC.ELOG[w].WORD, RO. -/
def mc_ELOG_WORD : Fld := ⟨.mc_ELOG, 35, 0⟩
/-- MC.FP[k].CFG.EN, RWB. -/
def mc_FP_CFG_EN : Fld := ⟨.mc_FP_CFG, 35, 35⟩
/-- MC.FP[k].CFG.RATE, RWB. -/
def mc_FP_CFG_RATE : Fld := ⟨.mc_FP_CFG, 34, 32⟩
/-- MC.FP[k].CFG.CL, RWB. -/
def mc_FP_CFG_CL : Fld := ⟨.mc_FP_CFG, 31, 25⟩
/-- MC.FP[k].CFG.RCD, RWB. -/
def mc_FP_CFG_RCD : Fld := ⟨.mc_FP_CFG, 24, 18⟩
/-- MC.FP[k].CFG.RP, RWB. -/
def mc_FP_CFG_RP : Fld := ⟨.mc_FP_CFG, 17, 11⟩
/-- MC.FP[k].NIB[s][n].WL, RWB. -/
def mc_FP_NIB_WL : Fld := ⟨.mc_FP_NIB, 35, 26⟩
/-- MC.FP[k].NIB[s][n].RXEN, RWB. -/
def mc_FP_NIB_RXEN : Fld := ⟨.mc_FP_NIB, 25, 16⟩
/-- MC.FP[k].NIB[s][n].RD, RWB. -/
def mc_FP_NIB_RD : Fld := ⟨.mc_FP_NIB, 15, 8⟩
/-- MC.FP[k].NIB[s][n].WR, RWB. -/
def mc_FP_NIB_WR : Fld := ⟨.mc_FP_NIB, 7, 0⟩
/-- MC.DRIFT[s].NET, RO. -/
def mc_DRIFT_NET : Fld := ⟨.mc_DRIFT, 35, 24⟩
/-- MC.DRIFT[s].LIMIT, RO. -/
def mc_DRIFT_LIMIT : Fld := ⟨.mc_DRIFT, 23, 23⟩
/-- MC.DRIFT[s].PAUSES, RO. -/
def mc_DRIFT_PAUSES : Fld := ⟨.mc_DRIFT, 22, 0⟩
/-- HOSTDMA.CFG.BAR2SIZE, RWB. -/
def hostdma_CFG_BAR2SIZE : Fld := ⟨.hostdma_CFG, 6, 4⟩
/-- HOSTDMA.CFG.DEFRX, RW. -/
def hostdma_CFG_DEFRX : Fld := ⟨.hostdma_CFG, 3, 0⟩
/-- HOSTDMA.BAR2BASE.BASE, RW. -/
def hostdma_BAR2BASE_BASE : Fld := ⟨.hostdma_BAR2BASE, 33, 0⟩
/-- HOSTDMA.CNT[k].COUNT, RC. -/
def hostdma_CNT_COUNT : Fld := ⟨.hostdma_CNT, 35, 0⟩
/-- HOSTDMA.TAGS.TAGBITS, RO. -/
def hostdma_TAGS_TAGBITS : Fld := ⟨.hostdma_TAGS, 16, 15⟩
/-- HOSTDMA.TAGS.INFLIGHT, RO. -/
def hostdma_TAGS_INFLIGHT : Fld := ⟨.hostdma_TAGS, 14, 0⟩
/-- HOSTDMA.REQSTAT.LASTERR, RC. -/
def hostdma_REQSTAT_LASTERR : Fld := ⟨.hostdma_REQSTAT, 35, 30⟩
/-- HOSTDMA.EPOCH.EPOCH, RO. -/
def hostdma_EPOCH_EPOCH : Fld := ⟨.hostdma_EPOCH, 31, 0⟩
/-- HOSTDMA.MGMT.EN, RWB. -/
def hostdma_MGMT_EN : Fld := ⟨.hostdma_MGMT, 35, 35⟩
/-- HOSTDMA.MGMT.UDPPORT, RWB. -/
def hostdma_MGMT_UDPPORT : Fld := ⟨.hostdma_MGMT, 34, 19⟩
/-- HOSTDMA.MGMT.SERVICE, RWB. -/
def hostdma_MGMT_SERVICE : Fld := ⟨.hostdma_MGMT, 18, 4⟩
/-- HOSTDMA.MGMT.QUEUE, RWB. -/
def hostdma_MGMT_QUEUE : Fld := ⟨.hostdma_MGMT, 3, 2⟩
/-- HOSTDMA.IRQMAP[k].EN, RW. -/
def hostdma_IRQMAP_EN : Fld := ⟨.hostdma_IRQMAP, 35, 35⟩
/-- HOSTDMA.IRQMAP[k].VEC, RW. -/
def hostdma_IRQMAP_VEC : Fld := ⟨.hostdma_IRQMAP, 7, 0⟩
/-- HOSTDMA.R[r].CFG.EN, RW. -/
def hostdma_R_CFG_EN : Fld := ⟨.hostdma_R_CFG, 35, 35⟩
/-- HOSTDMA.R[r].CFG.TYPE, RWI. -/
def hostdma_R_CFG_TYPE : Fld := ⟨.hostdma_R_CFG, 34, 32⟩
/-- HOSTDMA.R[r].CFG.DOMAIN, RWI. -/
def hostdma_R_CFG_DOMAIN : Fld := ⟨.hostdma_R_CFG, 31, 31⟩
/-- HOSTDMA.R[r].CFG.VEC, RWI. -/
def hostdma_R_CFG_VEC : Fld := ⟨.hostdma_R_CFG, 30, 23⟩
/-- HOSTDMA.R[r].CFG.MODUS, RW. -/
def hostdma_R_CFG_MODUS : Fld := ⟨.hostdma_R_CFG, 22, 11⟩
/-- HOSTDMA.R[r].BASELO.ADDR, RWI. -/
def hostdma_R_BASELO_ADDR : Fld := ⟨.hostdma_R_BASELO, 35, 5⟩
/-- HOSTDMA.R[r].BASEHI.ADDR, RWI. -/
def hostdma_R_BASEHI_ADDR : Fld := ⟨.hostdma_R_BASEHI, 27, 0⟩
/-- HOSTDMA.R[r].SIZE.ENTRIES, RWI. -/
def hostdma_R_SIZE_ENTRIES : Fld := ⟨.hostdma_R_SIZE, 16, 0⟩
/-- HOSTDMA.R[r].TAIL.TAIL, RW. -/
def hostdma_R_TAIL_TAIL : Fld := ⟨.hostdma_R_TAIL, 15, 0⟩
/-- HOSTDMA.R[r].HEAD.HEAD, RO. -/
def hostdma_R_HEAD_HEAD : Fld := ⟨.hostdma_R_HEAD, 15, 0⟩
/-- HOSTDMA.R[r].DROPS.FRAMES, RC. -/
def hostdma_R_DROPS_FRAMES : Fld := ⟨.hostdma_R_DROPS, 35, 0⟩
/-- RANGER.STATUS.GATED, RO. -/
def ranger_STATUS_GATED : Fld := ⟨.ranger_STATUS, 35, 24⟩
/-- RANGER.STATUS.CAP, RO. -/
def ranger_STATUS_CAP : Fld := ⟨.ranger_STATUS, 2, 2⟩
/-- RANGER.STATUS.THROTTLE, RO. -/
def ranger_STATUS_THROTTLE : Fld := ⟨.ranger_STATUS, 1, 1⟩
/-- RANGER.STATUS.FAST, RO. -/
def ranger_STATUS_FAST : Fld := ⟨.ranger_STATUS, 0, 0⟩
/-- RANGER.TMAX.SENSOR, RO. -/
def ranger_TMAX_SENSOR : Fld := ⟨.ranger_TMAX, 17, 12⟩
/-- RANGER.TMAX.TEMP, RO. -/
def ranger_TMAX_TEMP : Fld := ⟨.ranger_TMAX, 11, 0⟩
/-- RANGER.POWER.MW, RO. -/
def ranger_POWER_MW : Fld := ⟨.ranger_POWER, 19, 0⟩
/-- RANGER.EVENT.PMBUS, W1C. -/
def ranger_EVENT_PMBUS : Fld := ⟨.ranger_EVENT, 3, 3⟩
/-- RANGER.EVENT.HOT110, W1C. -/
def ranger_EVENT_HOT110 : Fld := ⟨.ranger_EVENT, 2, 2⟩
/-- RANGER.EVENT.CAP, W1C. -/
def ranger_EVENT_CAP : Fld := ⟨.ranger_EVENT, 1, 1⟩
/-- RANGER.EVENT.THROTTLE, W1C. -/
def ranger_EVENT_THROTTLE : Fld := ⟨.ranger_EVENT, 0, 0⟩
/-- RANGER.EVENTEN.EN, RW. -/
def ranger_EVENTEN_EN : Fld := ⟨.ranger_EVENTEN, 3, 0⟩
/-- RANGER.POL0.TDPCAP, RWB. -/
def ranger_POL0_TDPCAP : Fld := ⟨.ranger_POL0, 8, 0⟩
/-- RANGER.POL1.ECOLU, RWB. -/
def ranger_POL1_ECOLU : Fld := ⟨.ranger_POL1, 25, 0⟩
/-- RANGER.POL2.GATEOK, RWB. -/
def ranger_POL2_GATEOK : Fld := ⟨.ranger_POL2, 13, 2⟩
/-- RANGER.POL2.ECOFP, RWB. -/
def ranger_POL2_ECOFP : Fld := ⟨.ranger_POL2, 1, 0⟩
/-- RANGER.POL3.UPTHR, RWB. -/
def ranger_POL3_UPTHR : Fld := ⟨.ranger_POL3, 13, 7⟩
/-- RANGER.POL3.DOWNTHR, RWB. -/
def ranger_POL3_DOWNTHR : Fld := ⟨.ranger_POL3, 6, 0⟩
/-- RANGER.POL4.LIST, RWB. -/
def ranger_POL4_LIST : Fld := ⟨.ranger_POL4, 31, 0⟩
/-- RANGER.TEMP[s].TEMP, RO. -/
def ranger_TEMP_TEMP : Fld := ⟨.ranger_TEMP, 11, 0⟩
/-- RANGER.DOMPWR[d].MW, RO. -/
def ranger_DOMPWR_MW : Fld := ⟨.ranger_DOMPWR, 19, 0⟩
/-- RANGER.OPP[k].OPP, RO. -/
def ranger_OPP_OPP : Fld := ⟨.ranger_OPP, 2, 0⟩
/-- FAULT.MODEREQ.REQ, WO. -/
def fault_MODEREQ_REQ : Fld := ⟨.fault_MODEREQ, 3, 0⟩
/-- FAULT.REQSTAT.LASTERR, RC. -/
def fault_REQSTAT_LASTERR : Fld := ⟨.fault_REQSTAT, 35, 30⟩
/-- FAULT.BASE.BASE, RO. -/
def fault_BASE_BASE : Fld := ⟨.fault_BASE, 3, 0⟩
/-- FAULT.CFG.STORMEN, RWB. -/
def fault_CFG_STORMEN : Fld := ⟨.fault_CFG, 16, 16⟩
/-- FAULT.CFG.STORMMAX, RWB. -/
def fault_CFG_STORMMAX : Fld := ⟨.fault_CFG, 15, 8⟩
/-- FAULT.CFG.STORMWIN, RWB. -/
def fault_CFG_STORMWIN : Fld := ⟨.fault_CFG, 7, 0⟩
/-- FAULT.EVENT.DRAINED, W1C. -/
def fault_EVENT_DRAINED : Fld := ⟨.fault_EVENT, 6, 6⟩
/-- FAULT.EVENT.RECDONE, W1C. -/
def fault_EVENT_RECDONE : Fld := ⟨.fault_EVENT, 5, 5⟩
/-- FAULT.EVENT.PFAIL, W1C. -/
def fault_EVENT_PFAIL : Fld := ⟨.fault_EVENT, 4, 4⟩
/-- FAULT.EVENT.SHARED, W1C. -/
def fault_EVENT_SHARED : Fld := ⟨.fault_EVENT, 3, 3⟩
/-- FAULT.EVENT.FWFATAL, W1C. -/
def fault_EVENT_FWFATAL : Fld := ⟨.fault_EVENT, 2, 2⟩
/-- FAULT.EVENT.CHFATAL, W1C. -/
def fault_EVENT_CHFATAL : Fld := ⟨.fault_EVENT, 1, 1⟩
/-- FAULT.EVENT.LOCAL, W1C. -/
def fault_EVENT_LOCAL : Fld := ⟨.fault_EVENT, 0, 0⟩
/-- FAULT.CNT[k].COUNT, RC. -/
def fault_CNT_COUNT : Fld := ⟨.fault_CNT, 35, 0⟩
/-- FAULT.LAST0.SOURCE, RO. -/
def fault_LAST0_SOURCE : Fld := ⟨.fault_LAST0, 35, 30⟩
/-- FAULT.LAST0.CLASS, RO. -/
def fault_LAST0_CLASS : Fld := ⟨.fault_LAST0, 29, 27⟩
/-- FAULT.LAST1.TIME, RO. -/
def fault_LAST1_TIME : Fld := ⟨.fault_LAST1, 35, 0⟩
/-- FAULT.FLASH.ERASING, RO. -/
def fault_FLASH_ERASING : Fld := ⟨.fault_FLASH, 35, 35⟩
/-- FAULT.FLASH.HALF, RO. -/
def fault_FLASH_HALF : Fld := ⟨.fault_FLASH, 34, 34⟩
/-- FAULT.FLASH.FREE, RO. -/
def fault_FLASH_FREE : Fld := ⟨.fault_FLASH, 33, 22⟩
/-- FAULT.FLASH.QUEUED, RO. -/
def fault_FLASH_QUEUED : Fld := ⟨.fault_FLASH, 3, 0⟩
/-- BOOTINFO.IDENT.VENDOR, RO. -/
def bootinfo_IDENT_VENDOR : Fld := ⟨.bootinfo_IDENT, 21, 6⟩
/-- BOOTINFO.IDENT.GRADE, RO. -/
def bootinfo_IDENT_GRADE : Fld := ⟨.bootinfo_IDENT, 5, 4⟩
/-- BOOTINFO.IDENT.SPEED, RO. -/
def bootinfo_IDENT_SPEED : Fld := ⟨.bootinfo_IDENT, 3, 0⟩
/-- BOOTINFO.SERIALLO.SERIAL, RO. -/
def bootinfo_SERIALLO_SERIAL : Fld := ⟨.bootinfo_SERIALLO, 35, 0⟩
/-- BOOTINFO.SERIALHI.SERIAL, RO. -/
def bootinfo_SERIALHI_SERIAL : Fld := ⟨.bootinfo_SERIALHI, 27, 0⟩
/-- BOOTINFO.FUSESTAT.ROLLUSED, RO. -/
def bootinfo_FUSESTAT_ROLLUSED : Fld := ⟨.bootinfo_FUSESTAT, 8, 3⟩
/-- BOOTINFO.FUSESTAT.ROLLFULL, RO. -/
def bootinfo_FUSESTAT_ROLLFULL : Fld := ⟨.bootinfo_FUSESTAT, 2, 2⟩
/-- BOOTINFO.FUSESTAT.DBGLOCK, RO. -/
def bootinfo_FUSESTAT_DBGLOCK : Fld := ⟨.bootinfo_FUSESTAT, 1, 1⟩
/-- BOOTINFO.FUSESTAT.KEYSET, RO. -/
def bootinfo_FUSESTAT_KEYSET : Fld := ⟨.bootinfo_FUSESTAT, 0, 0⟩
/-- BOOTINFO.ROLLLO.VALUE, RO. -/
def bootinfo_ROLLLO_VALUE : Fld := ⟨.bootinfo_ROLLLO, 35, 0⟩
/-- BOOTINFO.ROLLHI.VALUE, RO. -/
def bootinfo_ROLLHI_VALUE : Fld := ⟨.bootinfo_ROLLHI, 27, 0⟩
/-- BOOTINFO.BOOT.BOOTSEL, RO. -/
def bootinfo_BOOT_BOOTSEL : Fld := ⟨.bootinfo_BOOT, 35, 34⟩
/-- BOOTINFO.BOOT.SLOT, RO. -/
def bootinfo_BOOT_SLOT : Fld := ⟨.bootinfo_BOOT, 33, 33⟩
/-- BOOTINFO.BOOT.ATRIED, RO. -/
def bootinfo_BOOT_ATRIED : Fld := ⟨.bootinfo_BOOT, 32, 32⟩
/-- BOOTINFO.BOOT.ASTATUS, RO. -/
def bootinfo_BOOT_ASTATUS : Fld := ⟨.bootinfo_BOOT, 31, 26⟩
/-- BOOTINFO.BOOT.BTRIED, RO. -/
def bootinfo_BOOT_BTRIED : Fld := ⟨.bootinfo_BOOT, 25, 25⟩
/-- BOOTINFO.BOOT.BSTATUS, RO. -/
def bootinfo_BOOT_BSTATUS : Fld := ⟨.bootinfo_BOOT, 24, 19⟩
/-- BOOTINFO.BOOT.ADVANCED, RO. -/
def bootinfo_BOOT_ADVANCED : Fld := ⟨.bootinfo_BOOT, 18, 18⟩
/-- BOOTINFO.IMAGE.BUILD, RO. -/
def bootinfo_IMAGE_BUILD : Fld := ⟨.bootinfo_IMAGE, 31, 0⟩
/-- BOOTINFO.IMGROLLLO.VALUE, RO. -/
def bootinfo_IMGROLLLO_VALUE : Fld := ⟨.bootinfo_IMGROLLLO, 35, 0⟩
/-- BOOTINFO.IMGROLLHI.VALUE, RO. -/
def bootinfo_IMGROLLHI_VALUE : Fld := ⟨.bootinfo_IMGROLLHI, 27, 0⟩
/-- BOOTINFO.IMGSIZE.TOTAL, RO. -/
def bootinfo_IMGSIZE_TOTAL : Fld := ⟨.bootinfo_IMGSIZE, 26, 0⟩
/-- BOOTINFO.BRINGUP.US, RO. -/
def bootinfo_BRINGUP_US : Fld := ⟨.bootinfo_BRINGUP, 35, 0⟩
/-- COREDBG.EXCCOUNT.EVENTS, RC. -/
def coredbg_EXCCOUNT_EVENTS : Fld := ⟨.coredbg_EXCCOUNT, 35, 0⟩
/-- COREDBG.LASTEXC.CAUSE, RO. -/
def coredbg_LASTEXC_CAUSE : Fld := ⟨.coredbg_LASTEXC, 35, 32⟩
/-- COREDBG.LASTEXC.CORE, RO. -/
def coredbg_LASTEXC_CORE : Fld := ⟨.coredbg_LASTEXC, 31, 25⟩
/-- COREDBG.LASTEXC.CUSTOM, RO. -/
def coredbg_LASTEXC_CUSTOM : Fld := ⟨.coredbg_LASTEXC, 24, 24⟩
/-- COREDBG.LASTEXC.FUNCID, RO. -/
def coredbg_LASTEXC_FUNCID : Fld := ⟨.coredbg_LASTEXC, 23, 18⟩
/-- COREDBG.LASTEXC.CHANNEL, RO. -/
def coredbg_LASTEXC_CHANNEL : Fld := ⟨.coredbg_LASTEXC, 14, 0⟩
/-- COREDBG.LASTPC.PC, RO. -/
def coredbg_LASTPC_PC : Fld := ⟨.coredbg_LASTPC, 18, 0⟩
/-- COREDBG.STATUS.DBGLOCK, RO. -/
def coredbg_STATUS_DBGLOCK : Fld := ⟨.coredbg_STATUS, 14, 14⟩
/-- COREDBG.STATUS.PATCHES, RO. -/
def coredbg_STATUS_PATCHES : Fld := ⟨.coredbg_STATUS, 13, 7⟩
/-- COREDBG.STATUS.CUSTOMS, RO. -/
def coredbg_STATUS_CUSTOMS : Fld := ⟨.coredbg_STATUS, 6, 0⟩
/-- COREDBG.MBOX[k].VALUE, RW. -/
def coredbg_MBOX_VALUE : Fld := ⟨.coredbg_MBOX, 35, 0⟩

end Sys2Proof.Machine.F
end

