-- ==== Sys2Proof/Machine/Chip.lean ====
section
/-! DEFINITION. What the device holds: plain data, block by block. Register values live in `Chip.regs` and
`Chip.preqs`; every other piece of state the spec gives a block is a field of that block's structure. -/
namespace Sys2Proof.Machine

/-- An entry of a chute, or of the event-timestamp chute: a word with its END and GAP tags (R296, R64). -/
structure Entry where
  word : Word
  fin : Bool := false
  gap : Bool := false
  deriving DecidableEq, Repr

/-- A line of device time: time = t + (COUNT - c) * rate, t in 2^-16 ns (R43). -/
structure Anchor where
  t : Int := 0
  c : Nat := 0
  rate : Nat := 0xCCCCCCCD
  deriving DecidableEq, Repr

/-- The time unit beyond its registers. -/
structure TimeSt where
  /-- ANCHOR_T, ANCHOR_C and the RATE in force (R43, R45). -/
  cur : Anchor := {}
  /-- A change taken at the next count: from that COUNT on, the new line applies (R45, R48). -/
  next : Option (Nat × Anchor) := none
  /-- COUNT from which the holdover timeout runs: at the completion of the last valid exchange, or before one at the write of
  SOURCE or the first step (R53). -/
  lastValid : Option Nat := none
  /-- The interval of the exchanges of the present SOURCE, as the exponent of two of seconds, once one was valid (R53). -/
  logInterval : Option Int := none
  /-- Consecutive valid exchanges within LOCKNS while TRACKING (Table 2.1). -/
  runLock : Nat := 0
  /-- Consecutive valid exchanges beyond 8 x LOCKNS while LOCKED (Table 2.1). -/
  runLoose : Nat := 0
  /-- Consecutive valid exchanges in HOLDOVER (Table 2.1). -/
  runHold : Nat := 0
  /-- Consecutive valid exchanges beyond STEPLIMIT (R52). -/
  runBeyond : Nat := 0
  /-- Consecutive valid exchanges within STEPLIMIT (R52). -/
  runWithin : Nat := 0
  /-- Offsets of the last valid exchanges, newest first, at most 8, in 2^-17 ns (R53). -/
  offsets : List Int := []
  /-- Mean path delays of the last valid exchanges, newest first, at most 16, in 2^-17 ns (R68). -/
  delays : List Int := []
  /-- COUNT at which a GAP-tagged record was last popped (R67). -/
  gapPopped : Option Nat := none
  /-- A STEP was taken during the present RECOVERY by time-step fault (R49). -/
  stepInRec : Bool := false
  /-- STATE has reached LOCKED since release (R76). -/
  seenLocked : Bool := false
  /-- The event-timestamp chute, oldest entry first (R64). -/
  evt : List Entry := []
  /-- The next record accepted carries GAP (R66). -/
  evtGap : Bool := false
  /-- COUNT of the last PPS_IN edge (R77). -/
  lastPps : Option Nat := none
  /-- MT of the last block boundary opened, and of the last window end of R120.
  [DEDUCED, log entry 6: safe] -/
  lastBlock : Option Nat := none
  /--
  [DEDUCED, log entry 6: safe] -/
  lastWindow : Option Nat := none
  /-- Levels of PPS_OUT, WCLK_OUT and FREQ_OUT (R76). -/
  ppsOut : Bool := false
  wclkOut : Bool := false
  freqOut : Bool := false
  /-- The video frame that FREQ_OUT is in, and the tick chosen for its fall where two are equally near (R76). -/
  freqPick : Option (Nat × Bool) := none
  /-- The servo's frequency estimate, as a value of RATE (R51): the slewing limit is on top of it. -/
  freq : Nat := 0xCCCCCCCD
  deriving DecidableEq, Repr

/-- One chute beyond its registers: the settings in force and the state of its two ends (R296 to R311). -/
structure ChuteSt where
  len : Nat := 0
  lenMode : Bool := false
  chDomain : Bool := false
  base : Nat := 0
  wr : Nat := 0
  rd : Nat := 0
  /-- A packet is open on the push side. -/
  openPkt : Bool := false
  /-- PS of R302, or the pointer of the reserved length entry of R303. -/
  start : Nat := 0
  /-- Words of the open packet stored: in length mode those after its length entry (R302, R303). -/
  stored : Nat := 0
  /-- A length entry is reserved and not yet written (R303, R305). -/
  reserved : Bool := false
  /-- Later pushes up to END are dropped and counted (R302, R304). -/
  dropping : Bool := false
  /-- Later pushes up to END are discarded without count (R306). -/
  discarding : Bool := false
  /-- The next accepted entry carries GAP (R300). -/
  gap : Bool := false
  /-- Data words left of the packet the consumer is inside, in length mode (R306). -/
  left : Nat := 0
  deriving DecidableEq, Repr

/-- A word on its way to a chute, with its END tag (R298). -/
structure Arriving where
  chute : Nat
  word : Word
  fin : Bool
  /-- It reaches its chute in this cycle, together with a pop (R307). -/
  now : Bool := false
  deriving DecidableEq, Repr

/-- What a core waits for. -/
inductive CoreWait where
  /-- The core issues bundles. -/
  | run
  /-- Waiting in TAKE for an item (R255). -/
  | take
  /-- TAKE reached while transfers were outstanding: it waits as WAITE does first (R255). -/
  | takeDrain
  /-- Waiting in WAITE (R259). -/
  | waite
  /-- Waiting in WFI (R265). -/
  | wfi
  /-- Stalled in SPAWN (R256, R277). -/
  | spawn
  /-- Not started: before release, and a control core without a boot entry. -/
  | stopped
  deriving DecidableEq, Repr

/-- An active hardware loop (R247): its body's first and last bundle addresses and the iterations left. -/
structure LoopSt where
  first : Nat
  last : Nat
  left : Nat
  deriving DecidableEq, Repr

/-- An engine transfer that a core started and that has not completed (R258). -/
inductive Transfer where
  | dmovIn (loc burst n : Nat)
  | dmovOut (loc burst n : Nat)
  | kreq (lane inAddr inN outAddr outN : Nat)
  | bsub (unit serial : Nat)
  | mxadd (bus first loc n : Nat)
  | mxrd (bus first loc n : Nat)
  | txp (ws : List Word)
  deriving DecidableEq, Repr

/-- A custom function that the library has called on a core (R270): its position, the return address, where the frame's
samples lie and how many, the receive meter so far, the registers that it must leave, and the samples once it has returned. -/
structure CallSt where
  pos : Nat
  ret : Nat
  addr : Nat
  n : Nat
  rx : Word
  regs : List Word
  xregs : List Nat
  back : Option (List Int) := none
  deriving DecidableEq, Repr

/-- One core (R234 to R270). General, accumulator and address registers are sparse tables with default 0.
[DESIGN CHOICE, log entry 10: unsafe] -/
structure CoreSt where
  wait : CoreWait := .stopped
  pc : Nat := 0
  g : Cells Word := []
  acc : Cells AccWord := []
  x : Cells Nat := []
  xb : Cells Nat := []
  xl : Cells Nat := []
  tcr : Word := 0
  /-- FLAGS [9:0] (Table 9.5). -/
  flags : Nat := 0
  loop0 : Option LoopSt := none
  loop1 : Option LoopSt := none
  /-- Local data memory (R237); an unlisted word reads as Config.localWord. -/
  mem : Cells Word := []
  /-- COUNT and sub-tick count when TAKE last returned (ITEMCYC, watchdog). -/
  takeAt : Nat := 0
  takeSub : Nat := 0
  /-- The slot of the item the core holds. -/
  item : Option Nat := none
  /-- The current staging buffer (R239). -/
  buf : Nat := 0
  /-- The item a stalled SPAWN posts (R277). -/
  spawning : List Word := []
  /-- The custom function of the item's chain (R270). -/
  call : Option CallSt := none
  /-- Outstanding engine transfers, oldest first (R258). -/
  xfers : List Transfer := []
  /-- Supervisor registers of a control core (Table 9.13). -/
  sup : Bool := true
  ie : Bool := false
  prevSup : Bool := true
  epc : Nat := 0
  ecause : Nat := 0
  ivec : Nat := 0
  imask : Nat := 0
  ipend : Nat := 0
  tcmp : Nat := 0
  tarmed : Bool := false
  win : Cells Word := []
  deriving DecidableEq, Repr

/-- Where a slot's release stands (R271, R275 to R284). -/
inductive SlotStage where
  /-- In a delay list, or held back at its head. -/
  | delayed | held
  /-- In the ready list; being landed; landed; running. -/
  | ready | landing | landed | running
  /-- The last release has ended; its write-back has not. -/
  | ended
  deriving DecidableEq, Repr

/-- A staging buffer of a core (R278), with the slot it serves. -/
inductive BufSt where
  | free
  | landing (slot : Nat)
  | landed (slot : Nat)
  | current (slot : Nat)
  | writing (slot : Nat)
  deriving DecidableEq, Repr

/-- A staging buffer's CHANNEL item: descriptor words 16 to 27 as landed, and what its completion leaves for the
write-back (R280, R286). -/
structure HeadSt where
  ws : List Word := []
  /-- The state area as landed: its word address and words. -/
  area : Nat := 0
  words : Nat := 0
  status : Nat := 0
  lag : Nat := 0
  late : Nat := 0
  maxLag : Nat := 0
  /-- RESTARTS and DISCARDS of a channel that became IDLE when the item completed. -/
  last : Option (Nat × Nat) := none
  deriving DecidableEq, Repr

/-- An occupied slot of the Landing scheduler: its item and the release in question. -/
structure SlotSt where
  w0 : Word := 0
  w1 : Word := 0
  w2 : Word := 0
  w3 : Word := 0
  /-- N_i of the release, in sub-ticks mod 2^36 (R273). -/
  nominal : Nat := 0
  /-- The effective deadline (R285). -/
  effective : Nat := 0
  /-- The sample tick at which the release is due (R273, R275). -/
  tick : Nat := 0
  stage : SlotStage := .delayed
  /-- No further release is made (R294). -/
  cancelled : Bool := false
  /-- A held release waits at the head of its delay list (R277). -/
  listed : Bool := false
  /-- PERIOD was rounded up to 2^19 sub-ticks, which its field does not hold (R295). -/
  longPeriod : Bool := false
  /-- The core and buffer that the release is bound to, as core * 2 + buffer. -/
  place : Nat := 0
  deriving DecidableEq, Repr

/-- An entry fetched from a submission queue (R292): its word address, its words 0 to 4 as fetched, and whether the head
stands at it. A write of SQBASE or SQSIZE since has moved the head away (Tables 10.7 and 10.8). -/
structure SqEntry where
  addr : Nat
  ws : List Word
  atHead : Bool := true
  deriving DecidableEq, Repr

/-- A submission queue (R291, R292). -/
structure SqSt where
  base : Nat := 0
  size : Nat := 0
  tail : Nat := 0
  head : Nat := 0
  /-- The entry fetched and not decided: its item would enter a full ready list (R292). -/
  entry : Option SqEntry := none
  /-- That entry was fetched when RECOVERY began: DISCARDED is written at its end (R289). -/
  discard : Bool := false
  deriving DecidableEq, Repr

/-- An UPDATE accepted and not yet applied (R93, R282). -/
structure UpdSt where
  /-- Word index and word, of the words selected. -/
  words : List (Nat × Word)
  /-- The frame boundary where it applies. -/
  at_ : Nat
  /-- STATEWORDS and CHARGE from the boundary on. -/
  stateWords : Nat
  charge : Nat
  /-- Charge and DRAM load released at the boundary.
  [DEDUCED, log entry 107: unsafe] -/
  dropCharge : Nat := 0
  dropLoad : Nat := 0
  /-- The copy of the RXP, and whether it flushes the jitter buffer (R111). -/
  rxp : Option (List Word × Bool) := none
  /-- The copy of the header template (R129). -/
  tmpl : Option (List Word) := none
  deriving DecidableEq, Repr

/-- The on-chip channel table entry of a slot that is not IDLE (R486), with what the chain keeps for it. -/
structure ChanSt where
  /-- Life-cycle state of Table 3.7: 1 PENDING, 2 ACTIVE, 3 RESTARTING, 4 STOPPING. -/
  life : Nat := 1
  /-- Charge and DRAM load counted in the use registers. -/
  charge : Nat := 0
  load : Nat := 0
  tenant : Nat := 0
  cluster : Nat := 0
  /-- First frame boundary (MT) of a PENDING channel, or of the restart. -/
  first : Nat := 0
  /-- The last frame of a STOPPING channel. -/
  lastFrame : Nat := 0
  /-- Start (MT) of the next frame to be run, and its length in samples. -/
  frame : Nat := 0
  frameLen : Nat := 0
  restarts : Nat := 0
  discards : Nat := 0
  lateFrames : Nat := 0
  maxLag : Nat := 0
  lag : Nat := 0
  lastStatus : Nat := 0
  /-- The next frame is muted (R90). -/
  muted : Bool := false
  /-- The next frame's outputs are ramped over its first block (R91). -/
  ramp : Bool := false
  update : List UpdSt := []
  deriving DecidableEq, Repr

/-- One executed depth change at a block boundary (R121): the boundary, the depth after it and how the block is
formed: 0 as stored, 1 one stream sample stretched in, 2 one stream sample dropped, 3 the read position holds. -/
structure SlipRec where
  mt : Nat
  depth : Nat
  kind : Nat
  hold : Nat := 0
  deriving DecidableEq, Repr

/-- A sub-band of a G.722 coder (R190): its predictor's outputs, coefficients and delay lines, the log of its scale factor
and the scale factor. -/
structure G722Band where
  s : Int := 0
  sz : Int := 0
  r1 : Int := 0
  p1 : Int := 0
  p2 : Int := 0
  a1 : Int := 0
  a2 : Int := 0
  b : List Int := [0, 0, 0, 0, 0, 0]
  d : List Int := [0, 0, 0, 0, 0, 0]
  nb : Int := 0
  det : Int := 32
  deriving DecidableEq, Repr

/-- A G.722 encoder or decoder (R190): its sub-bands and the last 24 values of its mirror filters, oldest first. -/
structure G722St where
  lo : G722Band := {}
  hi : G722Band := { det := 8 }
  x : List Int := List.replicate 24 0
  deriving DecidableEq, Repr

/-- Jitter buffer, playout and packetise state of a channel (R109 to R135), reset at activation and restart. -/
structure JbSt where
  /-- The copy of the RXP in force (R111). -/
  rxp : List Word := []
  /-- D_cur and the target, in samples (R116, R119, R120). -/
  dcur : Nat := 0
  target : Nat := 0
  /-- The depth in force at the start of the next frame to be played, before the slips below. -/
  depth0 : Nat := 0
  /-- MT up to which the read position holds after an increase inside a concealed stretch (R121). -/
  holdEnd : Nat := 0
  /-- FREE reference: sender MT and RTP timestamp of the packet that set it (R115), in 48 kHz samples. -/
  ref : Option (Int × Nat) := none
  /-- By how much the FREE reference has moved since a packet could be stored that is still to be played, latest window
  first (R122): what finds the cell of a packet stored before. -/
  moves : List Int := []
  /-- The latched SSRC (R118). -/
  ssrc : Option Nat := none
  /-- The effective RTPOFF (R115, R118). -/
  rtpoff : Nat := 0
  /-- Consecutive out-of-window packets: count, last sequence number, last timestamp (R118). -/
  jumpRun : Nat := 0
  jumpSeq : Nat := 0
  jumpTs : Nat := 0
  /-- Consecutive packets of one new SSRC (R118). -/
  newSsrc : Nat := 0
  newRun : Nat := 0
  /-- The 16 largest transits of the window in 1/16 samples, largest first, and the packets in it (R120). -/
  transits : List Int := []
  winN : Nat := 0
  winLate : Bool := false
  tmin : Option Int := none
  /-- Block boundaries since the last frame played, oldest first (R121). -/
  slips : List SlipRec := []
  /-- Samples of the present concealed stretch, at the stream rate; 0 while audio plays (R123). -/
  concealing : Nat := 0
  /-- Samples left of the fade from concealment back to received audio (R123). -/
  fadeLeft : Nat := 0
  /-- The last 240 (at 48 kHz) samples played, oldest first, and those that the present stretch repeats (R123). -/
  lastPlayed : List Int := []
  rep : List Int := []
  /-- The packet decoded last, which the next frame may still play: its cell and TS, and its samples. -/
  packet : Option (Nat × Nat × List (Option Int)) := none
  /-- The G.722 decoder and encoder (R190). -/
  dec722 : G722St := {}
  enc722 : G722St := {}
  /-- JBSTAT counters (Table 4.5); concealed samples are counted at 48 kHz. -/
  late : Nat := 0
  concealed : Nat := 0
  reason : Nat := 0
  resyncs : Nat := 0
  discards : Nat := 0
  txdrops : Nat := 0
  /-- For a local source: MT of the sample each ring word was written for (R124). -/
  ring : Cells Nat := []
  /-- The template copied into the packetise state (R129). -/
  tmpl : List Word := []
  /-- The next packet carries M = 1 (R130). -/
  mark : Bool := true
  /-- Send samples not yet packetised: MT of the first, and the samples at the stream rate (R127). -/
  txBuf : List (Nat × Int) := []
  /-- RTCP counts since activation (R135). -/
  txPkts : Nat := 0
  txOcts : Nat := 0
  rxHighest : Nat := 0
  rxBase : Option Nat := none
  rxCount : Nat := 0
  rxJitter : Nat := 0
  rxLastTransit : Option Int := none
  /-- Packets expected and received at the last report (RFC 3550). -/
  rxPriorExp : Nat := 0
  rxPriorCount : Nat := 0
  deriving DecidableEq, Repr

/-- What the device drives or sends, newest first in `Chip.out`.
[DESIGN CHOICE, log entry 113: safe] -/
inductive Output where
  /-- The data a register or DRAM read returned to a requester. -/
  | readData (req : Requester) (off : Nat) (data : Nat)
  /-- A BAR read answered with zero data and the EP bit set (R436). -/
  | readPoisoned (off : Nat)
  /-- A BAR access answered with UR (Table 1.6, R431). -/
  | unsupported (off : Nat)
  /-- A PCIe configuration request answered with Configuration Request Retry Status (Table 1.6). -/
  | configRetry
  /-- A frame sent on a port 0 to 63, at its end, with its FCS correct or inverted (R328, R372). -/
  | frameOut (port : Nat) (octets : List Octet) (fcsGood : Bool)
  /-- A preemption control mPacket: false verify, true respond (R375). -/
  | mPacket (port : Nat) (respond : Bool)
  /-- Octets written to host memory (R440 to R445).
  [DESIGN CHOICE, log entry 116: safe] -/
  | hostWrite (addr : Nat) (octets : List Octet)
  /-- A read of host memory issued (R437).
  [DESIGN CHOICE, log entry 116: safe] -/
  | hostRead (addr : Nat) (octets : Nat)
  /-- An MSI-X message (R446 to R448). -/
  | msix (vec : Nat)
  /-- A pin's new level (R76, R404, R499): the pin's name and level. -/
  | pin (name : String) (idx : Nat) (level : Bool)
  /-- A Hedgerow frame sent on a segment (R388 to R396). -/
  | hedge (seg : Nat) (octets : List Octet)
  /-- A jam on a segment (R392). -/
  | hedgeJam (seg : Nat)
  /-- Samples driven on a TDM or MADI port (R399, R401). -/
  | audioOut (madi : Bool) (port : Nat) (words : List Nat)
  /-- An MDIO frame on the management pins (R387). -/
  | mdio (write : Bool) (phy reg data : Nat)
  /-- An entry written to the fault-record area of the flash (R487). -/
  | flashEntry (half idx : Nat) (octets : List Octet)
  /-- A half of the fault-record area erased (R488). -/
  | flashErase (half : Nat)
  /-- Fuse bits programmed (R461, R473). -/
  | fuse (first : Nat) (bits : List Bool)
  /-- A DRAM command issued by a subchannel (R415 to R418). -/
  | dramCommand (sub : Nat) (name : String) (bank row : Nat)
  /-- The response to a read that the memory controller served: its source, burst and words, none for an error
  response (R413, R420). -/
  | dramData (src burst : Nat) (words : Option (List Word))
  /-- The level of TDO (R508). -/
  | tdo (level : Bool)
  deriving DecidableEq, Repr

/-- Pins and rails (R454 to R458, R505).
[DESIGN CHOICE, log entry 1: unsafe] [DEDUCED, log entry 72: safe] -/
structure DevSt where
  rails : Bool := true
  pwrok : Bool := true
  resetN : Bool := false
  perstN : Bool := false
  pfailN : Bool := true
  thermtripN : Bool := true
  /-- The device has been released (R473). -/
  released : Bool := false
  /-- HELD was entered by a thermal trip (R455). -/
  tripHeld : Bool := false
  /-- The PCIe link has trained (R458), and the function is in D3hot (R431). -/
  pcieUp : Bool := false
  d3hot : Bool := false
  deriving DecidableEq, Repr

/-- A descriptor fetched by a ring and not completed (R438, R440). -/
structure DescSt where
  idx : Nat
  /-- Its place among all the descriptors the ring has fetched: what tells a frame of it from one of a later use of its
  index. -/
  tag : Nat := 0
  q0 : Nat
  q1 : Nat
  q2 : Nat
  /-- Fetched before the ring was enabled anew: it completes without moving HEAD.
  [DEDUCED, log entry 76: unsafe] -/
  stale : Bool := false
  /-- Its outcome once its work has ended: status, and qwords 2 and 3 to be written. -/
  done : Option (Nat × Option Nat × Nat) := none
  deriving DecidableEq, Repr

/-- A host ring beyond its registers (R438 to R446). -/
structure RingSt where
  /-- Next index to fetch. -/
  next : Nat := 0
  /-- Descriptors fetched so far. -/
  tags : Nat := 0
  /-- TAIL was advanced onto HEAD: nothing is fetched until it is written again (R438). -/
  closed : Bool := false
  fetched : List DescSt := []
  /-- COUNT at which its last message was sent (R446). -/
  lastMsg : Option Nat := none
  /-- A completion waits for the end of the moderation interval (R446). -/
  msgHeld : Bool := false
  /-- Descriptors that RECOVERY discarded, completed when it ends (R449). -/
  discarded : Bool := false
  deriving DecidableEq, Repr

/-- Host link state (R430 to R453). -/
structure HostSt where
  /-- Held low halves of BAR0 by requester: slot and bits [31:0] (R31, R432, R433). -/
  held : Cells (Nat × Nat) := []
  /-- The BAR0 high-half latch of the PCIe link: slot and bits [35:32] (R432). -/
  highLatch : Option (Nat × Nat) := none
  /-- Held low half of BAR2: slot and bits (R435). -/
  held2 : Option (Nat × Nat) := none
  /-- BAR2 high-half latch (R435). -/
  highLatch2 : Option (Nat × Nat) := none
  rings : Cells RingSt := []
  /-- MSI-X mask bits that are clear (vectors unmasked), pending bits, and the function mask (R448).
  [PRESUMED, log entry 77: unsafe] -/
  unmasked : Nat := 0
  msixPending : Nat := 0
  /--
  [PRESUMED, log entry 77: unsafe] -/
  funcMask : Bool := false
  /-- Management keys by KEYID: 32 octets (R450). -/
  keys : Cells (List Octet) := []
  /-- Last accepted SEQ[31:0] by KEYID in this epoch (R452). -/
  seqs : Cells Nat := []
  deriving DecidableEq, Repr

/-- An entry of the fault-record area (Table 19.8). -/
structure FaultEntry where
  ty : Nat
  payload : List Octet
  seq : Nat
  epoch : Nat
  sec : Nat
  ns : Nat
  mode : Nat
  recovering : Nat
  deriving DecidableEq, Repr

/-- A phase of RECOVERY (Table 19.5). -/
inductive RecPhase where
  | none | flush | check | complete
  deriving DecidableEq, Repr

/-- RECOVERY of one domain (R483 to R485). -/
structure RecSt where
  phase : RecPhase := .none
  /-- The fault was shared-fatal: the Check phase covers the shared blocks too (R485). -/
  shared : Bool := false
  /-- The fault was a time-step fault (R49, R485). -/
  timeStep : Bool := false
  /-- COUNTs of entries, newest first (R484). -/
  entries : List Nat := []
  deriving DecidableEq, Repr

/-- Fault handling and the fault-record area (R481 to R490). -/
structure FaultSt where
  chan : RecSt := {}
  fwd : RecSt := {}
  /-- The two halves of the fault-record area: entries in order of writing; 2,048 entries fill a half (R487). -/
  half0 : List FaultEntry := []
  half1 : List FaultEntry := []
  /-- Entries waiting to be written, oldest first (R489). -/
  queue : List FaultEntry := []
  /-- SEQ of the newest entry (R487, R488). -/
  seq : Nat := 0
  /-- The boot epoch (R452). -/
  epoch : Nat := 0
  /-- The scan of R488 has ended: PFAIL_N is handled (R490). -/
  scanned : Bool := false
  /-- COUNT at which a fault storm was met: HELD follows its entry, or 2 ms later (R484). -/
  storm : Option Nat := none
  /-- COUNT of the last PFAIL entry, and falls since (R490). -/
  lastPfail : Option Nat := none
  pfails : Nat := 0
  deriving DecidableEq, Repr

/-- Ranger state beyond its registers (R493 to R500). -/
structure RangerSt where
  /-- Sensors at or above the trip threshold at the last sample (R499), as bits. -/
  overTrip : Nat := 0
  /-- Sensors at or above 110 C at the last sample (R498), as bits. -/
  over110 : Nat := 0
  /-- COUNT since which every sensor has read below 100 C (R498). -/
  coolSince : Option Nat := none
  /-- Steps by which the throttle, and the TDP cap, have lowered each cluster (R497, R498). -/
  thrSteps : Cells Nat := []
  capSteps : Cells Nat := []
  /-- COUNT of the last throttle and cap steps (R497, R498). -/
  lastThrottle : Option Nat := none
  lastCap : Option Nat := none
  /-- Consecutive 1 ms periods at or below DOWNTHR, by group (R495). -/
  downRun : Cells Nat := []
  /-- COUNT at which a cluster reached OPP 0x3 idle and uncharged (R495). -/
  idleSince : Cells Nat := []
  /-- A change of operating point in progress: group and its target (R494). -/
  changing : Cells Nat := []
  /-- The frequency point that the Ranger still has to request: its last request met BUSY (R427, R480). -/
  fpWanted : Option Nat := none
  /-- COUNT since which the 10 ms mean has been at or below 95 % of TDPCAP (R497). -/
  capCool : Option Nat := none
  /-- A sensor has read the trip threshold on two consecutive samples (R499). -/
  trip : Bool := false
  /-- COUNT since which every rank has reported a nominal refresh rate (R496). -/
  nominalSince : Option Nat := none
  /-- Ranks that last reported a refresh rate above nominal, as bits subchannel * 4 + rank (R496). -/
  hotRanks : Nat := 0
  deriving DecidableEq, Repr

/-- A DRAM burst of 16 words (R409): its words, and 0 good, 1 poisoned, 2 uncorrectable (R410, R420). -/
structure Burst where
  ws : List Word
  bad : Nat := 0
  deriving DecidableEq, Repr

/-- A mix bus beyond its registers (R194 to R197). -/
structure BusSt where
  /-- Blocks below this number have opened; blocks below that one have closed (Table 7.4). -/
  opened : Nat := 0
  closed : Nat := 0
  /-- OUTGAIN factors with the bus sample each applies from, newest first (CHAN.BUSGAIN). -/
  gains : List (Nat × Nat) := []
  deriving DecidableEq, Repr

/-- A Kerf lane's state (R139 to R145, Table 5.4). -/
structure LaneSt where
  /-- Input samples not yet conditioned: index of the first and the samples, original values (R140). -/
  rawAt : Int := 0
  raw : List Int := []
  /-- Conditioned history, newest first, and the index of the newest (R139). -/
  histAt : Int := 0
  hist : List Int := []
  /-- The DC estimate in units of 2^-20 of the S36 least significant bit (R141). -/
  dc : Int := 0
  /-- For a ring lane: the first sample of its next block (R152, R153), and MT when it was stopped (R154). -/
  nextBlock : Nat := 0
  stopAt : Option Nat := none
  deriving DecidableEq, Repr

/-- The Kerf engine beyond its registers. -/
structure KerfSt where
  lanes : Cells LaneSt := []
  /-- The coefficient store, keyed (bank * 16 + set) * 4096 + index (R146).
  [DESIGN CHOICE, log entry 12: unsafe] -/
  coefs : Cells Word := []
  /-- MTs at which a gang's swaps were accepted, latest first, keyed by gang (R148). -/
  swapAt : Cells (List Nat) := []
  /-- The cores whose frame requests wait, in order of arrival, and the one whose request is in progress (R151). -/
  reqs : List Nat := []
  serving : Option Nat := none
  deriving DecidableEq, Repr

/-- Who submitted a Baler job (R209, R227 to R229, R394). -/
inductive JobFrom where
  | host (q : Requester)
  | core (k : Nat)
  /-- A capture job: channel, MT of its first sample, frames since activation, ring and RINGSIZE (R229 to R231). -/
  | capture (ch mt frames ring size : Nat)
  /-- A Hedgerow job: segment, whether it codes a downstream entry, the place it serves, and its first sample's MT. -/
  | hedge (seg : Nat) (down : Bool) (place mt : Nat)
  deriving DecidableEq, Repr

/-- A job in a Baler unit's ring (R209, R223): its descriptor, and its staged input where it has one. -/
structure BalerJob where
  serial : Nat
  frm : JobFrom
  ws : List Word
  staged : List Word := []
  deriving DecidableEq, Repr

/-- A Baler unit: its jobs in order of arrival, the one running, the one suspended, and those that RECOVERY
discarded (R209, R210, R232). -/
structure BalerSt where
  jobs : List BalerJob := []
  running : Option Nat := none
  suspended : Option Nat := none
  discarded : List BalerJob := []
  deriving DecidableEq, Repr

/-- A detector of the tone set: DTMF, a single-frequency detector, or the line-up check (R174). -/
structure DetSt where
  /-- ONSET of the tone whose windows qualify, and the end of the last qualifying hop. -/
  onset : Option Nat := none
  last : Nat := 0
  /-- Failing hops since. -/
  fails : Nat := 0
  /-- ON has been declared, with the INDEX and LEVEL reported. -/
  on : Bool := false
  index : Nat := 0
  level : Nat := 0
  deriving DecidableEq, Repr

/-- What the tone disabler has seen on one signal (R168): hops since its tone began, whether the last hop held none, the
tone's phasor, the MT of its start or last reversal, and whether reversals stood at the interval of R168. -/
structure ToneWatch where
  run : Nat := 0
  missed : Bool := false
  was : Int × Int := (0, 0)
  since : Nat := 0
  reversed : Bool := false
  deriving DecidableEq, Repr

/-- The echo canceller of a channel (R158 to R169). -/
structure EchoSt where
  /-- The filter h in Q4.32, from delay BULK on (R158). -/
  h : List Int := []
  /-- The reference: the send signal at PROCRATE, oldest first, and the index at PROCRATE of the sample after it (R158). -/
  ref : List Int := []
  refEnd : Nat := 0
  /-- Receive samples and errors of the hop in progress, oldest first. -/
  rx : List Int := []
  err : List Int := []
  /-- Hops for which a declaration of double talk stays in force (R163). -/
  hang : Nat := 0
  /-- Far-end single talk was present in the last hop, and the sample index at which that last changed (R162, R164). -/
  single : Bool := false
  edge : Nat := 0
  /-- The near-end background in 16 bands; none measured yet reads as -90 dBFS (R165). -/
  bands : List Int := []
  /-- Receive and error energies of the hops of single talk in the last 100 ms of it (R169). -/
  erle : List (Nat × Nat) := []
  /-- Hops at 20 dB, hops of single talk below 10 dB, hops of single talk at which the divergence guard holds, and hops of
  single talk since RESET (R169, R172). -/
  good : Nat := 0
  poor : Nat := 0
  guard : Nat := 0
  talk : Nat := 0
  /-- The tone disabler on the receive signal and on the reference (R168). -/
  rxTone : ToneWatch := {}
  refTone : ToneWatch := {}
  /-- Hops in which both signals stayed below -39 dBFS (R168). -/
  quiet : Nat := 0
  deriving DecidableEq, Repr

/-- State of the functions of a chain that R90 resets: canceller, tone set, mix inputs, IFB, generator, tap. -/
structure FnSt where
  /-- Canceller state of Table 6.3: 0 RESET, 1 ADAPT, 2 CONVERGED, 3 FROZEN, 4 DISABLED. -/
  ec : Nat := 0
  /-- The states remembered by FROZEN and by DISABLED. -/
  ecFroze : Nat := 1
  ecHeld : Nat := 1
  /-- The tone disabler has switched the NLP off (R168). -/
  nlpOff : Bool := false
  /-- The echo canceller (R158 to R169). -/
  echo : EchoSt := {}
  /-- Detectors: 0 DTMF, 1 to 16 single-frequency detectors, 17 line-up. -/
  dets : Cells DetSt := []
  /-- The last samples at PROCRATE before the next frame, 64 ms of them, oldest first (R174). -/
  hist : List Int := []
  /-- Consecutive silent hops, the start of the first of them, the end of the last one, and the alarm (R179). -/
  silRun : Nat := 0
  silLast : Nat := 0
  silFrom : Nat := 0
  silOn : Bool := false
  /-- Signed factors of the MIXIN words at the end of the last frame, in Q4.32 (R201). -/
  mixGain : Cells Int := []
  /-- IFB: envelope in 2^-32, key, and blocks since the last keyed block (R206, R207). -/
  ifbE : Nat := 0
  ifbKey : Bool := false
  ifbCount : Nat := 0
  /-- The tone generator ran in the last frame, and descriptor words 9 and 10 as it ran (R180). -/
  genOn : Bool := false
  genSet : Word × Word := (0, 0)
  /-- Frames since activation (R231).
  [DEDUCED, log entry 122: unsafe] -/
  frames : Nat := 0
  /-- The CLEARED record of the first item after a restart is due (R182). -/
  cleared : Bool := false
  /-- MT of the first send output since activation or restart (R127). -/
  sendFrom : Option Nat := none
  deriving DecidableEq, Repr

/-- A custom function loaded from the image (R269): POS mask, entry, cost in 1/400 LU and state words. -/
structure CustomSt where
  mask : Nat
  load : Nat
  entry : Nat
  cost : Nat
  state : Nat
  words : Nat
  deriving DecidableEq, Repr

/-- A frame in the Flume (R312 to R332). Once its last octet has arrived, `data` is without the FCS. -/
structure FrameSt where
  /-- Ingress port, 0 to 66. -/
  src : Nat
  data : List Octet := []
  /-- The frame has arrived whole; with a wrong FCS or another error if `bad`. -/
  whole : Bool := true
  bad : Bool := false
  /-- COUNT and device time of its ingress timestamp (R57). -/
  inCount : Nat := 0
  inTime : Nat := 0
  /-- Its lookup missed the cache and its DRAM read is under way (R321). -/
  missed : Bool := false
  /-- Action words 5 to 7 of its entry or miss action, once the lookup has completed. -/
  act : Option (List Word) := none
  /-- The action is that of a flow entry, not of a miss (R319, R320). -/
  entry : Bool := false
  /-- Queue, and the channel or ring of its action. -/
  q : Nat := 0
  dest : Nat := 0
  launch : Option Nat := none
  /-- It is stored in the packet buffer. -/
  stored : Bool := false
  /-- It has been head of its queue: its class then (R345); its launch time reached; its threshold reached. -/
  judged : Bool := false
  cls : Nat := 0
  reached : Bool := false
  ready : Bool := false
  /-- A held PTP event frame (R58), judged when its transmission begins. -/
  held : Bool := false
  /-- Its transmission began, on a port that holds PTP event frames, before its header chain was at hand (R58). -/
  unseen : Bool := false
  /-- Its transmission has begun. -/
  begun : Bool := false
  /-- The compensation field's place and the amount to add there at its end (R61). -/
  fix : Option (Nat × Nat) := none
  /-- The transmit ring and descriptor tag of a frame from port 66 (R442). -/
  host : Option (Nat × Nat) := none
  deriving DecidableEq, Repr

/-- A frame handed to the receiver of an internal port (R26, R27, R443). -/
structure Delivered where
  dest : Nat
  src : Nat
  octets : List Octet
  inTime : Nat
  /-- It arrived on an Ethernet port under a flow entry with action CONTROL: it may be a management datagram (R30,
  R450). -/
  mgmt : Bool := false
  deriving DecidableEq, Repr

/-- A frame arriving at a MAC: its octets so far, its timestamp, and the frame in the Flume it has become. -/
structure RxSt where
  data : List Octet := []
  inCount : Nat := 0
  inTime : Nat := 0
  handed : Bool := false
  frame : Option Nat := none
  deriving DecidableEq, Repr

/-- A preemptable frame being reassembled (R377): its octets so far and the fragment count expected next. -/
structure AsmSt where
  data : List Octet
  inCount : Nat
  inTime : Nat
  count : Nat
  deriving DecidableEq, Repr

/-- A frame in transmission on a physical port: COUNT at the start of the present fragment and octets sent before. -/
structure TxSt where
  frame : Nat
  start : Nat
  before : Nat := 0
  pre : Bool := false
  deriving DecidableEq, Repr

/-- A port's transmit side: the frame in transmission, a preempted one with the octets sent, and, for an internal
port, COUNT at which it can take a new frame (R347). -/
structure PortTx where
  cur : Option TxSt := none
  held : Option (Nat × Nat) := none
  busy : Nat := 0
  deriving DecidableEq, Repr

/-- A port's gates beyond its registers: S and BASE of the operational list in ns, S and BASE of a pending one, and
the gate states last applied (R334 to R337). -/
structure GateSt where
  start : Nat := 0
  base : Nat := 0
  pend : Option (Nat × Nat) := none
  states : Nat := 0xFF
  deriving DecidableEq, Repr

/-- A token bucket: tokens in units of 10^-7 octets, at a COUNT (R351, R354).
[DEDUCED, log entry 91: unsafe] -/
structure TokSt where
  t : Int := 0
  at_ : Nat := 0
  deriving DecidableEq, Repr

/-- A DWRR node: the round list, children of weight 0 in turn, deficits, and the head that has had its quantum
(R350). -/
structure RoundSt where
  list : List Nat := []
  back : List Nat := []
  deficit : Cells Nat := []
  cur : Option Nat := none
  deriving DecidableEq, Repr

/-- The Flume, the Boom and the MACs beyond their registers. -/
structure FlumeSt where
  /-- The number of the next frame, and the frames in any stage. -/
  next : Nat := 0
  frames : Cells FrameSt := []
  /-- Frames in the classifier of each ingress port, in order of arrival (R322). -/
  waiting : Cells (List Nat) := []
  /-- Flow-cache sets: keys with their action words, or absent, most recently used first (R321). -/
  cache : Cells (List (List Word × Option (List Word))) := []
  /-- The IPv6 address table by index (R316). -/
  v6 : Cells Nat := []
  gates : Cells GateSt := []
  /-- Queues of the Boom, oldest frame first. -/
  queues : Cells (List Nat) := []
  /-- Token buckets: ports, tenants, services and policers, keyed kind * 65536 + number. -/
  toks : Cells TokSt := []
  portRounds : Cells RoundSt := []
  tenRounds : Cells RoundSt := []
  rx : Cells RxSt := []
  asm : Cells AsmSt := []
  tx : Cells PortTx := []
  /-- Verify mPackets sent in the present verification, by port (R375). -/
  verified : Cells Nat := []
  /-- COUNT at which the verify timer of a port expires (R375). -/
  verifyBy : Cells Nat := []
  /-- Frames handed to the channel ingress, the control cores and the host receive side, oldest first. -/
  toChan : List Delivered := []
  toCtl : List Delivered := []
  toHost : List Delivered := []
  /-- Ended frames of transmit rings: ring, descriptor tag and status (R442). -/
  txDone : List (Nat × Nat × Nat) := []
  deriving DecidableEq, Repr

/-- A frame that a Hedgerow segment has to send (Table 15.3). -/
inductive HgKind where
  | time | service | rollcall
  | poll (node : Nat)
  /-- The downstream entries of a node. -/
  | audio (node : Nat)
  | control (dst : Nat) (octets : List Octet)
  deriving DecidableEq, Repr

/-- A frame in transmission on a segment: its octets, COUNT at its start and the attempts made (R392). -/
structure HgSend where
  kind : HgKind
  octets : List Octet
  start : Nat
  deriving DecidableEq, Repr

/-- What a segment keeps of a node address (R390, R393, R395). -/
structure HgNode where
  /-- Consecutive polls without a valid REPLY, and with collisions or FCS errors. -/
  misses : Nat := 0
  clashes : Nat := 0
  /-- The cycle of its last valid AUDIO frame, and consecutive cycles without one. -/
  heard : Option Nat := none
  absent : Nat := 0
  deriving DecidableEq, Repr

/-- A Hedgerow job that waits for one of the segment's two places (R394). -/
structure HgJob where
  down : Bool
  place : Nat
  mt : Nat
  ws : List Word
  staged : List Word
  deriving DecidableEq, Repr

/-- A Hedgerow segment beyond its registers (R387 to R396). -/
structure HedgeSt where
  /-- SEQ of the next frame. -/
  seq : Nat := 0
  /-- The last cycle begun. -/
  cycle : Option Nat := none
  /-- Frames to send, oldest first, each not before a COUNT; the one in transmission; attempts at it; COUNT at which
  back-off ends, and at which the last frame ended. -/
  queue : List (HgKind × Nat) := []
  cur : Option HgSend := none
  attempts : Nat := 0
  backoff : Option Nat := none
  ended : Nat := 0
  /-- COUNT at which the last frame of a node ended. -/
  quiet : Nat := 0
  /-- The first cycle in which admitted nodes send AUDIO. -/
  audioFrom : Nat := 0
  /-- The address polled last; a REPLY to it is awaited; a collision or FCS error met; the first round has ended. -/
  polled : Nat := 0
  awaiting : Bool := false
  clash : Bool := false
  round : Bool := false
  nodes : Cells HgNode := []
  /-- Jobs of the segment in its unit, those that wait, and coded downstream entries by DOWN place. -/
  flight : Nat := 0
  jobs : List HgJob := []
  coded : Cells (List Word) := []
  deriving DecidableEq, Repr

/-- Lock of a slave TDM port or a MADI receiver (R399): the reference (its tick and start), the last frame index,
and the runs of frames within and out of tolerance. -/
structure LockSt where
  ref : Option (Nat × Nat) := none
  k : Nat := 0
  good : Nat := 0
  bad : Nat := 0
  deriving DecidableEq, Repr

/-- GPIO beyond its registers (R403, R404). -/
structure GpioSt where
  /-- Levels at the pins of inputs. -/
  pins : Nat := 0
  /-- New levels not yet accepted, by pin: COUNT and device time of the edge that began them. -/
  fresh : Cells (Nat × Nat) := []
  /-- Accepted levels with the first sample tick that sees them, newest first. -/
  past : List (Nat × Nat) := []
  /-- Timed changes in order of acceptance: MT of the instant, pin and level. -/
  timed : List (Nat × Nat × Bool) := []
  deriving DecidableEq, Repr

/-- The local audio ports beyond their registers. -/
structure AudioSt where
  hedges : Cells HedgeSt := []
  tdm : Cells LockSt := []
  madi : Cells LockSt := []
  gpio : GpioSt := {}
  /-- What the fixed converters hold (R384): inputs by converter, newest first. -/
  conv : Cells (List Int) := []
  /-- The MDIO access in progress: requester place, write, PHY, register (R387). -/
  mdio : Option (Nat × Bool × Nat × Nat) := none
  deriving DecidableEq, Repr

/-- A request that the memory controller has accepted or holds back (R413 to R415). -/
structure DramReq where
  /-- The requester, by its SOURCE code (Table 16.5). -/
  src : Nat
  /-- Host class: a BAR2 access or a host DMA read of a capture ring (R419). -/
  host : Bool
  burst : Nat
  write : Bool
  /-- The word mask of a write; all ones for a whole burst. -/
  mask : Nat := 0xFFFF
  ws : List Word := []
  /-- Of a read: its burst held the poison pattern (1) or an uncorrectable one (2) when it was accepted. -/
  bad : Nat := 0
  /-- The place of a read among the reads accepted. -/
  id : Nat := 0
  deriving DecidableEq, Repr

/-- A read accepted and not answered: what it returns once it has completed, none of it for an error response. -/
structure DramRead where
  id : Nat
  src : Nat
  burst : Nat
  done : Option (Option (List Word)) := none
  deriving DecidableEq, Repr

/-- A bank of a rank: its queue, oldest first, its open row with the requests to it in succession, and the rows that
wait for neighbour refresh (R415, R418). -/
structure BankSt where
  queue : List DramReq := []
  row : Option Nat := none
  streak : Nat := 0
  nbr : List Nat := []
  /-- The activate table: entry, row and count (R418). -/
  table : List (Nat × Nat × Nat) := []
  /-- Host-class activates of the window, and whether the bank is throttled (R419). -/
  hostActs : Nat := 0
  throttled : Bool := false
  deriving DecidableEq, Repr

/-- A subchannel: whether writes drain, the rotating pointer, device-class data slots since the last host-class one,
reads issued and not completed, requests whose commands were sent, newest first, and refreshes held by a pause. -/
structure SubSt where
  draining : Bool := false
  ptr : Nat := 0
  devRun : Nat := 3
  flight : List DramReq := []
  sent : List DramReq := []
  refresh : List Nat := []
  /-- COUNT at which its next drift pause falls due, from release.
  [DEDUCED, log entry 100: safe] -/
  nextPause : Option Nat := none
  deriving DecidableEq, Repr

/-- A lane's fine delay at a frequency point: steps from its trained value, the direction of its last samples and
how many of them agree (R426). -/
structure LaneDrift where
  steps : Int := 0
  dir : Int := 0
  run : Nat := 0
  deriving DecidableEq, Repr

/-- The memory controller beyond its registers. -/
structure McSt where
  /-- The error log, oldest entry first (R424). -/
  elog : List (List Word) := []
  /-- Banks, keyed subchannel * 128 + rank * 32 + bank * 8 + bank group. -/
  banks : Cells BankSt := []
  subs : Cells SubSt := []
  /-- Requests held back, oldest first, and reads not answered, in order of acceptance (R413, R415). -/
  held : List DramReq := []
  reads : List DramRead := []
  nextId : Nat := 0
  /-- COUNT before which a throttled requester issues no host-class request, by SOURCE (R419). -/
  hostNext : Cells Nat := []
  /-- The refresh window: COUNT at its start, FAST and BANKMAX in force for it (R417, R419). -/
  winStart : Nat := 0
  winFast : Bool := false
  winMax : Nat := 512
  /-- The subchannel in a drift pause (R426). -/
  pause : Option Nat := none
  /-- A change of frequency point has started (R428). -/
  changing : Bool := false
  /-- Fine delays, keyed point * 640 + subchannel * 40 + lane (R425, R426). -/
  drift : Cells LaneDrift := []
  /-- The burst that the patrol scrub reads next (R422). -/
  scrub : Nat := 0
  deriving DecidableEq, Repr

/-- A record of the image as staged (R467): TYPE, the octet of the slot it begins at, and its payload. -/
structure BootRec where
  ty : Nat
  off : Nat
  payload : List Octet
  deriving DecidableEq, Repr

/-- Where bring-up stands (R455, R471 to R473). -/
inductive BootPhase where
  | idle | fuse | flash | header | records | signature | pass1 | train | pass2 | reset | done
  deriving DecidableEq, Repr

/-- A slot as tried: its status, and the octet of the record that failed (Tables 18.16 and 19.9). -/
structure SlotTry where
  status : Nat
  off : Nat
  deriving DecidableEq, Repr

/-- Fuses, bring-up and what the image leaves outside registers (R454 to R475). -/
structure BootSt where
  /-- Fuse bits programmed since delivery (R461, R473).
  [DESIGN CHOICE, log entry 13: safe] -/
  burned : List Nat := []
  phase : BootPhase := .idle
  /-- BOOTSEL as sampled, the slot under trial, those left, and the two slots' outcomes: 0 A, 1 B. -/
  bootsel : Nat := 0
  slot : Nat := 0
  left : List Nat := []
  tries : Cells SlotTry := []
  /-- The header of the slot under trial (Table 18.4), octets read, records read, and what is still to be applied. -/
  rollFwd : Bool := false
  total : Nat := 0
  rollback : Nat := 0
  nrec : Nat := 0
  build : Nat := 0
  image : List Octet := []
  nread : Nat := 0
  pass1 : List BootRec := []
  pass2 : List BootRec := []
  /-- Boot entries of KC0 to KC3 (BOOT), patches (R268) and words of custom functions (R269). -/
  entries : Option (List Nat) := none
  patches : List (Nat × Nat) := []
  customWords : Nat := 0
  /-- Program memories, keyed memory * 2^18 + address: clusters 0 to 11, 12 the control program memory (R234). -/
  prog : Cells Word := []
  deriving DecidableEq, Repr

/-- States of the TAP (R508). -/
inductive TapState where
  | logicReset | idle | selectDr | captureDr | shiftDr | exit1Dr | pauseDr | exit2Dr | updateDr
  | selectIr | captureIr | shiftIr | exit1Ir | pauseIr | exit2Ir | updateIr
  deriving DecidableEq, Repr

/-- The test port (R508): the TAP, the instruction in force, its shift registers, and the boundary register's
latches. -/
structure JtagSt where
  trstN : Bool := false
  state : TapState := .logicReset
  code : Nat := 1
  ir : List Bool := []
  dr : List Bool := []
  latches : List Bool := []
  tdo : Option Bool := none
  deriving DecidableEq, Repr


/-- A word of an on-chip memory that holds an uncorrectable error until it is written anew (R155, R194, R236, R239).
[DESIGN CHOICE, log entry 141: safe] -/
inductive Upset where
  | mixCell (a : Nat)
  | localWord (k a : Nat)
  | progWord (mem a : Nat)
  | lane (l : Nat)
  /-- A coefficient by its place in the store. -/
  | coef (a : Nat)
  deriving DecidableEq, Repr

/-- The device: everything but the queue of waiting commands.
[DESIGN CHOICE, log entry 11: unsafe] -/
structure Chip where
  /-- COUNT (R42). -/
  count : Nat := 0
  /-- Draws of free values made so far: the model's own field, not the spec's.
  [DESIGN CHOICE, log entry 7: safe] -/
  draws : Nat := 0
  /-- Registers, keyed by BAR0 slot; an unlisted slot reads as its reset value (R9). -/
  regs : Cells Word := []
  /-- Per-requester registers, keyed by slot * 8 + requester (R31). -/
  preqs : Cells Word := []
  /-- Driven levels, frames, messages and read data, newest first.
  [DESIGN CHOICE, log entry 113: safe] -/
  out : List Output := []
  dev : DevSt := {}
  time : TimeSt := {}
  chutes : Cells ChuteSt := []
  /-- Words handed to the chute block that have not reached their chutes, oldest first (R298). -/
  arriving : List Arriving := []
  /-- The chute pool of 1 Mi entries (R296).
  [DESIGN CHOICE, log entry 9: unsafe] -/
  pool : Cells Entry := []
  cores : Cells CoreSt := []
  slots : Cells SlotSt := []
  /-- Staging buffers, keyed core * 2 + buffer (R278). -/
  bufs : Cells BufSt := []
  sqs : Cells SqSt := []
  /-- The submission queue that is served next: the PCIe link's 0, those of KC0 to KC3 1 to 4 (R292). -/
  sqTurn : Nat := 0
  chans : Cells ChanSt := []
  jbs : Cells JbSt := []
  host : HostSt := {}
  fault : FaultSt := {}
  ranger : RangerSt := {}
  /-- DRAM bursts written since bring-up, by burst address (R409, R470). -/
  dram : Cells Burst := []
  /-- Ranges of bursts zeroed by DRAMZERO and not written since: first burst and count (R469). -/
  zeroed : List (Nat × Nat) := []
  /-- Buses and cells of the mix store (R194). -/
  buses : Cells BusSt := []
  mix : Cells Int := []
  kerf : KerfSt := {}
  /-- Uncorrectable errors that stand in on-chip memories. -/
  upsets : List Upset := []
  /-- The Baler units (R209). -/
  balers : Cells BalerSt := []
  /-- Serial number of the next Baler job. -/
  serial : Nat := 0
  /-- Function state of the channels (R90). -/
  fns : Cells FnSt := []
  /-- Tone sets loaded from the image: 33 words each, by set number (R175). -/
  tonesets : Cells (List Word) := []
  /-- Custom functions loaded from the image, by FUNCID (R269). -/
  customs : Cells CustomSt := []
  /-- CHANNEL items in the staging buffers (R280). -/
  heads : Cells HeadSt := []
  flume : FlumeSt := {}
  audio : AudioSt := {}
  mc : McSt := {}
  boot : BootSt := {}
  jtag : JtagSt := {}
  deriving DecidableEq, Repr

end Sys2Proof.Machine
end

