-- ==== Sys2Proof/Machine/Status.lean ====
section
/-! DEFINITION. The common status codes of Table 1.13 (R37), the modes of Table 1.6 (R33) and the order of R39. -/
namespace Sys2Proof.Machine.St

/-- 0x00: completed as requested. -/
def OK : Nat := 0x00
/-- 0x01: the target is not in a state to accept the request. -/
def NOTREADY : Nat := 0x01
/-- 0x02: a quota or admission limit would be exceeded. -/
def QUOTA : Nat := 0x02
/-- 0x03: a strict Baler job met a block that does not fit. -/
def NOFIT : Nat := 0x03
/-- 0x04: in-line verification failed. -/
def VERIFY : Nat := 0x04
/-- 0x05: output space ran out at a whole-block boundary. -/
def SPACE : Nat := 0x05
/-- 0x06: decompressor output reached the limit. -/
def LIMIT : Nat := 0x06
/-- 0x07: malformed descriptor, record, datagram or coded block. -/
def FORMAT : Nat := 0x07
/-- 0x08: completed after its deadline, or dropped by a LATE policy. -/
def LATE : Nat := 0x08
/-- 0x09: discarded by RECOVERY or a restart. -/
def DISCARDED : Nat := 0x09
/-- 0x0A: uncorrectable memory error in data used. -/
def UNCORR : Nat := 0x0A
/-- 0x0B: signature or authentication check failed. -/
def AUTH : Nat := 0x0B
/-- 0x0C: image counter below the fuses' counter. -/
def ROLLBACK : Nat := 0x0C
/-- 0x0D: a field value is outside its range. -/
def RANGE : Nat := 0x0D
/-- 0x0E: unit busy. -/
def BUSY : Nat := 0x0E

/-- The place of a code in the order of R39: the lowest place is the one reported. -/
def prio (c : Nat) : Nat :=
  if c = DISCARDED then 1 else if c = UNCORR then 2
  else if c = AUTH then 3 else if c = ROLLBACK then 4 else if c = FORMAT then 5 else if c = RANGE then 6
  else if c = NOTREADY then 7 else if c = QUOTA then 8 else if c = BUSY then 9
  else if c = OK then 11 else 10

/-- The one code that is reported of those that apply (R39); OK where none applies. Among codes of one place
the first given stands: the one the engine met first.
[DEDUCED, log entry 42: unsafe] -/
def pick (l : List Nat) : Nat := l.foldl (fun a b => if prio b < prio a then b else a) OK

/-- The code of a check: the given code where the condition holds, else OK. -/
def when (c : Bool) (code : Nat) : Nat := if c then code else OK

end Sys2Proof.Machine.St

namespace Sys2Proof.Machine.Md

/-- Mode values of Table 1.6 (R33). -/
def OFF : Nat := 0x0
/-- HELD. -/
def HELD : Nat := 0x1
/-- FUSE. -/
def FUSE : Nat := 0x2
/-- LOAD. -/
def LOAD : Nat := 0x3
/-- TRAIN. -/
def TRAIN : Nat := 0x4
/-- ACQUIRE. -/
def ACQUIRE : Nat := 0x5
/-- RUN. -/
def RUN : Nat := 0x6
/-- ECO. -/
def ECO : Nat := 0x7
/-- HOLDOVER. -/
def HOLDOVER : Nat := 0x8
/-- DRAIN. -/
def DRAIN : Nat := 0x9
/-- RECOVERY. -/
def RECOVERY : Nat := 0xA
/-- TEST. -/
def TEST : Nat := 0xB

end Sys2Proof.Machine.Md
end

