-- ==== Sys2Proof/Machine/Ops.lean ====
section
/-! DEFINITION. The named operations over registers, counters, latches, free draws, outputs and interrupt lines
that every block uses. -/
namespace Sys2Proof

/-- The place of a requester among the copies of a per-requester register. -/
def Requester.idx : Requester → Nat
  | .pcie => 0 | .kc0 => 1 | .kc1 => 2 | .kc2 => 3 | .kc3 => 4 | .loader => 5

end Sys2Proof

namespace Sys2Proof.Machine

open Sys2Proof

/-- The BAR0 slot of a register. -/
def slotOf (r : RegName) (i j : Nat) : Nat := r.addr i j / 8

/-- A register's value. -/
def Chip.rd (c : Chip) (r : RegName) (i : Nat := 0) (j : Nat := 0) : Word :=
  Cells.get (wofNat (r.resetVal i)) (slotOf r i j) c.regs

/-- A register set to a value. -/
def Chip.wr (r : RegName) (v : Word) (i : Nat := 0) (j : Nat := 0) (c : Chip) : Chip :=
  { c with regs := Cells.set (wofNat (r.resetVal i)) (slotOf r i j) v c.regs }

/-- A requester's copy of a register. -/
def Chip.rdq (c : Chip) (q : Requester) (r : RegName) (i : Nat := 0) (j : Nat := 0) : Word :=
  Cells.get (wofNat (r.resetVal i)) (slotOf r i j * 8 + q.idx) c.preqs

/-- A requester's copy of a register set to a value. -/
def Chip.wrq (q : Requester) (r : RegName) (v : Word) (i : Nat := 0) (j : Nat := 0) (c : Chip) : Chip :=
  { c with preqs := Cells.set (wofNat (r.resetVal i)) (slotOf r i j * 8 + q.idx) v c.preqs }

/-- A field of a register. -/
def Chip.fld (c : Chip) (f : Fld) (i : Nat := 0) (j : Nat := 0) : Nat := wbits (c.rd f.reg i j) f.hi f.lo

/-- A one-bit field of a register. -/
def Chip.flag (c : Chip) (f : Fld) (i : Nat := 0) (j : Nat := 0) : Bool := c.fld f i j == 1

/-- A field of a register set to a value, modulo its width. -/
def Chip.put (f : Fld) (v : Nat) (i : Nat := 0) (j : Nat := 0) (c : Chip) : Chip :=
  c.wr f.reg (wput (c.rd f.reg i j) f.hi f.lo v) i j

/-- A field of a requester's register. -/
def Chip.fldq (c : Chip) (q : Requester) (f : Fld) (i : Nat := 0) (j : Nat := 0) : Nat :=
  wbits (c.rdq q f.reg i j) f.hi f.lo

/-- A field of a requester's register set to a value. -/
def Chip.putq (q : Requester) (f : Fld) (v : Nat) (i : Nat := 0) (j : Nat := 0) (c : Chip) : Chip :=
  c.wrq q f.reg (wput (c.rdq q f.reg i j) f.hi f.lo v) i j

/-- The largest value of a field. -/
def Fld.top (f : Fld) : Nat := 2 ^ (f.hi + 1 - f.lo) - 1

/-- A counter raised by `n`, held at its largest value. -/
def Chip.bump (f : Fld) (n : Nat := 1) (i : Nat := 0) (j : Nat := 0) (c : Chip) : Chip :=
  c.put f (min f.top (c.fld f i j + n)) i j

/-- A counter of use raised by `n`. -/
def Chip.addTo (f : Fld) (n : Nat) (i : Nat := 0) (j : Nat := 0) (c : Chip) : Chip := c.put f (c.fld f i j + n) i j

/-- A counter of use lowered by `n`, never below 0. -/
def Chip.subFrom (f : Fld) (n : Nat) (i : Nat := 0) (j : Nat := 0) (c : Chip) : Chip := c.put f (c.fld f i j - n) i j

/-- A status recorded in a LASTERR field; OK records nothing.
[DEDUCED, log entry 42: unsafe] -/
def Chip.err (f : Fld) (st : Nat) (i : Nat := 0) (j : Nat := 0) (c : Chip) : Chip :=
  if st = St.OK then c else c.put f st i j

/-- A status recorded in a requester's LASTERR field; OK records nothing. -/
def Chip.errq (q : Requester) (f : Fld) (st : Nat) (i : Nat := 0) (j : Nat := 0) (c : Chip) : Chip :=
  if st = St.OK then c else c.putq q f st i j

/-- Something driven or sent.
[DESIGN CHOICE, log entry 113: safe] -/
def Chip.emit (o : Output) (c : Chip) : Chip := { c with out := o :: c.out }

/-- The next free draw's number; the draw is counted.
[DESIGN CHOICE, log entry 7: safe] -/
def Chip.draw (c : Chip) : Nat × Chip := (c.draws, { c with draws := c.draws + 1 })

/-- A free bit.
[DESIGN CHOICE, log entry 7: safe] -/
def Chip.drawBit (c : Chip) : Bool × Chip := (Config.freeBit c.draws, { c with draws := c.draws + 1 })

/-- A free natural number.
[DESIGN CHOICE, log entry 7: safe] -/
def Chip.drawNat (c : Chip) : Nat × Chip := (Config.freeNat c.draws, { c with draws := c.draws + 1 })

/-- A free integer.
[DESIGN CHOICE, log entry 7: safe] -/
def Chip.drawInt (c : Chip) : Int × Chip := (Config.freeInt c.draws, { c with draws := c.draws + 1 })

/-- Free samples: `n` integers saturated to S36.
[DESIGN CHOICE, log entry 7: safe] -/
def Chip.drawSamples (n : Nat) (c : Chip) : List Int × Chip :=
  let l := Config.freeInts c.draws
  ((List.range n).map (fun i => sat36 (l.getD i 0)), { c with draws := c.draws + 1 })

/-- Free octets: `n` of them.
[DESIGN CHOICE, log entry 7: safe] -/
def Chip.drawOctets (n : Nat) (c : Chip) : List Octet × Chip :=
  let l := Config.freeOctets c.draws
  ((List.range n).map (fun i => l.getD i 0), { c with draws := c.draws + 1 })

/-- The upset that a draw of the environment names. -/
def upsetOf : Nat × Nat × Nat → Option Upset
  | (0, _, a) => some (.mixCell a)
  | (1, k, a) => some (.localWord k a)
  | (2, m, a) => some (.progWord m a)
  | (3, _, a) => some (.lane a)
  | (4, _, a) => some (.coef a)
  | _ => none

/-- A word of an on-chip memory holds an uncorrectable error.
[DESIGN CHOICE, log entry 141: safe] -/
def Chip.upset (c : Chip) (u : Upset) : Bool := c.upsets.contains u

/-- A word of an on-chip memory was written anew, or its error handled. -/
def Chip.heal (u : Upset) (c : Chip) : Chip := { c with upsets := c.upsets.filter (· ≠ u) }

/-- Applies a change where a condition holds. -/
def Chip.iff (b : Bool) (f : Chip → Chip) (c : Chip) : Chip := if b then f c else c

/-- The time unit changed. -/
def Chip.modTime (f : TimeSt → TimeSt) (c : Chip) : Chip := { c with time := f c.time }

/-- The host link changed. -/
def Chip.modHost (f : HostSt → HostSt) (c : Chip) : Chip := { c with host := f c.host }

/-- The fault state changed. -/
def Chip.modFault (f : FaultSt → FaultSt) (c : Chip) : Chip := { c with fault := f c.fault }

/-- The Ranger changed. -/
def Chip.modRanger (f : RangerSt → RangerSt) (c : Chip) : Chip := { c with ranger := f c.ranger }

/-- The pins changed. -/
def Chip.modDev (f : DevSt → DevSt) (c : Chip) : Chip := { c with dev := f c.dev }

/-- A core's state. -/
def Chip.core (c : Chip) (k : Nat) : CoreSt := Cells.get {} k c.cores

/-- A core changed. -/
def Chip.modCore (k : Nat) (f : CoreSt → CoreSt) (c : Chip) : Chip := { c with cores := Cells.modify {} k f c.cores }

/-- A jitter buffer's state. -/
def Chip.jb (c : Chip) (ch : Nat) : JbSt := Cells.get {} ch c.jbs

/-- A jitter buffer changed. -/
def Chip.modJb (ch : Nat) (f : JbSt → JbSt) (c : Chip) : Chip := { c with jbs := Cells.modify {} ch f c.jbs }

/-- A channel that is not IDLE changed. -/
def Chip.modChan (ch : Nat) (f : ChanSt → ChanSt) (c : Chip) : Chip :=
  match Cells.find? ch c.chans with
  | none => c
  | some x => { c with chans := Cells.insert ch (f x) c.chans }

/-- A slot of the scheduler changed, if occupied. -/
def Chip.modSlot (n : Nat) (f : SlotSt → SlotSt) (c : Chip) : Chip :=
  match Cells.find? n c.slots with
  | none => c
  | some x => { c with slots := Cells.insert n (f x) c.slots }

/-- A ring's state. -/
def Chip.ring (c : Chip) (r : Nat) : RingSt := Cells.get {} r c.host.rings

/-- A ring changed. -/
def Chip.modRing (r : Nat) (f : RingSt → RingSt) (c : Chip) : Chip :=
  c.modHost (fun h => { h with rings := Cells.modify {} r f h.rings })

/-- The reported mode (GLOBAL.MODE, R33). -/
def Chip.mode (c : Chip) : Nat := c.fld F.global_MODE_MODE

/-- The base mode (FAULT.BASE, R476). -/
def Chip.base (c : Chip) : Nat := c.fld F.fault_BASE_BASE

/-- The channel domain is recovering (R34). -/
def Chip.chanRec (c : Chip) : Bool := c.flag F.global_RECOVERING_CHANNEL

/-- The forwarding domain is recovering (R34). -/
def Chip.fwdRec (c : Chip) : Bool := c.flag F.global_RECOVERING_FORWARDING

/-- The device has been released and is in a mode after release. -/
def Chip.live (c : Chip) : Bool := c.dev.released

/-- An MSI-X message is sent, or its pending bit set where the vector or the function is masked (R448); in D3hot none
is sent and none is kept (R431).
[DEDUCED, log entry 78: unsafe] -/
def Chip.sendMsix (v : Nat) (c : Chip) : Chip :=
  if c.dev.d3hot then c
  else if c.host.funcMask ∨ ¬ c.host.unmasked.testBit v then
    c.modHost (fun h => { h with msixPending := h.msixPending ||| 2 ^ v })
  else c.emit (.msix v)

/-- Source `k` of Table 17.5 newly holds: its vector's message is sent where enabled (R447). -/
def Chip.irq (k : Nat) (c : Chip) : Chip :=
  if c.flag F.hostdma_IRQMAP_EN k then c.sendMsix (c.fld F.hostdma_IRQMAP_VEC k) else c

/-- An interrupt line becomes pending on one control core that has it enabled; it ends WFI (R265). -/
def Chip.lineOn (kc line : Nat) (c : Chip) : Chip :=
  c.modCore (96 + kc) (fun k => if k.imask.testBit line then
    { k with ipend := k.ipend ||| 2 ^ line, wait := if k.wait = .wfi then .run else k.wait } else k)

/-- An interrupt line becomes pending on every control core that has it enabled (R265). -/
def Chip.line (line : Nat) (c : Chip) : Chip := forRange 4 (fun k => Chip.lineOn k line) c

/-- Event bits set in an event field; the bits newly set are returned. -/
def Chip.setEvent (f : Fld) (bit : Nat) (i : Nat := 0) (c : Chip) : Bool × Chip :=
  let v := c.fld f i
  (!v.testBit bit, c.put f (v ||| 2 ^ bit) i)

/-- A FAULT.EVENT bit sets: line 3 and source 2 (R481, Table 17.5). -/
def Chip.faultEvent (f : Fld) (c : Chip) : Chip :=
  let was := c.flag f
  let c := (c.put f 1).line 3
  if was then c else c.irq 2

end Sys2Proof.Machine
end

