-- ==== Sys2Proof/Machine/TimeBase.lean ====
section
/-! DEFINITION. Device time, media time, launch-time form, the event-timestamp chute and the time outputs
(R42 to R50, R64 to R77). Device time is a number of 2^-16 ns since the PTP epoch. -/
namespace Sys2Proof.Machine

open Sys2Proof

/-- 2^-16 ns steps in a second. -/
def tSec : Nat := 1000000000 * 65536

/-- COUNT is 72 bits wide (R42). -/
def countSpan : Nat := 2 ^ 72

/-- Counts from ANCHOR_C to a count, across the wrap of COUNT where there is one (R42, R43).
[DEDUCED, log entry 130: unsafe] -/
def Anchor.elapsed (a : Anchor) (n : Nat) : Nat := if a.c ≤ n then n - a.c else n + countSpan - a.c

/-- Time on a line at a count (R43): the product exact, the sum truncated to 2^-16 ns. -/
def Anchor.eval (a : Anchor) (n : Nat) : Nat := (a.t + (((a.elapsed n * a.rate) / 65536 : Nat) : Int)).toNat

/-- The line of time in force at a count.
[DEDUCED, log entry 33: unsafe] -/
def TimeSt.lineAt (t : TimeSt) (n : Nat) : Anchor :=
  match t.next with
  | some (x, a) => if x ≤ n then a else t.cur
  | none => t.cur

/-- The newest line of time, whether or not its first count has come. -/
def TimeSt.newest (t : TimeSt) : Anchor := match t.next with | some (_, a) => a | none => t.cur

/-- Device time at a count (R43). -/
def Chip.timeAt (c : Chip) (n : Nat) : Nat := (c.time.lineAt n).eval n

/-- Device time now (R43). -/
def Chip.now (c : Chip) : Nat := c.timeAt c.count

/-- A time in launch-time form: nanoseconds modulo 2^36 (Table 0.5). -/
def launchForm (t : Nat) : Nat := (t / 65536) % 2 ^ 36

/-- Media time of a device time (R70). -/
def mtOf (t : Nat) : Nat := t * 48000 / tSec

/-- MT now (R70). -/
def Chip.mt (c : Chip) : Nat := mtOf c.now

/-- The sub-tick count of a device time: MT * 16 + floor(16 * fraction of the sample elapsed) (Table 2.6). -/
def subtickOf (t : Nat) : Nat := t * 768000 / tSec

/-- The sub-tick count now. -/
def Chip.subtick (c : Chip) : Nat := subtickOf c.now

/-- The exact instant of sample tick `n`, rounded up to 2^-16 ns (R70). -/
def tickInstant (n : Nat) : Nat := ceilDiv (n * tSec) 48000

/-- The first count, after the present one, at which device time reaches `t` (R70), before any wrap of COUNT.
[DESIGN CHOICE, log entry 4: safe] [DEDUCED, log entry 130: unsafe] -/
def Chip.countReaching (c : Chip) (t : Nat) : Nat :=
  let a := c.time.newest
  let n := a.c + ceilDiv (((t : Int) - a.t).toNat * 65536) a.rate
  max (c.count + 1) (if a.c ≤ c.count + 1 then n else n - countSpan)

/-- COUNT takes a later value, modulo 2^72 (R42). At the wrap the line of time in force is kept as ANCHOR.
[DEDUCED, log entry 130: unsafe] -/
def Chip.setCount (n : Nat) (c : Chip) : Chip :=
  if n < countSpan then { c with count := n }
  else { c with count := n % countSpan, time := { c.time with
    cur := { c.time.lineAt n with c := (c.time.lineAt n).c % countSpan }, next := none } }

/-- B, the block size in samples (Table 2.6, TIME.LADDER.BLOCK). -/
def Chip.blockB (c : Chip) : Nat := 6 * 2 ^ min 6 (c.fld F.time_LADDER_BLOCK)

/-- Seconds of a device time. -/
def secOf (t : Nat) : Nat := t / tSec

/-- Nanoseconds of a device time within its second (R44). -/
def nsOf (t : Nat) : Nat := t % tSec / 65536

/-- The fraction of a device time in 2^-16 ns (R44). -/
def fracOf (t : Nat) : Nat := t % 65536

/-- A change of the line of time taken at the next count. A change already waiting for that count is built on.
[DEDUCED, log entry 33: unsafe] -/
def Chip.relineNext (f : Nat → Anchor → Anchor) (c : Chip) : Chip :=
  let x := c.count + 1
  let cur := c.time.lineAt c.count
  c.modTime (fun t => { t with cur := cur, next := some (x, f x (match t.next with
    | some (y, a) => if y ≤ c.count then cur else a
    | none => cur)) })

/-- RATE changes: re-anchored at the first count after (R45).
[DEDUCED, log entry 33: unsafe] [DEDUCED, log entry 119: unsafe] -/
def Chip.setRate (rate : Nat) (c : Chip) : Chip :=
  (c.relineNext (fun x a => { t := a.eval x, c := x, rate := rate })).wr .time_RATE (wofNat rate)

/-- A record pushed into the event-timestamp chute, whole or not at all (R64 to R66). -/
def Chip.pushEvt (w0 w1 w2 w3 : Word) (c : Chip) : Chip :=
  if 16384 < c.time.evt.length + 4 then
    (c.bump F.time_EVT_DROPS_DROPS).modTime (fun t => { t with evtGap := true })
  else
    let c := c.modTime (fun t => { t with
      evt := t.evt ++ [⟨w0, false, t.evtGap⟩, ⟨w1, false, false⟩, ⟨w2, false, false⟩, ⟨w3, true, false⟩]
      evtGap := false })
    c.put F.time_EVT_COUNT_RECORDS (c.time.evt.length / 4)

/-- A record of Table 2.4. -/
def Chip.stampEvt (kind source : Nat) (edge : Bool) (msgType seq domain t : Nat) (c : Chip) : Chip :=
  let sec := secOf t
  c.pushEvt
    (wofNat (kind * 2 ^ 32 + source % 128 * 2 ^ 25 + b2n edge * 2 ^ 24 + msgType % 16 * 2 ^ 20 + seq % 65536))
    (wofNat (nsOf t)) (wofNat sec)
    (wofNat (sec / 2 ^ 36 % 4096 * 2 ^ 24 + domain % 256 * 65536 + fracOf t))

/-- A pop of the event-timestamp chute: the entry, none where it is empty (R64, R257). The count at which a
GAP-tagged record is popped is kept for R67. -/
def Chip.popEvt (c : Chip) : Option Entry × Chip :=
  match c.time.evt with
  | [] => (none, c)
  | e :: r =>
    let c := c.modTime (fun t => { t with evt := r, gapPopped := if e.gap then some c.count else t.gapPopped })
    (some e, c.put F.time_EVT_COUNT_RECORDS (c.time.evt.length / 4))

/-- The output of R76 may run: enabled, and LOCKED seen where ONLYLOCKED asks for it. -/
def Chip.outGate (c : Chip) (en only : Fld) : Bool := c.flag en && (!c.flag only || c.time.seenLocked)

/-- Half a step of the count, in 2^-17 ns: edges fall on the nearest count (R76). -/
def Chip.halfStep (c : Chip) : Nat := (c.time.lineAt c.count).rate / 65536

/-- The level PPS_OUT has now (R76). -/
def Chip.ppsLevel (c : Chip) : Bool :=
  let off := signed 24 (c.fld F.time_PPSO_OFFSET)
  let t : Int := 2 * (c.now : Int) + c.halfStep - off * 131072
  c.outGate F.time_PPSO_EN F.time_PPSO_ONLYLOCKED &&
    decide (t % (2 * tSec : Nat) < (c.fld F.time_PPSO_WIDTH * 2 * 65536000000 : Nat))

/-- The level WCLK_OUT has now: high from a sample tick to 10,416.67 ns after its instant (R76). -/
def Chip.wclkLevel (c : Chip) : Bool :=
  let start := tickInstant c.mt
  c.outGate F.time_WCLKO_EN F.time_WCLKO_ONLYLOCKED &&
    decide (2 * c.now + c.halfStep < 2 * start + 2 * 682666885)

/-- The rising-edge rate of FREQ_OUT in Hz for SEL 0 to 4 (Table 2.8). -/
def freqHz (sel : Nat) : Nat :=
  if sel = 0 then 10000000 else if sel = 1 then 1000000 else if sel = 2 then 6144000
  else if sel = 3 then 12288000 else 24576000

/-- Video frame length in samples as a fraction (Table 2.7): numerator and denominator, by RUNG code. -/
def rungD (r : Nat) : Nat × Nat :=
  if r = 0 then (2000, 1) else if r = 1 then (2002, 1) else if r = 2 then (1920, 1) else if r = 3 then (1600, 1)
  else if r = 4 then (8008, 5) else if r = 5 then (960, 1) else if r = 6 then (800, 1) else (4004, 5)

/-- The first sample of video frame `k` (R71, R73): ceil(k * D). -/
def frameStart (r k : Nat) : Nat := ceilDiv (k * (rungD r).1) (rungD r).2

/-- The number of the video frame that sample `m` lies in: the last frame that has begun. -/
def frameOf (r m : Nat) : Nat := m * (rungD r).2 / (rungD r).1

/-- The video frame of FREQ_OUT that the present sample lies in (SEL 0x5). -/
def Chip.freqFrame (c : Chip) : Nat := frameOf (c.fld F.time_FREQO_RUNG) c.mt

/-- The level FREQ_OUT has now (R76, Table 2.8); for an odd frame length either of the two ticks nearest the
half is allowed, chosen by `odd` once for the frame.
[DEDUCED, log entry 41: safe] -/
def Chip.freqLevel (c : Chip) (odd : Bool) : Bool :=
  let sel := c.fld F.time_FREQO_SEL
  c.outGate F.time_FREQO_EN F.time_FREQO_ONLYLOCKED &&
    (if sel = 5 then
      let r := c.fld F.time_FREQO_RUNG
      let k := frameOf r c.mt
      let len := frameStart r (k + 1) - frameStart r k
      decide (c.mt - frameStart r k < (if odd then (len + 1) / 2 else len / 2))
    else ((2 * c.now + c.halfStep) * (2 * freqHz sel) / (2 * tSec)) % 2 == 0)

end Sys2Proof.Machine
end

