-- ==== Sys2Proof/Machine/Dram.lean ====
section
/-! DEFINITION. DRAM as its users see it: the fitted capacity, the place of a burst, the error log, and reads and
writes of bursts and words (R406 to R414, R420, R424). The controller's queues and its commands are in Mem. -/
namespace Sys2Proof.Machine

open Sys2Proof

namespace Mt
/-- Error types of Table 16.5. -/
def CORR : Nat := 1
/-- Uncorrectable. -/
def UNCORR : Nat := 2
/-- Command and address parity. -/
def CAPAR : Nat := 3
/-- The poison pattern. -/
def POISON : Nat := 4
/-- A lane at its drift limit. -/
def DRIFT : Nat := 5
/-- Host throttling. -/
def THROTTLE : Nat := 6
/-- An address beyond the fitted capacity. -/
def RANGE : Nat := 7
end Mt

namespace Src
/-- Sources of Table 16.5. -/
def SKIDDER : Nat := 0
/-- The flow table. -/
def FLOW : Nat := 1
/-- The channel ingress. -/
def INGRESS : Nat := 2
/-- The Baler. -/
def BALER : Nat := 3
/-- Cores and Kerf ring lanes. -/
def CORES : Nat := 4
/-- The BAR2 window. -/
def BAR2 : Nat := 5
/-- Host DMA. -/
def HOSTDMA : Nat := 6
/-- The patrol scrub. -/
def SCRUB : Nat := 7
/-- The controller itself. -/
def CTL : Nat := 8
end Src

/-- Where a burst lies in the DRAM (Table 16.2). -/
structure DramPlace where
  sub : Nat
  col : Nat
  bg : Nat
  bank : Nat
  rank : Nat
  dimm : Nat
  row : Nat
  deriving DecidableEq, Repr

/-- The place of a burst address, its fields taken from bit 0 upward (R412, Table 16.2). -/
def Chip.place (c : Chip) (b : Nat) : DramPlace :=
  let cw := c.fld F.mc_CFG_CHANNELS + 1
  let rw := c.fld F.mc_CFG_RANKS
  let dw := c.fld F.mc_CFG_DIMMS
  let chan := nbits b cw 1
  let x := b / 2 ^ (cw + 1)
  let k := x / 4096
  let row := k / 2 ^ (rw + dw) % 2 ^ (if c.flag F.mc_CFG_DENSITY then 17 else 16)
  { sub := chan * 2 + b % 2
    col := x % 4 + 4 * nbits x 11 7
    bg := Nat.xor (nbits x 4 2) (row % 8)
    bank := Nat.xor (nbits x 6 5) (row / 8 % 4)
    rank := k % 2 ^ rw
    dimm := k / 2 ^ rw % 2 ^ dw
    row := row }

/-- The counter of MC.CNT that counts a type; RANGE has none. -/
def dramCnt (ty : Nat) : Option Nat :=
  if ty = Mt.CORR then some 0 else if ty = Mt.UNCORR then some 1 else if ty = Mt.CAPAR then some 2
  else if ty = Mt.POISON then some 3 else if ty = Mt.THROTTLE then some 5 else if ty = Mt.DRIFT then some 7 else none

/-- The type of a log entry gives way when the log is full (R424). -/
def logLow (ty : Nat) : Bool := ty == Mt.CORR || ty == Mt.DRIFT || ty == Mt.THROTTLE

/-- The error log changed, with ELOGCNT. -/
def Chip.setElog (l : List (List Word)) (c : Chip) : Chip :=
  { c with mc := { c.mc with elog := l } }.put F.mc_ELOGCNT_ENTRIES l.length

/-- An entry enters the error log (R424).
[DEDUCED, log entry 126: unsafe] -/
def Chip.pushElog (ty : Nat) (e : List Word) (c : Chip) : Chip :=
  let l := c.mc.elog
  let low (x : List Word) : Bool := logLow (wbits (x.getD 0 0) 35 32)
  if l.length < 64 then c.setElog (l ++ [e])
  else if logLow ty then c.bump F.mc_CNT_COUNT 1 6
  else match l.findIdx? low with
    | some i => c.setElog (l.eraseIdx i ++ [e])
    | none => c.bump F.mc_CNT_COUNT 1 6

/-- An entry of Table 16.5 for a place. -/
def Chip.elogEntry (c : Chip) (ty src b dev beat : Nat) (p : DramPlace) : List Word :=
  [wofNat (ty * 2 ^ 32 + src * 2 ^ 28 + p.sub * 2 ^ 24 + p.rank * 2 ^ 23 + p.dimm * 2 ^ 22 + p.bg * 2 ^ 19
      + p.bank * 2 ^ 17 + dev * 2 ^ 13 + beat * 2 ^ 9),
   wofNat (b % 2 ^ 34), wofNat (launchForm c.now), wofNat (p.row * 2 ^ 19 + p.col * 2 ^ 12)]

/-- An event about a burst is counted and logged (R412, R420 to R424). A corrected error is also a correctable
fault (R481).
[DEDUCED, log entry 126: unsafe] -/
def Chip.logDram (ty src b dev beat : Nat) (c : Chip) : Chip :=
  let c := match dramCnt ty with | some k => c.bump F.mc_CNT_COUNT 1 k | none => c
  let c := c.iff (ty == Mt.CORR) (Chip.bump F.fault_CNT_COUNT 1 0)
  c.pushElog ty (c.elogEntry ty src b dev beat (c.place b))

/-- The number of DRAM bursts fitted: capacity counts the 64 octets of the data lanes in a burst, so a GiB is 2^24
bursts (R407). -/
def Chip.dramBursts (c : Chip) : Nat := c.fld F.mc_STATUS_GIB * 2 ^ 24

/-- A burst that DRAMZERO covers. -/
def Chip.isZeroed (c : Chip) (b : Nat) : Bool := c.zeroed.any (fun r => decide (r.1 ≤ b ∧ b < r.1 + r.2))

/-- A burst of zeros. -/
def zeroBurst : Burst := { ws := List.replicate 16 0 }

/-- A DRAM burst: what was written since bring-up, zeros where DRAMZERO covered it, else free words, or a free
error (R409, R470).
[DESIGN CHOICE, log entry 8: safe] -/
def Chip.burst (c : Chip) (b : Nat) : Burst :=
  match Cells.find? b c.dram with
  | some x => x
  | none =>
    if c.isZeroed b then zeroBurst
    else { ws := (List.range 16).map (fun i => Config.dramWord (16 * b + i)),
           bad := if Config.dramUncorrectable b then 2 else 0 }

/-- A read of the burst is answered with data: it lies in the fitted DRAM and is neither poisoned nor
uncorrectable (R410, R412, R420). -/
def Chip.burstOk (c : Chip) (b : Nat) : Bool := decide (b < c.dramBursts) && (c.burst b).bad == 0

/-- A DRAM word; zero where its burst is answered with an error response. -/
def Chip.word (c : Chip) (a : Nat) : Word :=
  if c.burstOk (a / 16) then (c.burst (a / 16)).ws.getD (a % 16) 0 else 0

/-- `n` DRAM words from a word address on. -/
def Chip.words (c : Chip) (a n : Nat) : List Word := (List.range n).map (fun i => c.word (a + i))

/-- Every burst of a range of words is answered with data. -/
def Chip.rangeOk (c : Chip) (a n : Nat) : Bool :=
  if n = 0 then true
  else (List.range ((a + n - 1) / 16 + 1 - a / 16)).all (fun i => c.burstOk (a / 16 + i))

/-- The error type that a read of the burst is answered with; none where it returns data (R420). -/
def Chip.readFault (c : Chip) (b : Nat) : Option Nat :=
  if c.dramBursts ≤ b then some Mt.RANGE
  else if (c.burst b).bad = 1 then some Mt.POISON
  else if (c.burst b).bad = 0 then none else some Mt.UNCORR

/-- A read of `n` words by a source: every burst of it that is answered with an error response is logged (R420). -/
def Chip.readLog (src a n : Nat) (c : Chip) : Chip :=
  (List.range (if n = 0 then 0 else (a + n - 1) / 16 + 1 - a / 16)).foldl (fun c i =>
    match c.readFault (a / 16 + i) with
    | some ty => c.logDram ty src (a / 16 + i) 15 15
    | none => c) c

/-- A burst stored. One that reads so unlisted, where that is known, is not listed: the canonical form of the DRAM. -/
def Chip.setBurst (b : Nat) (x : Burst) (c : Chip) : Chip :=
  { c with dram := if x = zeroBurst ∧ c.isZeroed b = true then Cells.erase b c.dram else Cells.insert b x c.dram }

/-- A burst written whole; a write outside the fitted DRAM has no effect (R412). -/
def Chip.putBurst (b : Nat) (ws : List Word) (c : Chip) : Chip :=
  if b < c.dramBursts then c.setBurst b { ws := ws } else c

/-- The poison pattern written to a burst (R410, R414, R421). -/
def Chip.poison (b : Nat) (c : Chip) : Chip :=
  if b < c.dramBursts then c.setBurst b { ws := (c.burst b).ws, bad := 1 } else c

/-- A burst's 16 words with some replaced from an offset on. -/
def mergeWords (off : Nat) (ws old : List Word) : List Word :=
  (List.range 16).map (fun i => if off ≤ i ∧ i < off + ws.length then ws.getD (i - off) 0 else old.getD i 0)

/-- Words written inside one burst from an offset on: a whole burst is replaced. A part is read, merged and
written; where the read is uncorrectable, or finds the poison pattern, the poison pattern is written and the error logged
(R410, R414). A write outside the fitted DRAM is logged (R412). -/
def Chip.putSlice (src b off : Nat) (ws : List Word) (c : Chip) : Chip :=
  if c.dramBursts ≤ b then c.logDram Mt.RANGE src b 15 15
  else if ws.length = 16 then c.putBurst b ws
  else if c.burstOk b then
    c.putBurst b (mergeWords off ws (c.burst b).ws)
  else (c.poison b).logDram (if (c.burst b).bad = 1 then Mt.POISON else Mt.UNCORR) src b 15 15

/-- The number of bursts that a range of words touches. -/
def burstSpan (a n : Nat) : Nat := if n = 0 then 0 else (a + n - 1) / 16 + 1 - a / 16

/-- Words written from a word address on by a source of Table 16.5, burst by burst.
[DEDUCED, log entry 95: unsafe] -/
def Chip.putWords (a : Nat) (ws : List Word) (c : Chip) (src : Nat := Src.SKIDDER) : Chip :=
  (List.range (burstSpan a ws.length)).foldl (fun c i =>
    let lo := if i = 0 then 0 else (a / 16 + i) * 16 - a
    let off := if i = 0 then a % 16 else 0
    c.putSlice src (a / 16 + i) off ((ws.drop lo).take (16 - off))) c

/-- One word written: a masked write of its burst (R414). -/
def Chip.putWord (a : Nat) (w : Word) (c : Chip) (src : Nat := Src.SKIDDER) : Chip := c.putWords a [w] src

/-- A write of `n` words is answered without error: every burst lies in the fitted DRAM, and one that is not
written whole can be read (R412, R414, R420). -/
def Chip.writeOk (c : Chip) (a n : Nat) : Bool :=
  (List.range (burstSpan a n)).all (fun i =>
    let b := a / 16 + i
    decide (b < c.dramBursts) && (c.burstOk b || decide (a ≤ b * 16 ∧ b * 16 + 16 ≤ a + n)))

/-- Whole bursts written from a burst address on. -/
def Chip.putBursts (b : Nat) (ws : List Word) (c : Chip) (src : Nat := Src.SKIDDER) : Chip := c.putWords (b * 16) ws src

end Sys2Proof.Machine
end

