-- ==== Sys2Proof/Machine/Chute.lean ====
section
/-! DEFINITION. Chutes (R296 to R311): the two pointers, mark mode, length mode, DROPREST, reconfiguration and what
RECOVERY discards. -/
namespace Sys2Proof.Machine

open Sys2Proof

/-- L for a LEN code (Table 11.1). -/
def chuteL (len : Nat) : Nat := if len = 0 then 0 else 2 ^ (len + 3)

/-- A chute's state. -/
def Chip.chute (c : Chip) (n : Nat) : ChuteSt := Cells.get {} n c.chutes

/-- COUNT of a chute (R298). -/
def ChuteSt.count (k : ChuteSt) : Nat := let m := 2 * chuteL k.len; if m = 0 then 0 else (k.wr + m - k.rd) % m

/-- The pool entry of a pointer (R298). -/
def ChuteSt.place (k : ChuteSt) (p : Nat) : Nat := k.base * 16 + p % chuteL k.len

/-- A pointer moved on by `n` (R298). -/
def ChuteSt.adv (k : ChuteSt) (p n : Nat) : Nat := let m := 2 * chuteL k.len; if m = 0 then 0 else (p + n) % m

/-- The chute's domain is recovering (R311). -/
def Chip.chuteRec (c : Chip) (k : ChuteSt) : Bool := if k.chDomain then c.chanRec else c.fwdRec

/-- The chute's state stored, and its pointer and packet registers with it. -/
def Chip.setChute (n : Nat) (k : ChuteSt) (c : Chip) : Chip :=
  let c := { c with chutes := Cells.set {} n k c.chutes }
  ((c.put F.chute_C_COUNT_COUNT k.count n).put F.chute_C_PTRS_WR k.wr n).put F.chute_C_PTRS_RD k.rd n

/-- An entry stored in the pool. -/
def Chip.putEntry (a : Nat) (e : Entry) (c : Chip) : Chip :=
  { c with pool := Cells.set { word := 0 } a e c.pool }

/-- An entry of the pool.
[DESIGN CHOICE, log entry 9: unsafe] -/
def Chip.entry (c : Chip) (a : Nat) : Entry := Cells.get { word := 0 } a c.pool

/-- An entry accepted at WR, with GAP where it is due (R300). -/
def Chip.acceptEntry (n : Nat) (w : Word) (fin : Bool) (c : Chip) : Chip :=
  let k := c.chute n
  let c := c.putEntry (k.place k.wr) ⟨w, fin, k.gap⟩
  c.setChute n { k with wr := k.adv k.wr 1, gap := false }

/-- `d` words of a chute lost (R300). -/
def Chip.loseWords (n d : Nat) (c : Chip) : Chip := c.bump F.chute_C_DROPS_WORDS d n

/-- The length word of Table 11.2. -/
def lengthWord (trunc : Bool) (len : Nat) : Word := wofNat (b2n trunc * 2 ^ 35 + len % 65536)

/-- A push in mark mode (R301, R302). -/
def Chip.pushMark (n : Nat) (w : Word) (fin : Bool) (c : Chip) : Chip :=
  let k := c.chute n
  if k.dropping then
    (c.loseWords n 1).setChute n { k with dropping := !fin, openPkt := false }
  else if k.count = chuteL k.len then
    -- R300: the word is dropped and GAP waits; R302: an open packet is cut whole, back to PS, or to RD if the
    -- consumer has popped past PS
    if k.openPkt then
      let back := min k.count k.stored
      (c.loseWords n (1 + back)).setChute n
        { k with wr := k.adv k.wr (2 * chuteL k.len - back), dropping := !fin, openPkt := false, gap := true, stored := 0 }
    else (c.loseWords n 1).setChute n { k with gap := true }
  else
    let start := if k.openPkt then k.start else k.wr
    let c := c.acceptEntry n w fin
    let k := c.chute n
    let c := c.setChute n { k with openPkt := !fin, start := start, stored := if fin then 0 else k.stored + 1 }
    if fin then c.addTo F.chute_C_PKTS_PACKETS 1 n else c

/-- The end of a packet in length mode: the length word goes into the reserved entry (R303, R304). -/
def Chip.endLength (n : Nat) (trunc : Bool) (c : Chip) : Chip :=
  let k := c.chute n
  let a := k.place k.start
  let c := c.putEntry a { c.entry a with word := lengthWord trunc k.stored }
  let c := c.setChute n { k with openPkt := false, reserved := false, dropping := false, stored := 0 }
  c.addTo F.chute_C_PKTS_PACKETS 1 n

/-- A word of an open packet pushed in length mode (R303, R304). -/
def Chip.pushData (n : Nat) (w : Word) (fin : Bool) (c : Chip) : Chip :=
  let k := c.chute n
  if k.dropping then
    let c := c.loseWords n 1
    if fin then (if k.reserved then c.endLength n true else c.setChute n { k with dropping := false, openPkt := false })
    else c
  else if k.count = chuteL k.len then
    let c := (c.loseWords n 1).setChute n { k with dropping := true, gap := true }
    if fin then c.endLength n true else c
  else
    let c := c.acceptEntry n w fin
    let k := c.chute n
    let c := c.setChute n { k with stored := k.stored + 1 }
    if fin then c.endLength n false else c

/-- A push in length mode (R303, R304): the first word of a packet reserves an entry for the length word. -/
def Chip.pushLength (n : Nat) (w : Word) (fin : Bool) (c : Chip) : Chip :=
  let k := c.chute n
  if k.openPkt then c.pushData n w fin
  else if k.count = chuteL k.len then
    (c.loseWords n 1).setChute n { k with dropping := !fin, openPkt := !fin, gap := true }
  else
    let start := k.wr
    let c := c.acceptEntry n 0 false
    let k := c.chute n
    (c.setChute n { k with openPkt := true, reserved := true, start := start, stored := 0 }).pushData n w fin

/-- Settings of a CFG value (Table 11.7). -/
def chuteCfg (v : Word) : Nat × Bool × Bool × Nat := (wbits v 33 30, wbit v 29, wbit v 28, wbits v 27 12)

/-- New settings come into force: pointers, packet and discard state reset (R308); in a domain that is recovering the next
accepted entry carries GAP (R311).
[DEDUCED, log entry 64: safe] -/
def Chip.applyChute (n : Nat) (v : Word) (gap : Bool) (c : Chip) : Chip :=
  let k := c.chute n
  let (len, m, d, b) := chuteCfg v
  let c := (c.put F.chute_POOLUSE_ENTRIES (c.fld F.chute_POOLUSE_ENTRIES + chuteL len - chuteL k.len))
  let c := { c with pool := Cells.clear (k.base * 16) (k.base * 16 + chuteL k.len) c.pool }
  let c := c.setChute n { len := len, lenMode := m, chDomain := d, base := b,
                          gap := gap || c.chuteRec { len := len, chDomain := d } }
  (c.put F.chute_C_PKTS_PACKETS 0 n).put F.chute_C_CFG_PENDING 0 n

/-- Deferred settings apply at the end of the first cycle in which COUNT is 0 (R308).
[DEDUCED, log entry 64: safe] -/
def Chip.settleChute (n : Nat) (c : Chip) : Chip :=
  if c.flag F.chute_C_CFG_PENDING n ∧ (c.chute n).count = 0 then
    c.applyChute n (c.rd .chute_C_CFG n) (c.chute n).gap
  else c

/-- A word is handed to the chute block by its producer; whether it is kept is decided when it reaches its chute (R298).
[DEDUCED, log entry 63: unsafe] -/
def Chip.push (n : Nat) (w : Word) (fin : Bool) (c : Chip) : Chip :=
  { c with arriving := c.arriving ++ [{ chute := n, word := w, fin := fin }] }

/-- A word reaches a chute (R298 to R304, R310, R311): stored, dropped or discarded.
[DEDUCED, log entry 63: unsafe] -/
def Chip.reach (n : Nat) (w : Word) (fin : Bool) (c : Chip) : Chip :=
  let c := c.settleChute n
  let k := c.chute n
  if k.len = 0 ∨ c.chuteRec k then c
  else if k.discarding then c.setChute n { k with discarding := !fin }
  else if k.lenMode then c.pushLength n w fin
  else c.pushMark n w fin

/-- The word that reaches a chute together with a pop goes in, after the pop (R306, R307).
[DEDUCED, log entry 160: safe] -/
def Chip.landNow (n : Nat) (c : Chip) : Chip :=
  match List.find? (fun a => a.chute == n && a.now) c.arriving with
  | none => c
  | some a => Chip.reach n a.word a.fin { c with arriving := c.arriving.erase a }

/-- CHUTE_WORD_ARRIVE: the word handed over first, of those under way to a chute, reaches it (R298): at once, or in one cycle
with the pop or DROPREST that follows (R307).
[DEDUCED, log entry 63: unsafe] [DEDUCED, log entry 160: safe] -/
def Chip.wordArrives (n : Nat) (paired : Bool) (c : Chip) : Chip :=
  let c := c.landNow n
  match List.find? (fun a => a.chute == n) c.arriving with
  | none => c
  | some a =>
    let c := { c with arriving := c.arriving.erase a }
    if paired then { c with arriving := { a with now := true } :: c.arriving } else c.reach n a.word a.fin

/-- The end of a cycle of the clock: words that reached their chutes in it go in, and deferred settings of empty chutes come
into force (R307, R308).
[DEDUCED, log entry 160: safe] -/
def Chip.endChuteCycle (c : Chip) : Chip :=
  let c := c.arriving.foldl (fun c a => if a.now then c.landNow a.chute else c) c
  c.chutes.foldl (fun c p => c.settleChute p.1) c

/-- An entry taken from a chute, none where EMPTY (R298, R305, R310, R311). In length mode the consumer's place within a
packet is kept for DROPREST. -/
def Chip.takeEntry (n : Nat) (c : Chip) : Option Entry × Chip :=
  let k := c.chute n
  if k.len = 0 ∨ c.chuteRec k ∨ k.count = 0 ∨ (k.reserved ∧ k.rd = k.start) then (none, c)
  else
    let e := c.entry (k.place k.rd)
    let k' := { k with rd := k.adv k.rd 1 }
    if k.lenMode then
      if k.left = 0 then (some e, (c.setChute n { k' with left := wbits e.word 15 0 }).subFrom F.chute_C_PKTS_PACKETS 1 n)
      else (some e, c.setChute n { k' with left := k.left - 1 })
    else
      let c := c.setChute n k'
      (some e, if e.fin then c.subFrom F.chute_C_PKTS_PACKETS 1 n else c)

/-- A pop: deferred settings of an empty chute are in force by then, and a push of the same cycle comes after it (R307,
R308).
[DEDUCED, log entry 160: safe] -/
def Chip.popChute (n : Nat) (c : Chip) : Option Entry × Chip :=
  let (e, c) := (c.settleChute n).takeEntry n
  (e, c.landNow n)

/-- The entries up to and including the first stored END, searched from RD; none stored: all, and false. -/
def Chip.toEnd (c : Chip) (k : ChuteSt) (n : Nat) : Nat × Bool :=
  match (List.range n).find? (fun i => (c.entry (k.place (k.adv k.rd i))).fin) with
  | some i => (i + 1, true)
  | none => (n, false)

/-- The rest of a packet discarded (R306): the entries discarded and the chute after. -/
def Chip.dropEntries (n : Nat) (c : Chip) : Nat × Chip :=
  let k := c.chute n
  if k.len = 0 ∨ c.chuteRec k then (0, c)
  else if k.lenMode then
    if k.left ≠ 0 then (k.left, c.setChute n { k with rd := k.adv k.rd k.left, left := 0 })
    else if k.count = 0 ∨ (k.reserved ∧ k.rd = k.start) then (0, c)
    else
      let d := 1 + wbits (c.entry (k.place k.rd)).word 15 0
      (d, (c.setChute n { k with rd := k.adv k.rd d }).subFrom F.chute_C_PKTS_PACKETS 1 n)
  else
    let (d, found) := c.toEnd k k.count
    if found then (d, (c.setChute n { k with rd := k.adv k.rd d }).subFrom F.chute_C_PKTS_PACKETS 1 n)
    else
      -- no END stored: every entry goes, and later pushes up to END are discarded on arrival
      (d, c.setChute n { k with rd := k.wr, discarding := true, dropping := false, openPkt := false })

/-- DROPREST (R306): a push of the same cycle comes after it.
[DEDUCED, log entry 160: safe] -/
def Chip.dropRest (n : Nat) (c : Chip) : Nat × Chip :=
  let (d, c) := (c.settleChute n).dropEntries n
  (d, c.landNow n)

/-- The windows of two settings overlap (R297). -/
def windowsMeet (b1 l1 b2 l2 : Nat) : Bool := decide (0 < l1 ∧ 0 < l2 ∧ b1 < b2 + l2 ∧ b2 < b1 + l1)

/-- The status of a CFG write (R297). -/
def Chip.chuteCfgStatus (c : Chip) (n : Nat) (v : Word) : Nat :=
  let (len, _, _, b) := chuteCfg v
  let l := chuteL len
  if 0xE ≤ len then St.RANGE
  else if l = 0 then St.OK
  else if (b * 16) % l ≠ 0 ∨ 1048576 < b * 16 + l then St.RANGE
  else if c.chutes.any (fun p => p.1 ≠ n && windowsMeet (b * 16) l (p.2.base * 16) (chuteL p.2.len)) ||
      c.regs.any (fun p => match RegName.chute_C_CFG.info.indices (p.1 * 8) with
        | some (m, _) => m ≠ n && wbit p.2 34 &&
            windowsMeet (b * 16) l (wbits p.2 27 12 * 16) (chuteL (wbits p.2 33 30))
        | none => false) then St.RANGE
  else St.OK

/-- A CFG write (R297, R308, R309): refused, applied at once, or deferred until the chute is empty. -/
def Chip.writeChuteCfg (q : Requester) (n : Nat) (v : Word) (c : Chip) : Chip :=
  let c := c.settleChute n
  let st := c.chuteCfgStatus n v
  if st ≠ St.OK then c.errq q F.chute_REQSTAT_LASTERR st
  else
    let k := c.chute n
    let stored := wput (wput v 35 34 0) 11 0 0
    let force := wbit v 35
    let c := c.wr .chute_C_CFG stored n
    if force then (c.loseWords n k.count).applyChute n stored true
    else if k.count = 0 then c.applyChute n stored k.gap
    else c.put F.chute_C_CFG_PENDING 1 n

/-- RECOVERY of its domain empties a chute, and the next accepted entry carries GAP (R311). -/
def Chip.recoverChute (n : Nat) (c : Chip) : Chip :=
  let k := c.chute n
  let c := { c with pool := Cells.clear (k.base * 16) (k.base * 16 + chuteL k.len) c.pool }
  let c := c.setChute n { len := k.len, lenMode := k.lenMode, chDomain := k.chDomain, base := k.base, wr := k.rd, rd := k.rd, gap := true }
  let c := c.put F.chute_C_PKTS_PACKETS 0 n
  if c.flag F.chute_C_CFG_PENDING n then c.applyChute n (c.rd .chute_C_CFG n) true else c

/-- RECOVERY of a domain empties its chutes (R311). -/
def Chip.recoverChutes (chan : Bool) (c : Chip) : Chip :=
  c.chutes.foldl (fun c p => if p.2.chDomain = chan then c.recoverChute p.1 else c) c

/-- A pop by a requester's register read: its tags go to CHUTE.REQSTAT (Table 11.14). -/
def Chip.popRead (q : Requester) (n : Nat) (c : Chip) : Word × Chip :=
  let (e, c) := c.popChute n
  let w := match e with | some e => e.word | none => 0
  let c := c.putq q F.chute_REQSTAT_E (b2n e.isNone)
  let c := c.putq q F.chute_REQSTAT_T (b2n (match e with | some e => e.fin | none => false))
  (w, c.putq q F.chute_REQSTAT_P (b2n (match e with | some e => e.gap | none => false)))

/-- A write of CHUTE.DROPREST (R306, Table 11.6). -/
def Chip.dropRestWrite (q : Requester) (n : Nat) (c : Chip) : Chip :=
  let (d, c) := c.dropRest n
  c.putq q F.chute_REQSTAT_DISCARDED d

end Sys2Proof.Machine
end

