-- ==== Sys2Proof/Machine/Landing.lean ====
section
/-! DEFINITION. The Landing scheduler and the Skidders (R271 to R289, R291 to R295): slots, release ticks, ready
lists, staging buffers, submission queues. The delay lists and ready lists are the slots in those stages, in the
orders of R275 and R277. -/
namespace Sys2Proof.Machine

open Sys2Proof

/-- CLUSTER of an item (Table 10.2). -/
def SlotSt.cluster (s : SlotSt) : Nat := wbits s.w0 35 32
/-- LANDB of an item. -/
def SlotSt.landb (s : SlotSt) : Nat := wbits s.w0 28 19
/-- ENTRY of an item. -/
def SlotSt.entry (s : SlotSt) : Nat := wbits s.w0 18 0
/-- KIND of an item. -/
def SlotSt.kind (s : SlotSt) : Nat := wbits s.w1 35 34
/-- ARG of an item. -/
def SlotSt.arg (s : SlotSt) : Nat := wbits s.w1 33 0
/-- ONESHOT of an item. -/
def SlotSt.oneshot (s : SlotSt) : Bool := wbit s.w3 19
/-- PERIOD of an item, in sub-ticks. -/
def SlotSt.period (s : SlotSt) : Nat := if s.longPeriod then 2 ^ 19 else wbits s.w3 18 0

/-- A staging buffer's state. -/
def Chip.buf (c : Chip) (place : Nat) : BufSt := Cells.get .free place c.bufs

/-- A staging buffer's state set. -/
def Chip.setBuf (place : Nat) (b : BufSt) (c : Chip) : Chip := { c with bufs := Cells.set .free place b c.bufs }

/-- The nominal release tick of a nominal deadline: the first sample tick at or after sub-tick N - PERIOD (R273). -/
def Chip.releaseTick (c : Chip) (nominal period : Nat) : Nat := ceilDiv (extendHalf 36 nominal c.subtick - period) 16

/-- A ready list's length (R277). -/
def Chip.readyLen (c : Chip) (cl : Nat) : Nat :=
  (c.slots.filter (fun p => decide (p.2.stage = .ready ∧ p.2.cluster = cl))).length

/-- A ready list is full: 8,192 items (R277). -/
def Chip.readyFull (c : Chip) (cl : Nat) : Bool := decide (8192 ≤ c.readyLen cl)

/-- A gated cluster is restored when an item enters its ready list (R495). -/
def Chip.ungate (cl : Nat) (c : Chip) : Chip :=
  let g := c.fld F.ranger_STATUS_GATED
  if g.testBit cl then
    ((c.put F.ranger_STATUS_GATED (g - 2 ^ cl)).put F.ranger_OPP_OPP 0 cl).modRanger (fun r => { r with
      changing := Cells.erase cl r.changing, idleSince := Cells.erase cl r.idleSince })
  else c

/-- Release 0 of an item (R273). -/
def Chip.firstRelease (c : Chip) (w0 w1 w2 w3 : Word) (long : Bool) : SlotSt :=
  let s : SlotSt := { w0 := w0, w1 := w1, w2 := w2, w3 := w3, nominal := w2.toNat, effective := w2.toNat, longPeriod := long }
  { s with tick := c.releaseTick w2.toNat s.period }

/-- The lowest free slot of the spawn pool (Table 10.1). -/
def Chip.poolSlot (c : Chip) : Option Nat :=
  (List.range 16384).findSome? (fun i =>
    if (Cells.find? (49152 + i) c.slots).isNone then some (49152 + i) else none)

/-- PERIOD of an item that SPAWN posts, rounded up to a multiple of 16 (R295).
[DEDUCED, log entry 153: unsafe] -/
def spawnPeriod (w3 : Word) : Nat := if wbits w3 18 0 = 0 then 16 else ceilDiv (wbits w3 18 0) 16 * 16

/-- The item that SPAWN posts, with its fields taken as R295 gives them: a PERIOD of 2^19 shows as 0 in its field.
[DEDUCED, log entry 153: unsafe] -/
def spawnItem (ws : List Word) (own slot : Nat) : Word × Word × Word × Word :=
  let w0 := ws.getD 0 0; let w1 := ws.getD 1 0; let w2 := ws.getD 2 0; let w3 := ws.getD 3 0
  let cl := if 0xB < wbits w0 35 32 then own else wbits w0 35 32
  (wput (wput (wput w0 35 32 cl) 31 29 0) 28 19 0, wput w1 35 34 0, w2,
   wofNat (slot * 2 ^ 20 + 2 ^ 19 + spawnPeriod w3 % 2 ^ 19))

/-- Release 0 of the item that SPAWN posts from a cluster into a slot (R295).
[DEDUCED, log entry 153: unsafe] -/
def Chip.spawnSlot (c : Chip) (ws : List Word) (own slot : Nat) : SlotSt :=
  let (w0, w1, w2, w3) := spawnItem ws own slot
  c.firstRelease w0 w1 w2 w3 (spawnPeriod (ws.getD 3 0) == 2 ^ 19)

/-- A submission queue's state. -/
def Chip.sq (c : Chip) (q : Requester) : SqSt := Cells.get {} q.idx c.sqs

/-- A submission queue's state set. -/
def Chip.setSq (q : Requester) (s : SqSt) (c : Chip) : Chip := { c with sqs := Cells.set {} q.idx s c.sqs }

/-- The submitters, in the order in which their queues take turns (R291, R292). -/
def submitters : List Requester := [.pcie, .kc0, .kc1, .kc2, .kc3]

/-- What waits to enter a full ready list (R277): a release, a SPAWN that stalls its core, a SUBMIT of a queue. -/
inductive Waiter where
  | slot (n : Nat)
  | spawn (k : Nat)
  | sq (q : Requester)
  deriving DecidableEq, Repr

/-- The item of a SUBMIT entry, and its slot (R293). -/
def Chip.entrySlot (c : Chip) (ws : List Word) : Nat × SlotSt :=
  (wbits (ws.getD 3 0) 35 20, c.firstRelease (ws.getD 0 0) (ws.getD 1 0) (ws.getD 2 0) (ws.getD 3 0) false)

/-- The cores stalled in SPAWN, in order of number (R256). -/
def Chip.spawners (c : Chip) : List (Nat × CoreSt) := c.cores.filter (fun p => decide (p.2.wait = .spawn))

/-- All that waits for room in a cluster's ready list, each with its slot and item (R277). A SPAWN waits for it once the
pool has a slot for it. -/
def Chip.waiters (c : Chip) (cl : Nat) : List ((Nat × SlotSt) × Waiter) :=
  let spawns := match c.spawners with
    | [] => []
    | l => match c.poolSlot with
      | none => []
      | some n => l.map (fun p => ((n, c.spawnSlot p.2.spawning (p.1 / 8) n), Waiter.spawn p.1))
  let subs := submitters.filterMap (fun q => match (c.sq q).entry with
    | some e => if (c.sq q).discard then none else some (c.entrySlot e.ws, Waiter.sq q)
    | none => none)
  ((c.slots.filter (fun p => decide (p.2.stage = .held))).map (fun p => (p, Waiter.slot p.1)) ++ spawns ++ subs).filter
    (fun x => x.1.2.cluster == cl)

/-- Nothing may enter a cluster's ready list at once: it is full, or what it held back goes first (R277). -/
def Chip.heldBack (c : Chip) (cl : Nat) : Bool := c.readyFull cl || !(c.waiters cl).isEmpty

/-- A slot's release enters its cluster's ready list, or is held back (R277). -/
def Chip.enterReady (n : Nat) (c : Chip) : Chip :=
  match Cells.find? n c.slots with
  | none => c
  | some s =>
    if c.heldBack s.cluster then c.modSlot n (fun s => { s with stage := .held })
    else (c.modSlot n (fun s => { s with stage := .ready })).ungate s.cluster

/-- A release placed in the scheduler: in the ready list at once where its tick is behind (R276) or where it is in
catch-up (R285), else in its delay list. -/
def Chip.placeRelease (n : Nat) (s : SlotSt) (atOnce : Bool) (c : Chip) : Chip :=
  let c := { c with slots := Cells.insert n { s with stage := .delayed, listed := false } c.slots }
  if atOnce ∨ s.tick < c.mt then c.enterReady n else c

/-- An item accepted into a slot: its release 0 (R271, R273). -/
def Chip.placeItem (n : Nat) (w0 w1 w2 w3 : Word) (c : Chip) : Chip :=
  c.placeRelease n (c.firstRelease w0 w1 w2 w3 false) false

/-- A slot becomes free. -/
def Chip.freeSlot (n : Nat) (c : Chip) : Chip := { c with slots := Cells.erase n c.slots }

/-- A buffer is writing back a release of a slot (R281). -/
def Chip.writingBack (c : Chip) (n : Nat) : Bool := c.bufs.any (fun p => decide (p.2 = .writing n))

/-- The element of a list that comes first under a strict order. -/
def firstBy {α : Type} (lt : α → α → Bool) : List α → Option α
  | [] => none
  | x :: r => match firstBy lt r with
    | none => some x
    | some y => if lt y x then some y else some x

/-- Comparison of two keys: release tick, then nominal deadline, then slot (R277). -/
def heldBefore (sub : Nat) (a b : Nat × SlotSt) : Bool :=
  let na := halfDist 36 a.2.nominal sub
  let nb := halfDist 36 b.2.nominal sub
  decide (a.2.tick < b.2.tick ∨ (a.2.tick = b.2.tick ∧ (na < nb ∨ (na = nb ∧ a.1 < b.1))))

/-- Comparison in a ready list: effective deadline against the current sub-tick, then slot (R277). -/
def readyBefore (sub : Nat) (a b : Nat × SlotSt) : Bool :=
  let na := halfDist 36 a.2.effective sub
  let nb := halfDist 36 b.2.effective sub
  decide (na < nb ∨ (na = nb ∧ a.1 < b.1))

/-- What a cluster's ready list takes next of all that it holds back (R277). -/
def Chip.nextHeld (c : Chip) (cl : Nat) : Option ((Nat × SlotSt) × Waiter) :=
  firstBy (fun a b => heldBefore c.subtick a.1 b.1) (c.waiters cl)

/-- A SPAWN posts its item, or is held back: none while the ready list is full or the pool is occupied (R277). -/
def Chip.trySpawn (own : Nat) (ws : List Word) (c : Chip) : Option Chip :=
  match c.poolSlot with
  | none => none
  | some n =>
    let s := c.spawnSlot ws own n
    if c.heldBack s.cluster then none else some (c.placeRelease n s false)

/-- The buffer that the head of a ready list is assigned to (R278): a core waiting in TAKE with nothing landing
or landed first, then any core with a free buffer and nothing landing or landed, lowest core number first. -/
def Chip.pickBuffer (c : Chip) (cl : Nat) : Option Nat :=
  let busy (k : Nat) : Bool := [0, 1].any (fun b => match c.buf (k * 2 + b) with
    | .landing _ => true | .landed _ => true | _ => false)
  let freeBuf (k : Nat) : Option Nat := [0, 1].findSome? (fun b =>
    if c.buf (k * 2 + b) = .free then some (k * 2 + b) else none)
  let cand (need : Bool) : Option Nat := (List.range 8).findSome? (fun i =>
    let k := cl * 8 + i
    if busy k ∨ (need ∧ (c.core k).wait ≠ .take) then none else freeBuf k)
  (cand true).or (cand false)

/-- The head of a ready list (R277). -/
def Chip.readyHead (c : Chip) (cl : Nat) : Option (Nat × SlotSt) :=
  firstBy (readyBefore c.subtick) (c.slots.filter (fun p => decide (p.2.stage = .ready ∧ p.2.cluster = cl)))

/-- An UPDATE that applies at or before the next frame of a channel is not yet written: its item is not landed
before it is (R282). -/
def Chip.updateDue (c : Chip) (ch : Nat) : Bool :=
  match Cells.find? ch c.chans with
  | none => false
  | some s => s.update.any (fun u => decide (u.at_ ≤ s.frame))

/-- The Skidder assigns the head of a ready list to a buffer and starts landing; an item of KIND NONE is landed at
once (R278, R279). -/
def Chip.assignItem (cl : Nat) (c : Chip) : Chip :=
  match c.readyHead cl, c.pickBuffer cl with
  | some (n, s), some place =>
    if c.writingBack n ∨ c.updateDue n then c
    else if s.kind = 0 then
      (c.setBuf place (.landed n)).modSlot n (fun s => { s with stage := .landed, place := place })
    else (c.setBuf place (.landing n)).modSlot n (fun s => { s with stage := .landing, place := place })
  | _, _ => c

/-- Lag of a completion at a sub-tick (R285). -/
def lagOf (sub nominal : Nat) : Nat := let d := halfDist 36 sub nominal; if 0 < d then d.toNat else 0

/-- The next release of a periodic item after a completion with a lag (R285), for items that go on. -/
def Chip.nextRelease (n lag : Nat) (c : Chip) : Chip :=
  match Cells.find? n c.slots with
  | none => c
  | some s =>
    let s' := min lag (s.period / 4)
    let nom := (s.nominal + s.period) % 2 ^ 36
    let tick := c.releaseTick nom s.period
    c.placeRelease n { s with nominal := nom, effective := if lag = 0 then nom else (nom + lag - s') % 2 ^ 36, tick := tick }
      (decide (0 < lag ∨ tick ≤ c.mt))

/-- A named or pool item's release ends with a lag: the next release, or the end of the item (R285, R288, R294). -/
def Chip.endRelease (n lag : Nat) (c : Chip) : Chip :=
  match Cells.find? n c.slots with
  | none => c
  | some s =>
    if s.oneshot ∨ s.cancelled then
      if c.writingBack n then c.modSlot n (fun s => { s with stage := .ended }) else c.freeSlot n
    else c.nextRelease n lag

/-- Words of a local memory written anew hold no error (R239). -/
def Chip.freshWords (k : Nat) (l : List Nat) (c : Chip) : Chip :=
  { c with upsets := c.upsets.filter (fun u => match u with | .localWord j a => !(j == k && l.contains a) | _ => true) }

/-- Words of local memory written (the Skidder and the engines use free pump slots, R238). -/
def Chip.putLocal (k a : Nat) (ws : List Word) (c : Chip) : Chip :=
  (c.freshWords k ((List.range ws.length).map (fun i => (a + i) % 65536))).modCore k (fun s => { s with
    mem := (ws.zipIdx).foldl (fun m p => Cells.insert ((a + p.2) % 65536) p.1 m) s.mem })

/-- A word of local memory (R237).
[DESIGN CHOICE, log entry 8: safe] -/
def Chip.localWord (c : Chip) (k a : Nat) : Word :=
  match Cells.find? (a % 65536) (c.core k).mem with
  | some w => w
  | none => Config.localWord k (a % 65536)

/-- Words of local memory. -/
def Chip.localWords (c : Chip) (k a n : Nat) : List Word := (List.range n).map (fun i => c.localWord k (a + i))

/-- The base of a staging buffer (Table 9.3). -/
def bufBase (b : Nat) : Nat := 0xC000 + 0x2000 * b

/-- Head and tail set to 0: an entry fetched and not decided is still decided, and the head does not stand at it
(Tables 10.7 and 10.8). -/
def SqSt.rewind (s : SqSt) : SqSt :=
  { s with head := 0, tail := 0, entry := s.entry.map (fun e => { e with atHead := false }) }

/-- A write of LANDING.SQBASE (Table 10.7). -/
def Chip.writeSqBase (q : Requester) (v : Word) (c : Chip) : Chip :=
  c.setSq q { (c.sq q).rewind with base := wbits v 33 0 }

/-- A write of LANDING.SQSIZE: above 4,096 ignored (Table 10.8). -/
def Chip.writeSqSize (q : Requester) (v : Word) (c : Chip) : Chip :=
  if 4096 < wbits v 12 0 then c else c.setSq q { (c.sq q).rewind with size := wbits v 12 0 }

/-- A write of LANDING.SQTAIL: at or above SQSIZE ignored (Table 10.9). -/
def Chip.writeSqTail (q : Requester) (v : Word) (c : Chip) : Chip :=
  if (c.sq q).size ≤ wbits v 12 0 then c else c.setSq q { c.sq q with tail := wbits v 12 0 }

/-- The word address of the entry at the head of a queue (R291). -/
def SqSt.entryAddr (s : SqSt) : Nat := s.base * 16 + 8 * s.head

/-- An entry decided: its word 5 written, and the head moved on (R292). -/
def Chip.decideEntry (q : Requester) (e : SqEntry) (st : Nat) (c : Chip) : Chip :=
  let s := c.sq q
  (c.putWord (e.addr + 5) (wofNat (2 ^ 35 + st * 2 ^ 29))).setSq q
    { s with head := if e.atHead then (s.head + 1) % s.size else s.head, entry := none, discard := false }

/-- The queue may be fetched: an entry waits, none of it is held, and the channel domain is not recovering (R289, R292). -/
def Chip.sqReady (c : Chip) (q : Requester) : Bool :=
  let s := c.sq q
  s.size ≠ 0 && s.head ≠ s.tail && s.entry.isNone && !c.chanRec

/-- It is a queue's turn: it may be fetched, and no queue before it in turn may be (R292). -/
def Chip.sqServed (c : Chip) (q : Requester) : Bool :=
  c.sqReady q && !submitters.any (fun p => c.sqReady p && decide ((p.idx + 5 - c.sqTurn) % 5 < (q.idx + 5 - c.sqTurn) % 5))

/-- The entry at the head of a queue, as fetched. -/
def Chip.fetchEntry (c : Chip) (q : Requester) : SqEntry :=
  { addr := (c.sq q).entryAddr, ws := c.words (c.sq q).entryAddr 5 }

/-- The turn passes to the queue after this one (R292). -/
def Chip.passTurn (q : Requester) (c : Chip) : Chip := { c with sqTurn := (q.idx + 1) % 5 }

/-- The checks of a SUBMIT, each a code that applies (Table 10.6, R293). -/
def Chip.submitStatus (c : Chip) (ws : List Word) : Nat :=
  let w0 := ws.getD 0 0; let w1 := ws.getD 1 0; let w3 := ws.getD 3 0; let w4 := ws.getD 4 0
  let kind := wbits w1 35 34
  let landb := wbits w0 28 19
  let p := wbits w3 18 0
  let slot := wbits w3 35 20
  St.pick [
    St.when (wbits w0 31 29 ≠ 0 ∨ wbits w4 31 0 ≠ 0) St.FORMAT,
    St.when (0xB < wbits w0 35 32 ∨ 512 < landb ∨ (kind < 2 ∧ landb ≠ 0) ∨ wbits w0 18 0 % 2 = 1
      ∨ 0x60000 ≤ wbits w0 18 0 ∨ p < 16 ∨ 524272 < p ∨ p % 16 ≠ 0 ∨ kind = 1 ∨ slot < 32768 ∨ 49151 < slot
      ∨ (2 ≤ kind ∧ c.dramBursts < wbits w1 33 0 + landb)) St.RANGE,
    St.when (¬ (c.base = Md.RUN ∨ c.base = Md.ECO ∨ c.base = Md.TEST)) St.NOTREADY,
    St.when (Cells.find? slot c.slots).isSome St.BUSY]

/-- A SUBMIT decided (R292, R293): refused or accepted; its item enters its ready list at once where its release tick is
behind (R276), else its delay list. -/
def Chip.takeSubmit (q : Requester) (e : SqEntry) (c : Chip) : Chip :=
  let st := c.submitStatus e.ws
  if st ≠ St.OK then c.decideEntry q e st
  else
    let (n, s) := c.entrySlot e.ws
    let ready := decide (s.tick < c.mt)
    let c := { c with slots := Cells.insert n { s with stage := if ready then .ready else .delayed } c.slots }
    (c.iff ready (Chip.ungate s.cluster)).decideEntry q e St.OK

/-- An entry at the head of a queue whose words cannot be read (R39, R420): nothing of it is known.
[DEDUCED, log entry 154: unsafe] -/
def Chip.refuseUnread (q : Requester) (e : SqEntry) (c : Chip) : Chip :=
  ((c.readLog Src.SKIDDER e.addr 5).decideEntry q e St.UNCORR).passTurn q

/-- A SUBMIT at the head of a queue, in its turn (R292, R293): refused, accepted, or held while its item would enter at
once a ready list that takes nothing (R277). -/
def Chip.submit (q : Requester) (c : Chip) : Chip :=
  if !c.sqServed q then c
  else
    let e := c.fetchEntry q
    if !c.rangeOk e.addr 5 then c.refuseUnread q e
    else if wbits (e.ws.getD 4 0) 35 32 ≠ 1 then c
    else
      let (_, s) := c.entrySlot e.ws
      if c.submitStatus e.ws = St.OK ∧ s.tick < c.mt ∧ c.heldBack s.cluster then
        (c.setSq q { c.sq q with entry := some e }).passTurn q
      else (c.takeSubmit q e).passTurn q

/-- A CANCEL, or an entry with an unknown OP, at the head of a queue, in its turn (R291, R292, R294). -/
def Chip.cancel (q : Requester) (c : Chip) : Chip :=
  if !c.sqServed q then c
  else
    let e := c.fetchEntry q
    let op := wbits (e.ws.getD 4 0) 35 32
    let n := wbits (e.ws.getD 3 0) 35 20
    if !c.rangeOk e.addr 5 then c.refuseUnread q e
    else if op = 1 then c
    else if wbits (e.ws.getD 4 0) 31 0 ≠ 0 then (c.decideEntry q e St.FORMAT).passTurn q
    else if op ≠ 2 ∨ n < 32768 ∨ 49151 < n then (c.decideEntry q e St.RANGE).passTurn q
    else match Cells.find? n c.slots with
      | none => (c.decideEntry q e St.NOTREADY).passTurn q
      | some s =>
        let c := if s.stage = .delayed ∨ s.stage = .held then
            (if c.writingBack n then c.modSlot n (fun s => { s with stage := .ended, cancelled := true }) else c.freeSlot n)
          else c.modSlot n (fun s => { s with cancelled := true })
        (c.decideEntry q e St.OK).passTurn q

/-- What a ready list held back enters the scheduler (R277): a release its list, a SPAWN's item its slot while its core
goes on, a SUBMIT as it is decided. -/
def Chip.admitWaiter (w : Waiter) (c : Chip) : Chip :=
  match w with
  | .slot n => match Cells.find? n c.slots with
    | none => c
    | some s => (c.modSlot n (fun s => { s with stage := .ready, listed := false })).ungate s.cluster
  | .spawn k => match c.poolSlot with
    | none => c
    | some n =>
      let s := c.spawnSlot (c.core k).spawning (k / 8) n
      let ready := decide (s.tick < c.mt)
      let c := { c with slots := Cells.insert n { s with stage := if ready then .ready else .delayed } c.slots }
      (c.iff ready (Chip.ungate s.cluster)).modCore k (fun s => { s with wait := .run, spawning := [] })
  | .sq q => match (c.sq q).entry with
    | none => c
    | some e => c.takeSubmit q e

/-- What a ready list held back enters in order while there is room (R277). -/
def Chip.drainHeld (cl : Nat) : Nat → Chip → Chip
  | 0, c => c
  | f + 1, c =>
    match c.nextHeld cl with
    | none => c
    | some (_, w) => if c.readyFull cl then c else Chip.drainHeld cl f (c.admitWaiter w)

/-- RECOVERY of the channel domain discards every item; named and pool slots become free (R289). Channel slots are
freed too: the CHAN block releases them again. -/
def Chip.recoverLanding (c : Chip) : Chip :=
  let c := { c with slots := [], bufs := [] }
  submitters.foldl (fun c q =>
    let s := c.sq q
    if s.entry.isSome then c.setSq q { s with discard := true } else c) c

/-- At the end of RECOVERY, entries fetched and not decided get DISCARDED (R289). -/
def Chip.resumeLanding (c : Chip) : Chip :=
  submitters.foldl (fun c q =>
    match (c.sq q).entry with
    | some e => if (c.sq q).discard then c.decideEntry q e St.DISCARDED else c
    | none => c) c

end Sys2Proof.Machine
end

