-- ==== Sys2Proof/Machine/Mix.lean ====
section
/-! DEFINITION. Gains and the mix store (R184, R185, R194 to R197, R201, R202, R518). -/
namespace Sys2Proof.Machine

open Sys2Proof

/-- The largest `n` below 2^bits with a property that holds from 0 up to it, by halving. -/
def bisect (p : Nat → Bool) : Nat → Nat → Nat
  | 0, lo => lo
  | b + 1, lo => if p (lo + 2 ^ b) then bisect p b (lo + 2 ^ b) else bisect p b lo

/-- round(2^32 * 10^(c / 200)), c in units of 0.1 dB (R185): the largest n with n - 1/2 at or below the value. -/
def gainFactor (c : Int) : Nat :=
  let up := c.toNat
  let down := (-c).toNat
  bisect (fun n => decide ((2 * n - 1) ^ 200 * 10 ^ down ≤ (2 ^ 200) ^ 33 * 10 ^ up)) 36 0

/-- A gain code marked RANGE (Table 7.1). -/
def gainBad (code : Nat) : Bool := decide (0x0B5 ≤ code ∧ code ≤ 0x3FF)

/-- The factor of a gain code in Q4.32 (R185, Table 7.1). -/
def gainOf (code : Nat) : Nat :=
  if code = 0x400 then 0 else gainFactor (signed 11 code)

/-- The value of sample `i` of a ramp over `n` samples from g0 to g1, times n (R518).
[DEDUCED, log entry 29: unsafe] -/
def rampTimes (g0 g1 : Int) (n i : Nat) : Int := g0 * n + (g1 - g0) * (i + 1)

/-- A product with a gain in Q4.32, reduced under R184. -/
def gainMul (x : Int) (g : Int) : Int := sat36 (roundShift 32 (x * g))

/-- A product with a fraction num / den in Q4.32, reduced under R184. -/
def gainMulFrac (x num : Int) (den : Nat) : Int := sat36 (roundDiv (x * num) (den * 2 ^ 32))

/-- Samples a second for a rate code 0 to 2: 8, 16 and 48 kHz. -/
def rate3 (code : Nat) : Nat := if code = 0 then 8000 else if code = 1 then 16000 else 48000

/-- Cells of a window for a WIN code (Table 7.3). -/
def winCells (w : Nat) : Nat := 256 * 2 ^ w

/-- A bus's sample rate. -/
def Chip.busRate (c : Chip) (b : Nat) : Nat := rate3 (c.fld F.chan_BUS_RATE b)

/-- B_b: the block in bus samples (R196). -/
def Chip.busBlock (c : Chip) (b : Nat) : Nat := c.blockB * c.busRate b / 48000

/-- WIN of a bus in cells. -/
def Chip.busWin (c : Chip) (b : Nat) : Nat := winCells (c.fld F.chan_BUS_WIN b)

/-- MT at the bus rate. -/
def Chip.busNow (c : Chip) (b : Nat) : Nat := c.mt * c.busRate b / 48000

/-- The opening instant of sum block k, in bus samples; W2 = 2 B_b - WIN / 2 (R197). -/
def Chip.busOpens (c : Chip) (b k : Nat) : Int := ((k + 2) * c.busBlock b : Nat) - (c.busWin b / 2 : Nat)

/-- A bus is enabled. -/
def Chip.busOn (c : Chip) (b : Nat) : Bool := c.flag F.chan_BUS_EN b

/-- A bus's block state. -/
def Chip.busSt (c : Chip) (b : Nat) : BusSt := Cells.get {} b c.buses

/-- A bus's block state set. -/
def Chip.setBus (b : Nat) (s : BusSt) (c : Chip) : Chip := { c with buses := Cells.set {} b s c.buses }

/-- The cell of a bus sample (R194). -/
def Chip.busCell (c : Chip) (b s : Nat) : Nat := c.fld F.chan_BUS_WBASE b * 256 + s % c.busWin b

/-- A cell's sum.
[DESIGN CHOICE, log entry 9: unsafe] -/
def Chip.cell (c : Chip) (a : Nat) : Int := Cells.get 0 a c.mix

/-- A cell set, in 56 bits. -/
def Chip.setCell (a : Nat) (v : Int) (c : Chip) : Chip :=
  { c with mix := Cells.set 0 a (signed 56 (unsignedOf 56 v)) c.mix, upsets := c.upsets.filter (· ≠ .mixCell a) }

/-- A cell as an access finds it: one with an uncorrectable error reads as 0, is cleared and counted (R194). -/
def Chip.useCell (a : Nat) (c : Chip) : Int × Chip :=
  if c.upset (.mixCell a) then (0, (c.setCell a 0).bump F.chan_MIXUNCORR_CELLS) else (c.cell a, c)

/-- Blocks that have opened and blocks that have closed by an MT at the bus rate, with OUTGAIN in force (Table 7.4). -/
def Chip.busPlace (c : Chip) (b n : Nat) : BusSt :=
  let bb := c.busBlock b
  { opened := (n + c.busWin b / 2) / bb - 1, closed := n / bb - 1,
    gains := [(0, gainOf (c.fld F.chan_BUSGAIN_OUTGAIN b))] }

/-- Blocks that have opened by now, and blocks that have closed by now, on a bus enabled now (Table 7.4). -/
def Chip.busStart (c : Chip) (b : Nat) : BusSt := c.busPlace b (c.busNow b)

/-- Device time has been stepped to an instant: the blocks of every enabled bus stand where its MT places them. No channel
runs then, and every cell is 0 (R202, Table 7.4).
[DEDUCED, log entry 40: unsafe] -/
def Chip.restartBuses (t : Nat) (c : Chip) : Chip :=
  { c with buses := c.buses.map (fun x => (x.1, c.busPlace x.1 (mtOf t * c.busRate x.1 / 48000))), mix := [] }

/-- The checks of an enable (R195): RANGE where one fails. -/
def Chip.busEnableStatus (c : Chip) (b : Nat) (v : Word) : Nat :=
  let rate := wbits v 34 33
  let win := wbits v 32 30
  let base := wbits v 29 18
  let w := winCells win
  let lo := base * 256
  if rate = 3 ∨ 5 ≤ win then St.RANGE
  else if base % (w / 256) ≠ 0 ∨ 1048576 < lo + w then St.RANGE
  else if c.regs.any (fun p => match RegName.chan_BUS.info.indices (p.1 * 8) with
      | some (m, _) => m ≠ b && wbit p.2 35 && windowsMeet lo w (wbits p.2 29 18 * 256) (winCells (wbits p.2 32 30))
      | none => false) then St.RANGE
  else St.OK

/-- A write of CHAN.BUS (R195, Table 7.13): enabled after checks with its window zeroed, disabled when it has no
input or reader, or its settings written while off. -/
def Chip.writeBus (q : Requester) (b : Nat) (v : Word) (c : Chip) : Chip :=
  let old := c.rd .chan_BUS b
  let v := wput v 17 0 0
  if wbit old 35 then
    if wbits v 34 18 ≠ wbits old 34 18 then
      c.errq q F.chan_CMDSTAT_LASTERR (St.pick [if wbit v 35 then c.busEnableStatus b v else St.OK, St.BUSY])
    else if wbit v 35 then c
    else if c.fld F.chan_BUSGAIN_INPUTS b ≠ 0 ∨ c.fld F.chan_BUSGAIN_READERS b ≠ 0 then
      c.errq q F.chan_CMDSTAT_LASTERR St.BUSY
    else
      let c := c.subFrom F.chan_MIXCELLS_CELLS (c.busWin b)
      { c.wr .chan_BUS v b with buses := Cells.erase b c.buses }
  else if wbit v 35 then
    let st := c.busEnableStatus b v
    if st ≠ St.OK then c.errq q F.chan_CMDSTAT_LASTERR st
    else
      let c := c.wr .chan_BUS v b
      let lo := c.fld F.chan_BUS_WBASE b * 256
      let c := { c with mix := Cells.clear lo (lo + c.busWin b) c.mix }
      (c.addTo F.chan_MIXCELLS_CELLS (c.busWin b)).setBus b (c.busStart b)
  else c.wr .chan_BUS v b

/-- A write of OUTGAIN (Table 7.14): it applies, ramped, from the first bus block that begins at least one block
after it. -/
def Chip.writeBusGain (q : Requester) (b : Nat) (v : Word) (c : Chip) : Chip :=
  let code := wbits v 35 25
  if gainBad code then c.errq q F.chan_CMDSTAT_LASTERR St.RANGE
  else
    let bb := c.busBlock b
    let start := ceilDiv (c.busNow b + bb) bb * bb
    let s := c.busSt b
    (c.put F.chan_BUSGAIN_OUTGAIN code b).iff (c.busOn b) (fun c =>
      c.setBus b { s with gains := (start, gainOf code) :: s.gains.filter (fun g => decide (g.1 < start)) })

/-- The gain that a bus applies to sample `s`, times B_b, in Q4.32 (R196, R518). -/
def BusSt.gainAt (k : BusSt) (bb s : Nat) : Int :=
  match k.gains.filter (fun g => decide (g.1 ≤ s)) with
  | [] => (2 ^ 32 * bb : Nat)
  | [g] => (g.2 * bb : Nat)
  | g :: p :: _ => if s < g.1 + bb then rampTimes p.2 g.2 bb (s - g.1) else (g.2 * bb : Nat)

/-- A sum block opens at its instant: its cells are set to zero, which retires what they served (R197). -/
def Chip.openBlock (b : Nat) (c : Chip) : Chip :=
  let k := c.busSt b
  if c.busOn b ∧ c.busOpens b k.opened ≤ c.busNow b then
    let bb := c.busBlock b
    let c := forRange bb (fun i c => c.setCell (c.busCell b (k.opened * bb + i)) 0) c
    c.setBus b { k with opened := k.opened + 1 }
  else c

/-- A sum block closes at boundary (k + 2) B_b and its sums are frozen (R197). -/
def Chip.closeBlock (b : Nat) (c : Chip) : Chip :=
  let k := c.busSt b
  if c.busOn b ∧ (k.closed + 2) * c.busBlock b ≤ c.busNow b then c.setBus b { k with closed := k.closed + 1 } else c

/-- A contribution to a bus sample (R194, R196, R197): added where its block is OPEN, else counted. -/
def Chip.mixAdd (b s : Nat) (x : Int) (c : Chip) : Chip :=
  let k := c.busSt b
  let blk := s / c.busBlock b
  if ¬ c.busOn b then c
  else if k.closed ≤ blk ∧ blk < k.opened then
    let a := c.busCell b s
    let (v, c) := c.useCell a
    c.setCell a (v + x)
  else (c.bump F.chan_MIXLATE_SAMPLES).bump F.chan_BUSSTAT_LATEIN 1 b

/-- A read of bus output sample `s` (R196, R197): the closed sum one block earlier times OUTGAIN, else 0 and
counted; a disabled bus gives 0 uncounted (R258). -/
def Chip.mixRead (b s : Nat) (c : Chip) : Int × Chip :=
  if ¬ c.busOn b then (0, c)
  else
    let bb := c.busBlock b
    let k := c.busSt b
    let stale := (0, c.bump F.chan_MIXSTALE_READS)
    if s < bb then stale
    else
      let p := s - bb
      if p / bb < k.closed ∧ k.opened ≤ (p + c.busWin b) / bb then
        let a := c.busCell b p
        let (v, c) := c.useCell a
        let r := roundDiv (v * k.gainAt bb s) (bb * 2 ^ 32)
        (sat36 r, if sat36 r = r then c else c.bump F.chan_BUSSTAT_CLIPS 1 b)
      else stale

/-- Contributions to consecutive bus samples. -/
def Chip.mixAddAll (b : Nat) (first : Nat) (xs : List Int) (c : Chip) : Chip :=
  (xs.zipIdx).foldl (fun c p => c.mixAdd b (first + p.2) p.1) c

/-- Reads of consecutive bus samples. -/
def Chip.mixReadAll (b : Nat) (first : Nat) : Nat → Chip → List Int × Chip
  | 0, c => ([], c)
  | n + 1, c =>
    let (l, c) := Chip.mixReadAll b first n c
    let (x, c) := c.mixRead b (first + n)
    (l ++ [x], c)

/-- RECOVERY of the channel domain sets every cell of every enabled bus to 0 (R202). -/
def Chip.recoverMix (c : Chip) : Chip := { c with mix := [] }

end Sys2Proof.Machine
end

