-- ==== Sys2Proof/Machine/Kerf.lean ====
section
/-! DEFINITION. The Kerf filter engine (R136 to R157): lanes and owners, gangs, coefficient banks and swaps, the
despiker, the DC blocker, the resampler at media-time phase, and ring lanes. -/
namespace Sys2Proof.Machine

open Sys2Proof

/-- Input rates of Table 5.2 in Hz; 0 for the code marked RANGE. -/
def kerfIn (code : Nat) : Nat :=
  if code = 0 then 8000 else if code = 1 then 16000 else if code = 2 then 32000 else if code = 3 then 44100
  else if code = 4 then 48000 else if code = 5 then 88200 else if code = 6 then 96000 else 0

/-- Output rates of Table 5.2 in Hz; 0 for the code marked RANGE. -/
def kerfOut (code : Nat) : Nat := if code = 0 then 8000 else if code = 1 then 16000 else if code = 2 then 48000 else 0

/-- The input rate code of a rate in Hz. -/
def kerfInCode (hz : Nat) : Nat := if hz = 8000 then 0 else if hz = 16000 then 1 else if hz = 48000 then 4 else 7

/-- The output rate code of a rate in Hz. -/
def kerfOutCode (hz : Nat) : Nat := if hz = 8000 then 0 else if hz = 16000 then 1 else 2

/-- The gang of a lane. -/
def Chip.gangOf (c : Chip) (l : Nat) : Nat := c.fld F.kerf_LCFG_GANG l

/-- OWNER of a lane (Table 5.1): 0 FREE, 1 CHANNEL, 2 RING. -/
def Chip.owner (c : Chip) (l : Nat) : Nat := c.fld F.kerf_LRATE_OWNER l

/-- The owned lanes of a gang. -/
def Chip.ownedLanes (c : Chip) (g : Nat) : List Nat :=
  c.regs.filterMap (fun p => match RegName.kerf_LRATE.info.indices (p.1 * 8) with
    | some (l, _) => if wbits p.2 35 34 ≠ 0 ∧ c.gangOf l = g then some l else none
    | none => none)

/-- A filter set's header: N, M and LAT (Table 5.12). -/
structure SetHdr where
  n : Nat
  m : Nat
  lat : Nat
  deriving DecidableEq, Repr

/-- The header of a set of a bank. -/
def Chip.setHdr (c : Chip) (b s : Nat) : SetHdr :=
  ⟨c.fld F.kerf_SETHDR_N b s, c.fld F.kerf_SETHDR_M b s, c.fld F.kerf_SETHDR_LAT b s⟩

/-- A set is in exact mode for a pair of rates when Fo divides Fi * M (R143). -/
def SetHdr.exact (h : SetHdr) (fi fo : Nat) : Bool := (fi * h.m) % fo == 0

/-- D of the despiker for a DSW code (R140). -/
def despikeD (dsw : Nat) : Nat := dsw

/-- The condition of R143 on a set for a lane. -/
def SetHdr.usable (h : SetHdr) (fi fo d : Nat) : Bool :=
  if h.n = 0 then fi == fo && decide (48000 * d ≤ h.lat * fi)
  else decide (48000 * (h.n / 2 + b2n (!h.exact fi fo) + d) ≤ h.lat * fi)

/-- Extra engine cycles of a ring lane: one where a 48 kHz output needs two cycles (R149, Table 5.3). -/
def SetHdr.extra (h : SetHdr) (fi fo : Nat) : Nat :=
  if ¬ h.exact fi fo ∧ 32 < h.n ∧ fo = 48000 then 1 else 0

/-- The active set of a gang, for the present (R138). -/
def Chip.gangHdr (c : Chip) (g : Nat) : SetHdr := c.setHdr (c.fld F.kerf_GANG_ACTBANK g) (c.fld F.kerf_GANG_SET g)

/-- The bank that a gang uses once every accepted swap has taken effect (R148). -/
def Chip.lastBank (c : Chip) (g : Nat) : Nat :=
  let b := c.fld F.kerf_GANG_ACTBANK g
  if c.flag F.kerf_GANG_PENDING g then 1 - b else b

/-- The set that a gang uses once every accepted swap has taken effect: what the engine time of R149 is counted by. -/
def Chip.lastHdr (c : Chip) (g : Nat) : SetHdr := c.setHdr (c.lastBank g) (c.fld F.kerf_GANG_SET g)

/-- The sets that a lane of a gang has to run with: the active one, and that of a pending swap (R148). -/
def Chip.gangHdrs (c : Chip) (g : Nat) : List SetHdr := [c.gangHdr g, c.lastHdr g].eraseDups

/-- The bank a gang uses for the output at MT m (R148): each swap holds for every output later than its t_a. -/
def Chip.bankAt (c : Chip) (g m : Nat) : Nat :=
  let undone := ((Cells.get [] g c.kerf.swapAt).filter (fun ta => decide (m ≤ ta))).length
  (c.lastBank g + undone) % 2

/-- A set is in use (R147). -/
def Chip.setInUse (c : Chip) (b s : Nat) : Bool :=
  c.regs.any (fun p => match RegName.kerf_LRATE.info.indices (p.1 * 8) with
    | some (l, _) =>
      let g := c.gangOf l
      wbits p.2 35 34 ≠ 0 && c.fld F.kerf_GANG_SET g == s &&
        (c.fld F.kerf_GANG_ACTBANK g == b || c.flag F.kerf_GANG_PENDING g)
    | none => false)

/-- The DC, despiker and history state of a lane cleared (R141, R156). -/
def Chip.clearLane (l : Nat) (c : Chip) : Chip := { c with kerf := { c.kerf with lanes := Cells.erase l c.kerf.lanes } }

/-- A lane's state. -/
def Chip.lane (c : Chip) (l : Nat) : LaneSt := Cells.get {} l c.kerf.lanes

/-- A lane's state set. -/
def Chip.setLane (l : Nat) (s : LaneSt) (c : Chip) : Chip := { c with kerf := { c.kerf with lanes := Cells.set {} l s c.kerf.lanes } }

/-- The checks of a claim or enable on rates and sets (R138, R143, R144), for a lane and a pair of rates. A pair without an input
rate, which FUNC.KERF gives with SOURCE and DECODER both 0, is refused with RANGE (R97).
[DEDUCED, log entry 144: unsafe] -/
def Chip.laneStatus (c : Chip) (l fi fo : Nat) (chan : Bool) : Nat :=
  let g := c.gangOf l
  let hs := c.gangHdrs g
  let others := c.ownedLanes g
  if fi = 0 ∨ fo = 0 then St.RANGE
  else if others.any (fun x => x ≠ l && (kerfIn (c.fld F.kerf_LRATE_INRATE x) ≠ fi || kerfOut (c.fld F.kerf_LRATE_OUTRATE x) ≠ fo)) then St.RANGE
  else if hs.any (fun h => !h.usable fi fo (despikeD (c.fld F.kerf_LCFG_DSW l))) then St.RANGE
  else if chan && hs.any (fun h => h.n ≠ 0 && !h.exact fi fo) then St.RANGE
  else St.OK

/-- A lane becomes owned (R136 to R138): rates written, state cleared, counts raised. -/
def Chip.ownLane (l own fi fo : Nat) (c : Chip) : Chip :=
  let g := c.gangOf l
  let c := ((c.put F.kerf_LRATE_OWNER own l).put F.kerf_LRATE_INRATE fi l).put F.kerf_LRATE_OUTRATE fo l
  let c := (c.put F.kerf_LRATE_SPIKES 0 l).clearLane l
  let c := (c.put F.kerf_GANG_INRATE fi g).put F.kerf_GANG_OUTRATE fo g
  if own = 1 then c.addTo F.kerf_LANEUSE_CHANNEL 1 else c.addTo F.kerf_LANEUSE_RING 1

/-- The input rate of an owned lane, and of its gang, changed by an UPDATE that gives DECODER another stream rate while FUNC.KERF
stays 1 (R93, R137).
[DEDUCED, log entry 145: unsafe] -/
def Chip.rateLane (l fi : Nat) (c : Chip) : Chip :=
  (c.put F.kerf_LRATE_INRATE fi l).put F.kerf_GANG_INRATE fi (c.gangOf l)

/-- A pending swap takes effect: ACTBANK toggles and PENDING clears (R148). -/
def Chip.doSwap (g : Nat) (c : Chip) : Chip :=
  (c.put F.kerf_GANG_ACTBANK (1 - c.fld F.kerf_GANG_ACTBANK g) g).put F.kerf_GANG_PENDING 0 g

/-- A lane becomes FREE (R136, R148, R154). -/
def Chip.freeLane (l : Nat) (c : Chip) : Chip :=
  let own := c.owner l
  if own = 0 then c
  else
    let g := c.gangOf l
    let extra := if own = 2 then (c.lastHdr g).extra (kerfIn (c.fld F.kerf_LRATE_INRATE l)) (kerfOut (c.fld F.kerf_LRATE_OUTRATE l)) else 0
    let c := ((c.put F.kerf_LRATE_OWNER 0 l).clearLane l).subFrom F.kerf_XUSE_EXTRA extra
    let c := if own = 1 then c.subFrom F.kerf_LANEUSE_CHANNEL 1 else c.subFrom F.kerf_LANEUSE_RING 1
    if (c.ownedLanes g).isEmpty then
      let c := (c.put F.kerf_GANG_INRATE 0 g).put F.kerf_GANG_OUTRATE 0 g
      let c := { c with kerf := { c.kerf with swapAt := Cells.erase g c.kerf.swapAt } }
      if c.flag F.kerf_GANG_PENDING g then c.doSwap g else c
    else c

/-- A request to swap the banks of a gang (R148). -/
def Chip.swapRequest (g : Nat) (c : Chip) : Chip :=
  let own := c.ownedLanes g
  let b := c.fld F.kerf_GANG_ACTBANK g
  if own.isEmpty then c.put F.kerf_GANG_ACTBANK (1 - b) g
  else
    let s := c.fld F.kerf_GANG_SET g
    let old := c.setHdr b s
    let new := c.setHdr (1 - b) s
    let fi (l : Nat) := kerfIn (c.fld F.kerf_LRATE_INRATE l)
    let fo (l : Nat) := kerfOut (c.fld F.kerf_LRATE_OUTRATE l)
    let bad := own.any (fun l => !new.usable (fi l) (fo l) (despikeD (c.fld F.kerf_LCFG_DSW l)) ||
      (c.owner l == 1 && new.n ≠ 0 && !new.exact (fi l) (fo l)))
    let rings := own.filter (fun l => c.owner l == 2)
    let more := (rings.map (fun l => new.extra (fi l) (fo l))).sum
    let less := (rings.map (fun l => old.extra (fi l) (fo l))).sum
    let x := c.fld F.kerf_XUSE_EXTRA + more - less
    if bad ∨ old.lat ≠ new.lat then c.err F.kerf_STATUS_LASTERR St.RANGE
    else if 9216 < x ∧ less < more then c.err F.kerf_STATUS_LASTERR St.QUOTA
    else if c.flag F.kerf_GANG_PENDING g then c.err F.kerf_STATUS_LASTERR St.BUSY
    else
      let c := (c.put F.kerf_GANG_PENDING 1 g).put F.kerf_XUSE_EXTRA x
      { c with kerf := { c.kerf with swapAt := Cells.modify [] g (fun l => c.mt :: l) c.kerf.swapAt } }

/-- MT of the first output sample of a rate that lies later than t (R148). -/
def outputAfter (fo t : Nat) : Nat := let u := 48000 / fo; (t / u + 1) * u

/-- The swap point: the first output sample later than acceptance (R148).
[DEDUCED, log entry 5: safe] -/
def Chip.swapPoint (g : Nat) (c : Chip) : Chip :=
  match Cells.get [] g c.kerf.swapAt with
  | [] => c
  | ta :: _ =>
    if c.flag F.kerf_GANG_PENDING g ∧ outputAfter (kerfOut (c.fld F.kerf_GANG_OUTRATE g)) ta ≤ c.mt then c.doSwap g else c

/-- A write of KERF.GANG: SET is RWI while a lane is owned; SWAP requests a swap (Table 5.13). -/
def Chip.writeGang (g : Nat) (v : Word) (c : Chip) : Chip :=
  if wbits v 35 32 ≠ c.fld F.kerf_GANG_SET g ∧ ¬ (c.ownedLanes g).isEmpty then c.err F.kerf_STATUS_LASTERR St.BUSY
  else
    let c := c.put F.kerf_GANG_SET (wbits v 35 32) g
    if wbit v 30 then c.swapRequest g else c

/-- A write of KERF.LCFG (R138, R141, R143, Table 5.14). -/
def Chip.writeLcfg (l : Nat) (v : Word) (c : Chip) : Chip :=
  let g := c.gangOf l
  let g' := wbits v 35 22
  let dck := wbits v 21 17
  let dsw := wbits v 15 14
  if (1 ≤ dck ∧ dck ≤ 5) ∨ 17 ≤ dck then c.err F.kerf_STATUS_LASTERR St.RANGE
  else if c.owner l ≠ 0 && (c.gangHdrs g).any (fun h => !h.usable (kerfIn (c.fld F.kerf_LRATE_INRATE l))
      (kerfOut (c.fld F.kerf_LRATE_OUTRATE l)) (despikeD dsw)) then c.err F.kerf_STATUS_LASTERR St.RANGE
  else if g' ≠ g ∧ c.owner l ≠ 0 then c.err F.kerf_STATUS_LASTERR St.BUSY
  else
    let c := c.wr .kerf_LCFG v l
    if g' ≠ g then (c.subFrom F.kerf_GANG_MEMBERS 1 g).addTo F.kerf_GANG_MEMBERS 1 g' else c

/-- The checks of enabling a ring lane with the settings of a write (R150, R152). -/
def Chip.ringStatus (l : Nat) (v : Word) (c : Chip) : Nat :=
  let fi := kerfIn (wbits v 32 30)
  let fo := kerfOut (wbits v 29 28)
  St.pick [St.when (decide (10 < wbits v 27 24 ∨ 10 < wbits v 23 20) || c.laneStatus l fi fo false != St.OK) St.RANGE,
    St.when (decide (9216 < c.fld F.kerf_XUSE_EXTRA + (c.lastHdr (c.gangOf l)).extra fi fo)) St.QUOTA]

/-- Enabling a ring lane with the settings of a write (R150, R152). -/
def Chip.enableRing (l : Nat) (v : Word) (c : Chip) : Chip :=
  let fi := kerfIn (wbits v 32 30)
  let fo := kerfOut (wbits v 29 28)
  let h := c.lastHdr (c.gangOf l)
  let st := c.ringStatus l v
  if st ≠ St.OK then c.err F.kerf_STATUS_LASTERR st
  else
    let c := c.wr .kerf_LRATE (wput (wput v 35 34 0) 19 0 0) l
    let c := (c.ownLane l 2 (wbits v 32 30) (wbits v 29 28)).addTo F.kerf_XUSE_EXTRA (h.extra fi fo)
    let first := (c.mt / c.blockB + 1) * c.blockB
    c.setLane l { nextBlock := first }

/-- Stopping a ring lane (R154): the block in progress completes and no further block is written. -/
def Chip.stopRing (l : Nat) (c : Chip) : Chip :=
  (c.put F.kerf_LRATE_EN 0 l).setLane l { c.lane l with stopAt := some c.mt }

/-- A write of KERF.LRATE (R152, R154, Table 5.15): BUSY while OWNER is CHANNEL, and while it is RING unless it stops the
lane; a lane that is stopping stops when it did.
[DEDUCED, log entry 42: unsafe] -/
def Chip.writeLrate (l : Nat) (v : Word) (c : Chip) : Chip :=
  let own := c.owner l
  let old := c.rd .kerf_LRATE l
  let en := wbit v 33
  let busy (c : Chip) : Chip := c.err F.kerf_STATUS_LASTERR (St.pick [if en then c.ringStatus l v else St.OK, St.BUSY])
  if own = 1 ∨ (own = 2 ∧ (en ∨ wbits v 32 20 ≠ wbits old 32 20)) then busy c
  else if own = 2 then (if wbit old 33 then c.stopRing l else c)
  else if en then c.enableRing l v
  else c.wr .kerf_LRATE (wput (wput v 35 33 0) 19 0 (wbits old 19 0)) l

/-- A write of a ring base (R152): RWI while the lane is owned. -/
def Chip.writeRingBase (r : RegName) (l : Nat) (v : Word) (c : Chip) : Chip :=
  if c.owner l ≠ 0 ∧ wbits v 33 0 ≠ wbits (c.rd r l) 33 0 then c.err F.kerf_STATUS_LASTERR St.BUSY
  else c.wr r (wput v 35 34 0) l

/-- A write of KERF.SETHDR (R147, Table 5.12). -/
def Chip.writeSetHdr (b s : Nat) (v : Word) (c : Chip) : Chip :=
  if wbits v 13 7 = 0 ∨ 64 < wbits v 13 7 ∨ 64 < wbits v 6 0 then c.err F.kerf_STATUS_LASTERR St.RANGE
  else if c.setInUse b s then c.err F.kerf_STATUS_LASTERR St.BUSY
  else c.wr .kerf_SETHDR (wput v 35 26 0) b s

/-- The place of KERF.COEFADDR in the store. -/
def Chip.coefPlace (c : Chip) : Nat :=
  (c.fld F.kerf_COEFADDR_BANK * 16 + c.fld F.kerf_COEFADDR_SET) * 4096 + c.fld F.kerf_COEFADDR_INDEX

/-- INDEX advances after each access (Table 5.10). -/
def Chip.coefAdvance (c : Chip) : Chip := c.put F.kerf_COEFADDR_INDEX (c.fld F.kerf_COEFADDR_INDEX + 1)

/-- A coefficient word stored. -/
def Chip.putCoef (a : Nat) (v : Word) (c : Chip) : Chip :=
  { c with kerf := { c.kerf with coefs := Cells.set 0 a (wput v 35 24 0) c.kerf.coefs }, upsets := c.upsets.filter (· ≠ .coef a) }

/-- A write of KERF.COEFDATA (R147): ignored with BUSY for a set in use; the address advances all the same. -/
def Chip.writeCoef (v : Word) (c : Chip) : Chip :=
  let c' := if c.setInUse (c.fld F.kerf_COEFADDR_BANK) (c.fld F.kerf_COEFADDR_SET) then
      c.err F.kerf_STATUS_LASTERR St.BUSY
    else c.putCoef c.coefPlace v
  c'.coefAdvance

/-- A read of KERF.COEFDATA.
[DESIGN CHOICE, log entry 12: unsafe] -/
def Chip.readCoef (c : Chip) : Word × Chip := (Cells.get 0 c.coefPlace c.kerf.coefs, c.coefAdvance)

/-- An integer put in its place in a rising list. -/
def insertInt (x : Int) : List Int → List Int
  | [] => [x]
  | y :: r => if x ≤ y then x :: y :: r else y :: insertInt x r

/-- A list of integers in rising order. -/
def sortInts (l : List Int) : List Int := l.foldr insertInt []

/-- The middle value of a list of odd length. -/
def median (l : List Int) : Int := (sortInts l).getD (l.length / 2) 0

/-- Original sample j of a lane; before the first one held, 0. -/
def LaneSt.orig (s : LaneSt) (j : Int) : Int := if j < s.rawAt then 0 else s.raw.getD (j - s.rawAt).toNat 0

/-- One input sample conditioned (R140, R141): despiker, then DC blocker. `up` chooses the rounding of the DC
step's last fraction bit, which the spec leaves open. The count of replacements is returned. -/
def LaneSt.condition (s : LaneSt) (dsw thr dck : Nat) (frz up : Bool) : LaneSt × Nat :=
  let j := s.histAt + 1
  let d : Int := (despikeD dsw : Nat)
  let x := s.orig j
  let m := median ((List.range (2 * despikeD dsw + 1)).map (fun (i : Nat) => s.orig (j - d + (i : Int))))
  let hit := decide (dsw ≠ 0 ∧ ((thr * 2 ^ 19 : Nat) : Int) < ((x - m).natAbs : Int))
  let x := if hit then m else x
  let y := if dck = 0 then x else sat36 (x - s.dc / (2 ^ 20 : Nat))
  let e := if dck = 0 ∨ frz then s.dc else
    let num := x * (2 ^ 20 : Nat) - s.dc
    let q := num / ((2 ^ dck : Nat) : Int)
    s.dc + (if up ∧ num % ((2 ^ dck : Nat) : Int) ≠ 0 then q + 1 else q)
  ({ s with histAt := j, hist := y :: s.hist, dc := e }, b2n hit)

/-- Inputs conditioned while their look-ahead is held; the replacements and the samples conditioned are counted. -/
def LaneSt.conditionAll (dsw thr dck : Nat) (frz : Bool) (draw : Nat) : Nat → LaneSt → Nat → LaneSt × Nat
  | 0, s, k => (s, k)
  | f + 1, s, k =>
    if s.histAt + 1 + (despikeD dsw : Nat) < s.rawAt + s.raw.length then
      let (s, h) := s.condition dsw thr dck frz (Config.freeBit (draw + f))
      LaneSt.conditionAll dsw thr dck frz draw f s (k + h)
    else (s, k)

/-- The conditioned samples that a lane keeps: what R142 and R145 read back for the largest LAT, 4,095 samples, at 96 kHz
(8,190 inputs), with 64 taps and the interpolation's one.
[DEDUCED, log entry 155: unsafe] -/
def histKept : Nat := 8190 + 64 + 4

/-- A lane keeps the history that its outputs may still need, and the original samples its despiker does.
[DEDUCED, log entry 155: unsafe] -/
def LaneSt.trim (s : LaneSt) : LaneSt :=
  let keep := s.histAt - 2
  { s with hist := s.hist.take histKept, raw := s.raw.drop (keep - s.rawAt).toNat, rawAt := max s.rawAt keep }

/-- Conditioned input j, from the history (R142). -/
def LaneSt.h (s : LaneSt) (j : Int) : Int := if s.histAt < j then 0 else s.hist.getD (s.histAt - j).toNat 0

/-- The places of the coefficient words of a set that are uncorrectable: the one that a request met, and those that stand
in the store. -/
def Chip.badCoefs (c : Chip) (s : Nat) (err : KerfErr) : List Nat :=
  (match err with
    | .coef b i => [(b.val * 16 + s) * 4096 + i.val]
    | _ => []) ++ c.upsets.filterMap (fun u => match u with | .coef a => some a | _ => Option.none)

/-- y(p, J) of R142, in units of 2^-22 of an S36 step; a coefficient word whose place is in `bad` is used as 0 (R155). -/
def Chip.tapSum (c : Chip) (b s : Nat) (hd : SetHdr) (ln : LaneSt) (bad : List Nat) (p : Nat) (j : Int) : Int :=
  ((List.range hd.n).map (fun (k : Nat) =>
    let a := (b * 16 + s) * 4096 + p * hd.n + k
    let co := if bad.contains a then 0 else signed 24 (Cells.get 0 a c.kerf.coefs).toNat
    co * ln.h (j + (hd.n / 2 : Nat) - (k : Int)))).sum

/-- J, p and u of R142 for the output at MT m. -/
def SetHdr.point (hd : SetHdr) (fi fo m : Nat) : Int × Nat × Nat :=
  let num : Int := ((m : Int) - hd.lat) * fi
  let d := fo / Nat.gcd fi fo
  -- the numerator of frac(x) over d
  let r := (num % 48000).toNat * d / 48000
  let pp := r * hd.m
  (num / 48000, pp / d, (pp % d) * 2 ^ 18 / d)

/-- The phases that an output reads (R143). -/
def SetHdr.phases (hd : SetHdr) (fi fo m : Nat) : List Nat :=
  let (_, p, u) := hd.point fi fo m
  if hd.n = 0 then [] else if u = 0 then [p] else [p, if p + 1 = hd.m then 0 else p + 1]

/-- The output of a lane at MT m (R142, R143, R145). -/
def Chip.laneOut (c : Chip) (l : Nat) (ln : LaneSt) (bad : List Nat) (m : Nat) : Int :=
  let g := c.gangOf l
  let b := c.bankAt g m
  let s := c.fld F.kerf_GANG_SET g
  let hd := c.setHdr b s
  let (j, p, u) := hd.point (kerfIn (c.fld F.kerf_LRATE_INRATE l)) (kerfOut (c.fld F.kerf_LRATE_OUTRATE l)) m
  if hd.n = 0 then ln.h j
  else
    let y0 := c.tapSum b s hd ln bad p j
    let y1 := if u = 0 then y0 else if p + 1 = hd.m then c.tapSum b s hd ln bad 0 (j + 1) else c.tapSum b s hd ln bad (p + 1) j
    sat36 (roundShift 40 (y0 * (2 ^ 18 : Nat) + (u : Nat) * (y1 - y0)))

/-- The last of the uncorrectable coefficient words that the outputs of a lane at media times read, by its place (R155). -/
def Chip.coefMet (c : Chip) (l : Nat) (bad ms : List Nat) : Option Nat :=
  let g := c.gangOf l
  let s := c.fld F.kerf_GANG_SET g
  let fi := kerfIn (c.fld F.kerf_LRATE_INRATE l)
  let fo := kerfOut (c.fld F.kerf_LRATE_OUTRATE l)
  if bad.isEmpty then none
  else
    ((ms.flatMap (fun m =>
      let b := c.bankAt g m
      let hd := c.setHdr b s
      (hd.phases fi fo m).flatMap (fun p => (List.range hd.n).map (fun k => (b * 16 + s) * 4096 + p * hd.n + k)))).filter
        bad.contains).getLast?

/-- Inputs from sample j0 on placed in a lane: one that it already has is not taken again, one that was never handed is 0 in
its history (R139).
[DEDUCED, log entry 155: unsafe] -/
def LaneSt.feed (j0 : Int) (xs : List Int) (s : LaneSt) : LaneSt :=
  let next := s.rawAt + s.raw.length
  if s.raw.isEmpty ∧ s.hist.isEmpty then { s with rawAt := j0, histAt := j0 - 1, raw := xs }
  else if j0 ≤ next then { s with raw := s.raw ++ xs.drop (next - j0).toNat }
  else { s with rawAt := j0, raw := xs, histAt := j0 - 1,
                hist := (List.replicate (min histKept (j0 - 1 - s.histAt).toNat) 0 ++ s.hist).take histKept }

/-- Inputs handed to a lane, from input sample j0 on, and its outputs at the media times given (R139 to R143). The
replacements of the despiker are counted, and an uncorrectable coefficient is recorded (R140, R155). -/
def Chip.runLane (l : Nat) (j0 : Int) (xs : List Int) (ms : List Nat) (err : KerfErr) (c : Chip) : List Int × Chip :=
  let s := (c.lane l).feed j0 xs
  let bad := c.badCoefs (c.fld F.kerf_GANG_SET (c.gangOf l)) err
  let (s, hits) := s.conditionAll (c.fld F.kerf_LCFG_DSW l) (c.fld F.kerf_LCFG_THR l) (c.fld F.kerf_LCFG_DCK l)
    (c.flag F.kerf_LCFG_DCFRZ l) c.draws (xs.length + 4) 0
  let ys := ms.map (fun m => c.laneOut l s bad m)
  let c := { c with draws := c.draws + xs.length + 4 }
  let c := match c.coefMet l bad ms with
    | none => c
    | some a => ((c.put F.kerf_STATUS_COEFERR 1).put F.kerf_STATUS_COEFBANK (a / 65536)).put F.kerf_STATUS_COEFSET (a / 4096 % 16)
  (ys, (c.bump F.kerf_LRATE_SPIKES hits l).setLane l s.trim)

/-- The samples of rate `hz` whose MT lies in [a, b): the first index and their number. -/
def samplesIn (hz a b : Nat) : Nat × Nat := (ceilDiv (a * hz) 48000, ceilDiv (b * hz) 48000 - ceilDiv (a * hz) 48000)

/-- The media times of the samples of rate `hz` in [a, b). -/
def timesIn (hz a b : Nat) : List Nat :=
  let (n0, n) := samplesIn hz a b
  (List.range n).map (fun i => (n0 + i) * 48000 / hz)

/-- A word of a ring of DRAM, read for a ring lane: 0 where the read is answered with an error (R155). -/
def Chip.ringIn (c : Chip) (l : Nat) (j : Nat) : Int :=
  signed 36 (c.word (c.fld F.kerf_LIBASE_IBASE l * 16 + j % 2 ^ (c.fld F.kerf_LRATE_ISZ l + 10))).toNat

/-- The bursts of the input ring that a range of samples covers and whose read is answered with an error. -/
def Chip.ringBad (c : Chip) (l j0 n : Nat) : Nat :=
  let bursts := (List.range n).map (fun i =>
    (c.fld F.kerf_LIBASE_IBASE l * 16 + (j0 + i) % 2 ^ (c.fld F.kerf_LRATE_ISZ l + 10)) / 16)
  ((bursts.eraseDups).filter (fun b => !c.burstOk b)).length

/-- Errors met in those bursts are logged (R155, R420). -/
def Chip.logRing (l j0 n : Nat) (c : Chip) : Chip :=
  (((List.range n).map (fun i =>
    (c.fld F.kerf_LIBASE_IBASE l * 16 + (j0 + i) % 2 ^ (c.fld F.kerf_LRATE_ISZ l + 10)) / 16)).eraseDups).foldl
    (fun c b => c.readLog Src.CORES (b * 16) 16) c

/-- The oldest input sample that the first output of a block at MT m needs (R152). -/
def Chip.primeFrom (c : Chip) (l m : Nat) : Nat :=
  let hd := c.gangHdr (c.gangOf l)
  let fi := kerfIn (c.fld F.kerf_LRATE_INRATE l)
  let j : Int := ((m : Int) - hd.lat) * fi / 48000
  (j + (hd.n / 2 : Nat) - (hd.n - 1 : Nat)).toNat

/-- A ring lane has a block to compute: its next one has ended, before the lane was stopped (R153, R154). -/
def Chip.ringDue (c : Chip) (l : Nat) : Bool :=
  let s := c.lane l
  let b := s.nextBlock + c.blockB
  c.owner l == 2 && (match s.stopAt with | none => decide (b ≤ c.mt) | some t => decide (b ≤ t)) && !c.chanRec

/-- Some ring lane has a block to compute. -/
def Chip.ringWork (c : Chip) : Bool := c.kerf.lanes.any (fun p => c.ringDue p.1)

/-- A core's frame request to the Kerf engine waits or is in progress (R151). -/
def CoreSt.hasKreq (s : CoreSt) : Bool := s.xfers.any (fun t => match t with | .kreq _ _ _ _ _ => true | _ => false)

/-- The request in progress, if its core has not abandoned it. -/
def Chip.kerfServing (c : Chip) : Option Nat := c.kerf.serving.filter (fun k => (c.core k).hasKreq)

/-- The core whose request came first of those that wait. -/
def Chip.kerfFirst (c : Chip) : Option Nat := List.find? (fun k => (c.core k).hasKreq) c.kerf.reqs

/-- The engine takes the next request up where nothing is in progress and no ring work goes before it (R151). -/
def Chip.kerfNext (c : Chip) : Chip :=
  if c.kerfServing.isSome ∨ c.ringWork then c else { c with kerf := { c.kerf with serving := c.kerfFirst } }

/-- A core's request arrives at the engine (R151). -/
def Chip.kerfArrive (k : Nat) (c : Chip) : Chip :=
  ({ c with kerf := { c.kerf with reqs := c.kerf.reqs.filter (· ≠ k) ++ [k] } } : Chip).kerfNext

/-- A core's request is done. -/
def Chip.kerfServed (k : Nat) (c : Chip) : Chip :=
  ({ c with kerf := { c.kerf with reqs := c.kerf.reqs.filter (· ≠ k), serving := none } } : Chip).kerfNext

/-- A core's request can complete: it is in progress, or the first of those that wait with nothing before it (R151). -/
def Chip.kerfTurn (c : Chip) (k : Nat) : Bool :=
  match c.kerfServing with
  | some j => j == k
  | none => c.kerfFirst == some k && !c.ringWork

/-- A ring lane's block [b - B, b) is computed after boundary b and written to its output ring (R152 to R155); a request in
progress goes before it (R151). -/
def Chip.ringBlock (l : Nat) (err : KerfErr) (c : Chip) : Chip :=
  let s := c.lane l
  let a := s.nextBlock
  let b := a + c.blockB
  if !c.ringDue l || c.kerfServing.isSome then c
  else if err = .lane ∨ c.upset (.lane l) then
    (((c.heal (.lane l)).bump F.kerf_RINGUNCORR_EVENTS).setLane l { nextBlock := b, stopAt := s.stopAt }).kerfNext
  else
    let fi := kerfIn (c.fld F.kerf_LRATE_INRATE l)
    let fo := kerfOut (c.fld F.kerf_LRATE_OUTRATE l)
    let fresh := s.raw.isEmpty && s.hist.isEmpty
    let j0 := if fresh then c.primeFrom l a else (s.rawAt + s.raw.length).toNat
    let n := ceilDiv (b * fi) 48000 - j0
    let xs := (List.range n).map (fun i => c.ringIn l (j0 + i))
    let bad := c.ringBad l j0 n
    let c := c.logRing l j0 n
    let (ys, c) := c.runLane l j0 xs (timesIn fo a b) err
    let (n0, _) := samplesIn fo a b
    let ob := c.fld F.kerf_LOBASE_OBASE l * 16
    let m := 2 ^ (c.fld F.kerf_LRATE_OSZ l + 10)
    let c := (ys.zipIdx).foldl (fun c p => c.putWord (ob + (n0 + p.2) % m) (wofInt p.1) Src.CORES) c
    ((c.bump F.kerf_RINGUNCORR_EVENTS bad).setLane l { c.lane l with nextBlock := b }).kerfNext

/-- A stopped ring lane's OWNER becomes FREE at the next block boundary (R154). -/
def Chip.ringRelease (l : Nat) (c : Chip) : Chip :=
  match (c.lane l).stopAt with
  | none => c
  | some t => if c.owner l = 2 ∧ (t / c.blockB + 1) * c.blockB ≤ c.mt then c.freeLane l else c

/-- A lane without its history and the despiker's window. -/
def LaneSt.noHistory (s : LaneSt) : LaneSt := { s with rawAt := 0, raw := [], histAt := 0, hist := [] }

/-- RECOVERY of the channel domain: lanes discard their work in progress and their history; DC estimates are kept (R156). -/
def Chip.recoverKerf (c : Chip) : Chip :=
  { c with kerf := { c.kerf with lanes := c.kerf.lanes.map (fun p => (p.1, p.2.noHistory)), reqs := [], serving := none } }

/-- Ring lanes resume with the first whole block that starts after RECOVERY completes (R156). -/
def Chip.resumeKerf (c : Chip) : Chip :=
  let first := (c.mt / c.blockB + 1) * c.blockB
  { c with kerf := { c.kerf with lanes := c.kerf.lanes.map (fun p => (p.1, { p.2 with nextBlock := if c.owner p.1 = 2 then first else p.2.nextBlock })) } }

end Sys2Proof.Machine
end

