-- ==== Sys2Proof/Machine/Baler.lean ====
section
/-! DEFINITION. The Baler block coder (R209 to R232): coded blocks and run blocks, the coder's choices, jobs, their
checks, their rings and their completion. -/
namespace Sys2Proof.Machine

open Sys2Proof

/-- S in words for a size code (Table 8.2); 0 for a code marked RANGE. -/
def balerS (size : Nat) : Nat :=
  if size = 0 then 32 else if size = 1 then 24 else if size = 2 then 16 else if size = 3 then 12
  else if size = 4 then 8 else 0

/-- Payload bits of a coded block (Table 8.2). -/
def balerBits (size : Nat) : Nat := (balerS size - 1) * 36

/-- ZRAW (Table 8.2): the smallest shift at which any 64 words fit unpredicted. -/
def balerZraw (size : Nat) : Nat := 36 - balerBits size / 64

/-- A bound code that R218 refuses for a size: ZCAP below ZRAW. -/
def boundBad (size bound : Nat) : Bool := decide (bound ≠ 0 ∧ bound + 20 < balerZraw size)

/-- The signed value of a word. -/
def sval (w : Word) : Int := signed 36 w.toNat

/-- Trailing zero bits of a number, at most `n`. -/
def trailing : Nat → Nat → Nat
  | 0, _ => 0
  | n + 1, v => if v % 2 = 1 then 0 else 1 + trailing n (v / 2)

/-- Z of the lossless attempt: the least trailing-zero count, 35 where every word is zero (R216). -/
def losslessZ (xs : List Word) : Nat := xs.foldl (fun z x => min z (trailing 35 x.toNat)) 35

/-- Residual `i` of order `k` of a sequence (R214). -/
def residual (ys : List Int) (order i : Nat) : Int :=
  let y (j : Nat) : Int := ys.getD j 0
  let k := min order i
  if k = 0 then y i else if k = 1 then y i - y (i - 1) else if k = 2 then y i - 2 * y (i - 1) + y (i - 2)
  else y i - 3 * y (i - 1) + 3 * y (i - 2) - y (i - 3)

/-- The residuals r1 to r(V-1) of an order. -/
def residuals (ys : List Int) (order : Nat) : List Int := (List.range (ys.length - 1)).map (fun i => residual ys order (i + 1))

/-- The smallest signed width that holds a value, at most `n`; 0 for zero. -/
def widthOf (n : Nat) (x : Int) : Nat :=
  if x = 0 then 0
  else match (List.range n).find? (fun w => decide (-(2 ^ w : Nat) ≤ x ∧ x < (2 ^ w : Nat))) with
    | some w => w + 1
    | none => n + 1

/-- W of an order (R216). -/
def widthFor (ys : List Int) (order : Nat) : Nat := (residuals ys order).foldl (fun w r => max w (widthOf 40 r)) 0

/-- The order with the smallest W, a tie to the lower order, with its W (R216). -/
def bestOrder (ys : List Int) : Nat × Nat :=
  [1, 2, 3].foldl (fun b o => let w := widthFor ys o; if w < b.2 then (o, w) else b) (0, widthFor ys 0)

/-- The header of a coded block (Table 8.3). -/
def codedHeader (size valid : Nat) (lossy : Bool) (order z w : Nat) : Nat :=
  size * 2 ^ 31 + valid * 2 ^ 24 + b2n lossy * 2 ^ 23 + order * 2 ^ 21 + z * 2 ^ 15 + w * 2 ^ 9

/-- A bit string of (width, value) fields, most significant first, as one number. -/
def packFields : List (Nat × Int) → Nat
  | l => l.foldl (fun a f => a * 2 ^ f.1 + unsignedOf f.1 f.2) 0

/-- A bit string of `used` bits laid into `n` words from bit 35 of the first word downward (R214). -/
def bitWords (n used v : Nat) : List Word :=
  let big := v * 2 ^ (n * 36 - used)
  (List.range n).map (fun i => wofNat (big / 2 ^ ((n - 1 - i) * 36)))

/-- One attempt at a shift (R216, R219): the coded words, none where they do not fit. -/
def tryShift (size : Nat) (xs : List Word) (z : Nat) (lossy : Bool) : Option (List Word) :=
  let ys := xs.map (fun x => sval x / (2 ^ z : Nat))
  let (o, w) := bestOrder ys
  let used := (36 - z) + (xs.length - 1) * w
  if balerBits size < used then none
  else
    let fields := (36 - z, ys.getD 0 0) :: (residuals ys o).map (fun r => (w, r))
    some (wofNat (codedHeader size xs.length lossy o z w) :: bitWords (balerS size - 1) used (packFields fields))

/-- A block coded (R216, R219): its words and whether it is quantised; none where a strict job meets NOFIT. -/
def codeBlock (size bound : Nat) (xs : List Word) : Option (List Word × Bool) :=
  let z := losslessZ xs
  match tryShift size xs z false with
  | some b => some (b, false)
  | none =>
    if bound = 0 then none
    else ((List.range (bound + 20 - z)).findSome? (fun i => tryShift size xs (z + 1 + i) true)).map (fun b => (b, true))

/-- A run block (Table 8.4). -/
def runBlock (size rep : Nat) : List Word :=
  wofNat (2 ^ 34 + size * 2 ^ 31 + rep * 2 ^ 15) :: List.replicate (balerS size - 1) 0

/-- What a decoder finds in one coded block. -/
inductive Decoded where
  | words (ws : List Word) (lossy : Bool)
  | run (rep : Nat)
  | format
  deriving DecidableEq, Repr

/-- The values rebuilt from residuals (R214), oldest first; none where one leaves the range. -/
def rebuild (order bits : Nat) : List Int → List Int → Option (List Int)
  | ys, [] => some ys
  | ys, r :: rest =>
    let i := ys.length
    let y (j : Nat) : Int := ys.getD (i - j) 0
    let k := min order i
    let v := if k = 0 then r else if k = 1 then r + y 1 else if k = 2 then r + 2 * y 1 - y 2
      else r + 3 * y 1 - 3 * y 2 + y 3
    if satN bits v = v then rebuild order bits (ys ++ [v]) rest else none

/-- One coded block decoded (R213, R214). -/
def decodeBlock (size : Nat) (b : List Word) : Decoded :=
  let h := b.getD 0 0
  let pay := b.drop 1
  let n := pay.length * 36
  let v := pay.foldl (fun a w => a * 2 ^ 36 + w.toNat) 0
  if wbits h 33 31 ≠ size then .format
  else if wbits h 35 34 = 1 then
    if wbits h 30 15 = 0 ∨ wbits h 14 0 ≠ 0 ∨ v ≠ 0 then .format else .run (wbits h 30 15)
  else if wbits h 35 34 ≠ 0 then .format
  else
    let valid := wbits h 30 24
    let lossy := wbit h 23
    let order := wbits h 22 21
    let z := wbits h 20 15
    let w := wbits h 14 9
    let used := (36 - z) + (valid - 1) * w
    if valid = 0 ∨ 64 < valid ∨ 35 < z ∨ (z = 0 ∧ lossy) ∨ 36 < w ∨ wbits h 8 0 ≠ 0 ∨ n < used then .format
    else if v % 2 ^ (n - used) ≠ 0 then .format
    else
      let y0 := signed (36 - z) (v / 2 ^ (n - (36 - z)))
      let rs := (List.range (valid - 1)).map (fun i =>
        if w = 0 then (0 : Int) else signed w (v / 2 ^ (n - (36 - z) - (i + 1) * w)))
      match rebuild order (36 - z) [y0] rs with
      | none => .format
      | some ys => .words (ys.map (fun y => wofInt (y * (2 ^ z : Nat) + (if lossy then (2 ^ (z - 1) : Nat) else 0)))) lossy

/-- The outcome of a job (R225): status, whether a block was quantised, the counts, the output words, and how many
blocks were stored quantised. -/
structure JobEnd where
  status : Nat := St.OK
  lossy : Bool := false
  consumed : Nat := 0
  out : List Word := []
  quant : Nat := 0
  deriving DecidableEq, Repr

/-- What a compress job holds between blocks: the result so far, the previous block where a run may continue it,
and the pending run. -/
structure Packer where
  done : JobEnd := {}
  prev : Option (List Word) := none
  pending : Nat := 0
  deriving DecidableEq, Repr

/-- What a job sees of its memories: whether input block words are readable, by offset and count, whether output
words can be written, and a block whose verification mismatches, by itself or in the run that counts it (R222). -/
structure JobEnv where
  size : Nat
  bound : Nat
  space : Nat
  /-- Offsets of input words whose read is uncorrectable. -/
  badIn : List Nat
  /-- Offsets of output words whose write is answered with an error. -/
  badOut : List Nat
  mismatch : Option Nat
  deriving DecidableEq, Repr

/-- A range of offsets meets a list of offsets. -/
def hits (l : List Nat) (a n : Nat) : Bool := l.any (fun x => decide (a ≤ x ∧ x < a + n))

/-- The pending run emitted before block `i` (R220, R222): the status that stops the job where its space is missing, its
verification mismatches or its write fails. -/
def Packer.emitRun (e : JobEnv) (i : Nat) (p : Packer) : Except Nat Packer :=
  if p.pending = 0 then .ok p
  else
    let s := balerS e.size
    let n := p.done.out.length
    if e.space < n + s then .error St.SPACE
    else if e.mismatch.any (fun m => decide (i ≤ m + p.pending ∧ m < i)) then .error St.VERIFY
    else if hits e.badOut n s then .error St.UNCORR
    else .ok { p with pending := 0, done := { p.done with
      out := p.done.out ++ runBlock e.size p.pending, consumed := p.done.consumed + 64 * p.pending } }

/-- A job stopped with a status. -/
def Packer.stop (p : Packer) (st : Nat) : JobEnd := { p.done with status := st }

/-- A block coded and stored (R216 to R222). -/
def Packer.store (e : JobEnv) (i : Nat) (xs : List Word) (p : Packer) : Except JobEnd Packer :=
  let s := balerS e.size
  let n := p.done.out.length
  if e.space < n + s then .error (p.stop St.SPACE)
  else if hits e.badIn (64 * i) xs.length then .error (p.stop St.UNCORR)
  else match codeBlock e.size e.bound xs with
    | none => .error (p.stop St.NOFIT)
    | some (b, lossy) =>
      if e.mismatch = some i then .error (p.stop St.VERIFY)
      else if hits e.badOut n s then .error (p.stop St.UNCORR)
      else .ok { p with
        prev := if xs.length = 64 ∧ ¬ lossy then some xs else none
        done := { p.done with out := p.done.out ++ b, consumed := p.done.consumed + xs.length,
                              lossy := p.done.lossy || lossy, quant := p.done.quant + b2n lossy } }

/-- One block of a compress job (R217, R220). -/
def Packer.block (e : JobEnv) (i : Nat) (xs : List Word) (p : Packer) : Except JobEnd Packer :=
  let may := decide (xs.length = 64) && p.prev.isSome
  if may ∧ hits e.badIn (64 * i) 64 then .error (p.stop St.UNCORR)
  else if may ∧ p.prev = some xs then
    let p := { p with pending := p.pending + 1 }
    if p.pending = 65535 then
      match p.emitRun e (i + 1) with
      | .error st => .error (p.stop st)
      | .ok p => .ok p
    else .ok p
  else match p.emitRun e i with
    | .error st => .error (p.stop st)
    | .ok p => p.store e i xs

/-- The blocks of a compress job in order. -/
def Packer.go (e : JobEnv) : Nat → List (List Word) → Packer → JobEnd
  | i, [], p => match p.emitRun e i with
    | .error st => p.stop st
    | .ok p => p.done
  | i, b :: r, p => match p.block e i b with
    | .error d => d
    | .ok p => Packer.go e (i + 1) r p

/-- A COMPRESS job over its input words (R224). -/
def compress (e : JobEnv) (flush : Bool) (xs : List Word) : JobEnd :=
  let n := if flush then xs.length else xs.length / 64 * 64
  Packer.go e 0 (groupsOf 64 n (xs.take n)) {}

/-- A DECOMPRESS job: the coded blocks in order, the previous 64 words where a run may repeat them, and the prior
words of PRIOR with whether they are readable (R215, R221).
[DEDUCED, log entry 122: unsafe] -/
def unpack (e : JobEnv) (prior : Option (List Word)) (priorBad : Bool) :
    Nat → List (List Word) → Option (List Word) → JobEnd → JobEnd
  | _, [], _, d => d
  | i, b :: r, prev, d =>
    let s := balerS e.size
    if hits e.badIn (s * i) s then { d with status := St.UNCORR }
    else match decodeBlock e.size b with
      | .format => { d with status := St.FORMAT }
      | .words ws lossy =>
        if e.space < d.out.length + ws.length then { d with status := St.LIMIT }
        else if hits e.badOut d.out.length ws.length then { d with status := St.UNCORR }
        else unpack e prior priorBad (i + 1) r (if ws.length = 64 then some ws else none)
          { d with out := d.out ++ ws, consumed := d.consumed + s, lossy := d.lossy || lossy }
      | .run k =>
        match (if i = 0 then prior else prev) with
        | none => { d with status := St.FORMAT }
        | some ws =>
          if e.space < d.out.length + 64 * k then { d with status := St.LIMIT }
          else if i = 0 ∧ priorBad then { d with status := St.UNCORR }
          else if hits e.badOut d.out.length (64 * k) then { d with status := St.UNCORR }
          else unpack e prior priorBad (i + 1) r (some ws)
            { d with out := d.out ++ (List.replicate k ws).flatten, consumed := d.consumed + s }

/-- Fields of a job descriptor (Table 8.5). -/
def jobOp (ws : List Word) : Nat := wbits (ws.getD 0 0) 35 32
/-- SIZE. -/
def jobSize (ws : List Word) : Nat := wbits (ws.getD 0 0) 31 29
/-- BOUND. -/
def jobBound (ws : List Word) : Nat := wbits (ws.getD 0 0) 28 25
/-- FLUSH. -/
def jobFlush (ws : List Word) : Bool := wbit (ws.getD 0 0) 24
/-- PRIOR, of a DECOMPRESS job. -/
def jobPrior (ws : List Word) : Bool := jobOp ws == 2 && wbit (ws.getD 0 0) 23
/-- SRC and SRCHI. -/
def jobSrc (ws : List Word) : Nat := wbits (ws.getD 3 0) 35 34 * 2 ^ 36 + (ws.getD 1 0).toNat
/-- DST and DSTHI. -/
def jobDst (ws : List Word) : Nat := wbits (ws.getD 3 0) 33 32 * 2 ^ 36 + (ws.getD 2 0).toNat
/-- SRCSP is local memory. -/
def jobSrcLocal (ws : List Word) : Bool := wbits (ws.getD 0 0) 13 12 == 1
/-- DSTSP is local memory. -/
def jobDstLocal (ws : List Word) : Bool := wbits (ws.getD 0 0) 11 10 == 1
/-- SRCLEN. -/
def jobSrcLen (ws : List Word) : Nat := (ws.getD 4 0).toNat
/-- DSTLEN. -/
def jobDstLen (ws : List Word) : Nat := (ws.getD 5 0).toNat

/-- A range of words lies in its space: the fitted DRAM, or local data memory. -/
def Chip.spaceOk (c : Chip) (loc : Bool) (a n : Nat) : Bool :=
  if loc then decide (a < 65536 ∧ a + n ≤ 65536) else decide (a + n ≤ c.dramBursts * 16)

/-- The checks of a job descriptor (R223), for a core's job or another. -/
def Chip.jobStatus (c : Chip) (ws : List Word) (core : Bool) : Nat :=
  let w0 := ws.getD 0 0; let w6 := ws.getD 6 0
  let cpl := wbits w6 33 0
  let cplBad := if core then !c.spaceOk true cpl 4 else decide (c.dramBursts ≤ cpl)
  let opBad := jobOp ws ≠ 1 ∧ jobOp ws ≠ 2
  if jobSrcLen ws = 0 then
    St.pick [St.when (wbits w6 35 34 ≠ 0) St.FORMAT, St.when (opBad ∨ cplBad) St.RANGE]
  else
    let pre := if jobPrior ws then 64 else 0
    let d := jobDst ws
    let spBad (v : Nat) : Bool := decide (2 ≤ v ∨ (v = 1 ∧ ¬ core))
    St.pick [
      St.when (wbits w0 9 0 ≠ 0 ∨ wbits (ws.getD 3 0) 31 0 ≠ 0 ∨ wbits w6 35 34 ≠ 0) St.FORMAT,
      St.when (opBad ∨ cplBad ∨ balerS (jobSize ws) = 0 ∨ spBad (wbits w0 13 12) ∨ spBad (wbits w0 11 10)
        ∨ (jobOp ws = 1 ∧ boundBad (jobSize ws) (jobBound ws))
        ∨ (jobOp ws = 2 ∧ jobSrcLen ws % balerS (jobSize ws) ≠ 0)
        ∨ ¬ c.spaceOk (jobSrcLocal ws) (jobSrc ws) (jobSrcLen ws)
        ∨ (jobDstLocal ws ∧ 65536 ≤ d) ∨ d < pre ∨ ¬ c.spaceOk (jobDstLocal ws) (d - pre) (jobDstLen ws + pre)
        ∨ (jobSrcLocal ws = jobDstLocal ws ∧ windowsMeet (jobSrc ws) (jobSrcLen ws) (d - pre) (jobDstLen ws + pre))) St.RANGE]

/-- A unit's state. -/
def Chip.baler (c : Chip) (u : Nat) : BalerSt := Cells.get {} u c.balers

/-- A unit changed. -/
def Chip.modBaler (u : Nat) (f : BalerSt → BalerSt) (c : Chip) : Chip :=
  { c with balers := Cells.modify {} u f c.balers }

/-- A job of the first class of R210: in-chain or Hedgerow. -/
def JobFrom.first : JobFrom → Bool
  | .core _ => true
  | .hedge _ _ _ _ => true
  | _ => false

/-- A job takes one of the entries reserved for channel cores and segments (R209). A control core's in-chain job has none
of its own and takes a shared entry.
[DEDUCED, log entry 161: unsafe] -/
def JobFrom.reserved : JobFrom → Bool
  | .core k => decide (k < 96)
  | .hedge _ _ _ _ => true
  | _ => false

/-- A job of a core stands in some unit's ring: its one in-chain job (R209). -/
def Chip.coreJob (c : Chip) (k : Nat) : Bool := c.balers.any (fun p => p.2.jobs.any (fun j => j.frm == .core k))

/-- A job placed in a unit's ring (R209): its entry and staging words are counted. -/
def Chip.addJob (u : Nat) (frm : JobFrom) (ws staged : List Word) (c : Chip) : Chip :=
  let j : BalerJob := { serial := c.serial, frm := frm, ws := ws, staged := staged }
  let c := { c with serial := c.serial + 1 }
  let c := c.modBaler u (fun b => { b with jobs := b.jobs ++ [j] })
  let stage := match frm with | .capture _ _ _ _ _ => staged.length | _ => 0
  let c := c.addTo F.baler_U_OCC_STAGE stage u
  if frm.reserved then c.addTo F.baler_U_OCC_RSVD 1 u else c.addTo F.baler_U_OCC_SHARED 1 u

/-- A submission by host software or a control core (R227). -/
def Chip.balerSubmit (q : Requester) (u : Nat) (c : Chip) : Chip :=
  let ws := (List.range 8).map (fun i => c.rdq q .baler_SUBW i)
  let st := St.pick [c.jobStatus ws false,
    St.when (¬ c.flag F.baler_U_CTRL_EN u ∨ c.chanRec) St.NOTREADY,
    St.when (880 ≤ c.fld F.baler_U_OCC_SHARED u) St.BUSY]
  if st ≠ St.OK then c.errq q F.baler_SUBSTAT_LASTERR st
  else c.addJob u (.host q) ws []

/-- A capture job submitted by a channel's tap (R229): none where the unit refuses. -/
def Chip.balerCapture (u : Nat) (frm : JobFrom) (ws staged : List Word) (c : Chip) : Option Chip :=
  if c.flag F.baler_U_CTRL_EN u ∧ ¬ c.chanRec ∧ c.fld F.baler_U_OCC_SHARED u < 880 ∧
      c.fld F.baler_U_OCC_STAGE u + staged.length ≤ 65536 then some (c.addJob u frm ws staged)
  else none

/-- A Hedgerow job submitted (R394): none where the unit refuses. -/
def Chip.balerHedge (u : Nat) (frm : JobFrom) (ws staged : List Word) (c : Chip) : Option Chip :=
  if c.flag F.baler_U_CTRL_EN u ∧ ¬ c.chanRec then some (c.addJob u frm ws staged) else none

/-- A unit picks its next job; a job of the first class suspends a running job of the second (R210). -/
def Chip.balerStart (u : Nat) (c : Chip) : Chip :=
  c.modBaler u (fun b =>
    let job (n : Nat) := b.jobs.find? (fun j => j.serial == n)
    let next1 := b.jobs.find? (fun j => j.frm.first && b.running ≠ some j.serial)
    let next2 := match b.suspended with
      | some n => job n
      | none => b.jobs.find? (fun j => !j.frm.first)
    match b.running with
    | none => match next1 with
      | some j => { b with running := some j.serial }
      | none => match next2 with
        | some j => { b with running := some j.serial, suspended := none }
        | none => b
    | some n => match job n, next1 with
      | some r, some j => if r.frm.first then b else { b with running := some j.serial, suspended := some n }
      | _, _ => b)

/-- Offsets of DRAM words of a range whose burst is not readable. -/
def Chip.badWords (c : Chip) (a n : Nat) : List Nat :=
  (List.range n).filter (fun i => !c.burstOk ((a + i) / 16))

/-- Offsets of words of an output range whose write is answered with an error: their burst is outside the fitted
DRAM, or is not wholly inside the range and cannot be read (R414, R420). -/
def Chip.badTargets (c : Chip) (a n : Nat) : List Nat :=
  (List.range n).filter (fun i =>
    let b := (a + i) / 16
    !(decide (b < c.dramBursts) && (c.burstOk b || decide (a ≤ b * 16 ∧ b * 16 + 16 ≤ a + n))))

/-- Offsets of local words of a range that hold an uncorrectable error (R239). -/
def Chip.badLocals (c : Chip) (k a n : Nat) : List Nat :=
  (List.range n).filter (fun i => c.upset (.localWord k ((a + i) % 65536)))

/-- The input words of a job, and the offsets of those whose read is uncorrectable. -/
def Chip.jobInput (c : Chip) (j : BalerJob) : List Word × List Nat :=
  match j.frm with
  | .capture _ _ _ _ _ => (j.staged, [])
  | .hedge _ _ _ _ => (j.staged, [])
  | .core k => if jobSrcLocal j.ws then (c.localWords k (jobSrc j.ws) (jobSrcLen j.ws), c.badLocals k (jobSrc j.ws) (jobSrcLen j.ws))
      else (c.words (jobSrc j.ws) (jobSrcLen j.ws), c.badWords (jobSrc j.ws) (jobSrcLen j.ws))
  | .host _ => (c.words (jobSrc j.ws) (jobSrcLen j.ws), c.badWords (jobSrc j.ws) (jobSrcLen j.ws))

/-- A job's output goes to DRAM. -/
def BalerJob.toDram (j : BalerJob) : Bool := match j.frm with
  | .host _ => true
  | .core _ => !jobDstLocal j.ws
  | _ => false

/-- A job's input comes from DRAM. -/
def BalerJob.fromDram (j : BalerJob) : Bool := match j.frm with
  | .host _ => true
  | .core _ => !jobSrcLocal j.ws
  | _ => false

/-- A job run to its end over output words of which some cannot be written (R216 to R226). -/
def Chip.jobOver (c : Chip) (j : BalerJob) (mismatch : Option Nat) (badOut : List Nat) : JobEnd :=
  let ws := j.ws
  let (xs, bad) := c.jobInput j
  let e : JobEnv := { size := jobSize ws, bound := jobBound ws, space := jobDstLen ws, badIn := bad, badOut := badOut, mismatch := mismatch }
  if jobSrcLen ws = 0 then {}
  else if jobDstLen ws = 0 then { status := if jobOp ws = 1 then St.SPACE else St.LIMIT }
  else if jobOp ws = 1 then compress e (jobFlush ws) xs
  else
    let s := balerS (jobSize ws)
    let before := jobDst ws - 64
    let prior := if jobPrior ws then some (match j.frm, jobDstLocal ws with
        | .core k, true => c.localWords k before 64
        | _, _ => c.words before 64) else none
    let priorBad := jobPrior ws && !(match j.frm, jobDstLocal ws with
        | .core k, true => c.badLocals k before 64
        | _, _ => c.badWords before 64).isEmpty
    unpack e prior priorBad 0 (groupsOf s xs.length xs) none {}

/-- A job run to its end (R216 to R226): the words that its output takes decide which of its writes fail. -/
def Chip.jobRun (c : Chip) (j : BalerJob) (mismatch : Option Nat) : JobEnd :=
  if j.toDram then
    c.jobOver j mismatch (c.badTargets (jobDst j.ws) (c.jobOver j mismatch []).out.length)
  else c.jobOver j mismatch []

/-- Word 0 of a completion record (R225), or of a capture record (R231), whose field of three bits holds the low bits of a
larger count of blocks.
[DEDUCED, log entry 162: unsafe] -/
def recordWord (st : Nat) (lossy : Bool) (low : Nat) : Word := wofNat (st * 2 ^ 30 + b2n lossy * 2 ^ 29 + low % 8 * 2 ^ 26)

/-- The completion record of a job (R225). -/
def JobEnd.record (d : JobEnd) (u : Nat) (tag : Word) : List Word :=
  [recordWord d.status d.lossy u, wofNat d.consumed, wofNat d.out.length, tag]

/-- A job's counters (Tables 8.7, 8.13 to 8.16). -/
def Chip.countJob (u : Nat) (d : JobEnd) (c : Chip) : Chip :=
  let c := (c.bump F.baler_U_JOBS_COUNT 1 u).bump F.baler_U_QUANT_BLOCKS d.quant u
  let c := c.iff (d.status == St.VERIFY) (Chip.bump F.baler_U_VERIFY_JOBS 1 u)
  let c := c.iff (d.status == St.NOFIT) (Chip.bump F.baler_U_NOFIT_JOBS 1 u)
  c.iff (d.status == St.UNCORR) (Chip.bump F.baler_UNCORR_JOBS)

/-- RECBURSTS of a capture ring (R230). -/
def recBursts (nblk size : Nat) : Nat := ceilDiv (4 + nblk * balerS size) 16

/-- NREC of a capture ring (R230). -/
def nRec (ringSize nblk size : Nat) : Nat := if ringSize = 0 then 0 else (ringSize - 1) / recBursts nblk size

/-- A capture record written and WRPOS advanced (R230, R231).
[DEDUCED, log entry 122: unsafe] [DEDUCED, log entry 162: unsafe] -/
def Chip.writeCapture (mt frames ring size : Nat) (j : BalerJob) (d : JobEnd) (c : Chip) : Chip :=
  let sz := jobSize j.ws
  let nblk := jobDstLen j.ws / balerS sz
  let pos := (c.word (ring * 16)).toNat
  let n := nRec size nblk sz
  if n = 0 then c
  else
    let a := (ring + 1 + pos % n * recBursts nblk sz) * 16
    let body := d.out ++ List.replicate (nblk * balerS sz - d.out.length) 0
    let c := c.putWords a ([wofNat mt, recordWord d.status d.lossy (d.out.length / balerS sz), wofNat frames, 0] ++ body) Src.BALER
    let c := c.iff (d.status == St.NOFIT) (fun c => c.putWord (ring * 16 + 3) (c.word (ring * 16 + 3) + 1) Src.BALER)
    c.putWord (ring * 16) (wofNat (pos + 1)) Src.BALER

/-- A frame that the tap does not capture (R231). -/
def Chip.dropCapture (ring size : Nat) (c : Chip) : Chip :=
  let c := c.bump F.baler_CAPDROPS_FRAMES
  c.iff (decide (1 ≤ size)) (fun c => c.putWord (ring * 16 + 2) (c.word (ring * 16 + 2) + 1) Src.BALER)

/-- The completion record written to DRAM for a host job, with its message (R225, Table 8.5). -/
def Chip.hostRecord (u : Nat) (j : BalerJob) (d : JobEnd) (c : Chip) : Chip :=
  let c := c.putWords (wbits (j.ws.getD 6 0) 33 0 * 16) (d.record u (j.ws.getD 7 0)) Src.BALER
  c.iff (wbit (j.ws.getD 0 0) 22) (Chip.sendMsix (wbits (j.ws.getD 0 0) 21 14))

/-- The transfer of a core that a Baler job stands for has completed (R258). -/
def CoreSt.endJob (s : CoreSt) (n : Nat) : CoreSt :=
  { s with xfers := s.xfers.filter (fun t => match t with | .bsub _ m => m ≠ n | _ => true) }

/-- A waiting core goes on when its transfers have completed (R255, R259). -/
def Chip.wakeCore (k : Nat) (c : Chip) : Chip :=
  c.modCore k (fun s => if s.xfers.isEmpty ∧ s.wait = .waite then { s with wait := .run } else s)

/-- The running job of a unit ends (R225): its output, its record and its counters; a Hedgerow job's result goes
to the function given. -/
def Chip.balerComplete (hedge : BalerJob → JobEnd → Chip → Chip) (u : Nat) (mismatch : Option Nat) (c : Chip) : Chip :=
  match (c.baler u).running with
  | none => c
  | some n => match (c.baler u).jobs.find? (fun j => j.serial == n) with
    | none => c
    | some j =>
      let d := c.jobRun j mismatch
      let c := c.iff j.fromDram (Chip.readLog Src.BALER (jobSrc j.ws) (jobSrcLen j.ws))
      let c := c.modBaler u (fun b => { b with jobs := b.jobs.filter (fun x => x.serial != n), running := none })
      let c := if j.frm.reserved then c.subFrom F.baler_U_OCC_RSVD 1 u else c.subFrom F.baler_U_OCC_SHARED 1 u
      let c := c.countJob u d
      match j.frm with
      | .host _ => (c.putWords (jobDst j.ws) d.out Src.BALER).hostRecord u j d
      | .core k =>
        -- the result of a job that its core has abandoned is discarded with its item (R232, R261)
        let live := (c.core k).xfers.contains (.bsub u n)
        let c := if !jobDstLocal j.ws then c.putWords (jobDst j.ws) d.out Src.BALER
          else if live then c.putLocal k (jobDst j.ws) d.out else c
        if !live then c else
        let c := c.putLocal k (wbits (j.ws.getD 6 0) 15 0) (d.record u (j.ws.getD 7 0))
        (c.modCore k (fun s => s.endJob n)).wakeCore k
      | .capture _ mt frames ring size =>
        (c.subFrom F.baler_U_OCC_STAGE j.staged.length u).writeCapture mt frames ring size j d
      | .hedge _ _ _ _ => hedge j d c

/-- RECOVERY of the channel domain discards every job and empties the staging memory (R232). -/
def Chip.recoverBaler (c : Chip) : Chip :=
  forRange 4 (fun u c =>
    let c := c.modBaler u (fun b => { discarded := b.discarded ++ b.jobs.filter (fun j => match j.frm with
      | .host _ => true | _ => false) })
    ((c.put F.baler_U_OCC_STAGE 0 u).put F.baler_U_OCC_SHARED 0 u).put F.baler_U_OCC_RSVD 0 u) c

/-- When RECOVERY completes, each discarded host job has its record written, in ring order (R232), and counts as completed
(Table 8.13). -/
def Chip.resumeBaler (c : Chip) : Chip :=
  forRange 4 (fun u c =>
    let l := (c.baler u).discarded
    let c := c.modBaler u (fun b => { b with discarded := [] })
    l.foldl (fun c j => (c.hostRecord u j { status := St.DISCARDED }).countJob u { status := St.DISCARDED }) c) c

end Sys2Proof.Machine
end

