-- ==== Sys2Proof/Machine/Mac.lean ====
section
/-! DEFINITION. The MACs: port modes, lanes, counters, the receive filter, underrun adaptation and the link and
verification state machines as far as they concern no frame in transmission (R359 to R381). -/
namespace Sys2Proof.Machine

open Sys2Proof

/-- The Flume, the Boom and the MACs changed. -/
def Chip.modFlume (f : FlumeSt → FlumeSt) (c : Chip) : Chip := { c with flume := f c.flume }

/-- A port mode of Table 14.1: lanes, line rate in Gbit/s, RXLAT and TXLAT in ns; no lanes for a value that is
RANGE, and for disabled. -/
def portMode (m : Nat) : Nat × Nat × Nat × Nat :=
  if m = 1 then (1, 10, 62, 48) else if m = 2 then (1, 10, 270, 60)
  else if m = 3 then (1, 25, 40, 30) else if m = 4 then (1, 25, 260, 40)
  else if m = 5 then (1, 50, 230, 60) else if m = 6 then (2, 50, 240, 55)
  else if m = 7 then (4, 100, 150, 80) else if m = 8 then (2, 100, 180, 90)
  else if m = 9 then (1, 100, 210, 100) else if m = 10 then (4, 200, 190, 110)
  else if m = 11 then (2, 200, 200, 120) else if m = 12 then (8, 400, 195, 185)
  else if m = 13 then (4, 400, 200, 190) else (0, 0, 0, 0)

/-- Port p is enabled. -/
def Chip.portOn (c : Chip) (p : Nat) : Bool := c.flag F.mac_CFG_EN p

/-- The lanes of port p's mode. -/
def Chip.portLanes (c : Chip) (p : Nat) : Nat := (portMode (c.fld F.mac_CFG_MODE p)).1

/-- The line rate of port p in Gbit/s (R362). -/
def Chip.portRate (c : Chip) (p : Nat) : Nat := (portMode (c.fld F.mac_CFG_MODE p)).2.1

/-- Largest frame of port p in octets. -/
def Chip.maxLen (c : Chip) (p : Nat) : Nat := c.fld F.mac_CFG_MAXLEN p

/-- The link of port p is UP (Table 14.2). -/
def Chip.linkUp (c : Chip) (p : Nat) : Bool := c.fld F.mac_LINK_STATE p == 3

/-- Preemption is verified on port p (R374). -/
def Chip.preVerified (c : Chip) (p : Nat) : Bool := c.fld F.mac_PREEMPT_VSTATE p == 2

/-- The enabled port other than `p` that lane `l` belongs to, if any. -/
def Chip.laneUsed (c : Chip) (p l : Nat) : Bool :=
  (List.range 64).any (fun q => decide (q ≠ p) && c.portOn q && decide (q ≤ l ∧ l < q + c.portLanes q))

/-- Lane `l` belongs to an enabled port. -/
def Chip.laneOn (c : Chip) (l : Nat) : Bool :=
  (List.range 64).any (fun q => c.portOn q && decide (q ≤ l ∧ l < q + c.portLanes q))

/-- The transmitter of a lane is on: it belongs to an enabled port of a released device (R363, R381). -/
def Chip.laneSends (c : Chip) (l : Nat) : Bool := c.live && c.laneOn l

/-- What the RS of a port sends beside frames (R364). -/
inductive RsSignal where
  | off | idle | remoteFault
  deriving DecidableEq, Repr

/-- The signal of a port's RS: Remote Fault while it is ACQUIRING or has a local fault, else Idle (R364). -/
def Chip.rsSignal (c : Chip) (p : Nat) : RsSignal :=
  if !c.laneSends p then .off
  else if c.fld F.mac_LINK_STATE p = 1 ∨ c.flag F.mac_LINK_LFAULT p then .remoteFault else .idle

/-- PWR of every lane: receivers of lanes of no enabled port are powered down in ECO (R363, R480). -/
def Chip.powerLanes (eco : Bool) (c : Chip) : Chip :=
  forRange 64 (fun l c => c.put F.mac_LANECFG_PWR (b2n (!eco || c.laneOn l)) l) c

/-- One step of the CRC-32 register, most significant bit first. -/
def crc32Bit (r : Nat) (b : Bool) : Nat :=
  let s := (r * 2) % 2 ^ 32
  if (r.testBit 31) != b then Nat.xor s 0x04C11DB7 else s

/-- The IEEE 802.3 CRC-32 of octets in order of transmission, complemented, with bit 31 the coefficient of x^31
(R370). -/
def crc32 (l : List Octet) : Nat :=
  let r := l.foldl (fun r o => (List.range 8).foldl (fun r i => crc32Bit r (o.toNat.testBit i)) r) 0xFFFFFFFF
  0xFFFFFFFF - r

/-- The FCS octets of a CRC-32 in order of transmission. -/
def fcsOctets (r : Nat) : List Octet :=
  (List.range 4).map (fun i => BitVec.ofNat 8
    ((List.range 8).foldl (fun a j => a + b2n (r.testBit (31 - 8 * i - j)) * 2 ^ j) 0))

/-- The frame's last four octets are its FCS. -/
def fcsGood (l : List Octet) : Bool :=
  let n := l.length - 4
  decide (4 ≤ l.length) && decide (l.drop n = fcsOctets (crc32 (l.take n)))

/-- A MAC event bit sets: line 4 and source 0 where enabled (Table 14.11, Table 17.5). -/
def Chip.macEvent (p bit : Nat) (c : Chip) : Chip :=
  let w := c.rd .mac_EVENT p
  let c := c.wr .mac_EVENT (wofNat (w.toNat ||| 2 ^ bit)) p
  if (c.fld F.mac_EVENTEN_EN p).testBit bit then
    let c := c.line 4
    if wbit w bit then c else c.irq 0
  else c

/-- A HALF event of counter k (R379). -/
def Chip.macHalf (p k : Nat) (c : Chip) : Chip :=
  let f := if k < 36 then F.mac_HALF0_K else F.mac_HALF1_K
  let bit := if k < 36 then k else k - 36
  let v := c.fld f p
  let c := (c.put f (v ||| 2 ^ bit) p).line 5
  if v.testBit bit then c else c.irq 1

/-- A packet counter raised, rolling over (R378, R379). Nothing raises those of codewords and blocks of the link.
[DESIGN CHOICE, log entry 163: unsafe] -/
def Chip.stat (p k : Nat) (n : Nat := 1) (c : Chip) : Chip :=
  let v := (c.rd .mac_STAT p k).toNat
  let w := (v + n) % 2 ^ 36
  let c := c.wr .mac_STAT (wofNat w) p k
  if v / 2 ^ 35 = w / 2 ^ 35 then c else c.macHalf p k

/-- A 72-bit octet counter raised, rolling over (R378, R379): low half k, high half k + 1. -/
def Chip.stat72 (p k n : Nat) (c : Chip) : Chip :=
  let v := (c.rd .mac_STAT p k).toNat + (c.rd .mac_STAT p (k + 1)).toNat * 2 ^ 36
  let w := (v + n) % 2 ^ 72
  let c := (c.wr .mac_STAT (wofNat w) p k).wr .mac_STAT (wofNat (w / 2 ^ 36)) p (k + 1)
  if v / 2 ^ 71 = w / 2 ^ 71 then c else c.macHalf p k

/-- The place of a length among the seven size counters (Table 14.5). -/
def sizeBand (n : Nat) : Nat :=
  if n ≤ 64 then 0 else if n ≤ 127 then 1 else if n ≤ 255 then 2 else if n ≤ 511 then 3
  else if n ≤ 1023 then 4 else if n ≤ 1518 then 5 else 6

/-- The destination address of a frame. -/
def destOf (l : List Octet) : Nat := ofBeOctets (l.take 6)

/-- Group address: bit 0 of the first octet (R370). -/
def isGroup (l : List Octet) : Bool := (l.getD 0 0).toNat % 2 == 1

/-- The place of a destination among UCAST, MCAST and BCAST (Table 14.5). -/
def destBand (l : List Octet) : Nat :=
  if destOf l = 0xFFFFFFFFFFFF then 2 else if isGroup l then 1 else 0

/-- A big-endian 16-bit field of a frame. -/
def be16 (l : List Octet) (i : Nat) : Nat := ofBeOctets ((l.drop i).take 2)

/-- A big-endian 32-bit field of a frame. -/
def be32 (l : List Octet) (i : Nat) : Nat := ofBeOctets ((l.drop i).take 4)

/-- The frame has an outer tag (R314). -/
def hasTag (l : List Octet) : Bool := decide (18 ≤ l.length) && (be16 l 12 == 0x8100 || be16 l 12 == 0x88A8)

/-- The hash index of a group address (R370). -/
def hashIndex (dest : List Octet) : Nat := crc32 dest / 2 ^ 20

/-- A group address passes the MAC's filter (R370). -/
def Chip.groupPasses (c : Chip) (p : Nat) (dest : List Octet) : Bool :=
  let a := ofBeOctets dest
  (decide (a = 0xFFFFFFFFFFFF) && c.flag F.mac_FILT_BCAST p) ||
  (decide (a / 16 = 0x0180C200000) && c.flag F.mac_FILT_LINKLOCAL p) ||
  c.flag F.mac_FILT_ALLGROUP p ||
  (c.fld F.mac_GHASH_BITS p (hashIndex dest / 32)).testBit (hashIndex dest % 32)

/-- Rows 5 and 6 of Table 14.3, decided on the first 14 octets (R368).
[DEDUCED, log entry 125: unsafe] -/
def Chip.macRefuses (c : Chip) (p : Nat) (l : List Octet) : Bool :=
  be16 l 12 == 0x8808 || (isGroup l && !c.groupPasses p (l.take 6))

/-- The row of Table 14.3 in which an ended frame counts: its octets with the FCS (R367).
[DEDUCED, log entry 125: unsafe] -/
def Chip.rxRow (c : Chip) (p : Nat) (l : List Octet) (phyErr : Bool) : Nat :=
  if phyErr then 1 else if l.length < 64 then 2 else if c.maxLen p < l.length then 3
  else if !fcsGood l then 4 else if be16 l 12 == 0x8808 then 5
  else if isGroup l && !c.groupPasses p (l.take 6) then 6 else 7

/-- The receive counters of an ended frame (R367, R378). -/
def Chip.countRx (p : Nat) (l : List Octet) (phyErr : Bool) (c : Chip) : Chip :=
  let row := c.rxRow p l phyErr
  let c := c.stat72 p 23 l.length
  if row < 7 then c.stat p (11 + row)
  else
    let c := ((c.stat p 0).stat p (1 + destBand l)).iff (hasTag l) (Chip.stat p 4)
    (c.stat p (5 + sizeBand l.length)).stat72 p 21 l.length

/-- The transmit counters of a frame sent whole with a correct FCS (R378). -/
def Chip.countTxOk (p : Nat) (l : List Octet) (len : Nat) (c : Chip) : Chip :=
  (((c.stat p 25).stat p (26 + destBand l)).stat p (29 + sizeBand len)).stat72 p 41 len

/-- A frame ended with an inverted FCS, `n` octets long with it (R371, R378). -/
def Chip.countTxBad (p n : Nat) (c : Chip) : Chip := (c.stat p 36).stat72 p 41 n

/-- UINC at which the port is in store-and-forward: CTSTART + UINC = ceil(MAXLEN / 64) (R372). -/
def Chip.adaptFull (c : Chip) (p : Nat) : Bool :=
  decide (ceilDiv (c.maxLen p) 64 ≤ c.fld F.flume_PORT_CUT_CTSTART p + c.fld F.mac_CTADAPT_UINC p) &&
  decide (0 < c.fld F.mac_CTADAPT_UINC p)

/-- CTEFF and SFEFF follow CTSTART, UINC and STORE (R327, R372). -/
def Chip.refreshCut (p : Nat) (c : Chip) : Chip :=
  let eff := c.fld F.flume_PORT_CUT_CTSTART p + c.fld F.mac_CTADAPT_UINC p
  (c.put F.flume_PORT_CUT_CTEFF eff p).put F.flume_PORT_CUT_SFEFF
    (b2n (c.flag F.flume_PORT_CUT_STORE p || c.adaptFull p)) p

/-- An underrun raises UINC until the port is in store-and-forward, and sets CLEAN to 0 (R372). -/
def Chip.raiseUinc (p : Nat) (c : Chip) : Chip :=
  let full := decide (ceilDiv (c.maxLen p) 64 ≤ c.fld F.flume_PORT_CUT_CTSTART p + c.fld F.mac_CTADAPT_UINC p)
  let c := if full then c else c.bump F.mac_CTADAPT_UINC 1 p
  (c.put F.mac_CTADAPT_CLEAN 0 p).refreshCut p

/-- A frame sent whole without an underrun: CLEAN counts it, and UINC falls at 2^20 (R373).
[DEDUCED, log entry 159: unsafe] -/
def Chip.countClean (p : Nat) (c : Chip) : Chip :=
  let c := c.bump F.mac_CTADAPT_CLEAN 1 p
  if 2 ^ 20 ≤ c.fld F.mac_CTADAPT_CLEAN p ∧ 0 < c.fld F.mac_CTADAPT_UINC p then
    ((c.subFrom F.mac_CTADAPT_UINC 1 p).put F.mac_CTADAPT_CLEAN 0 p).refreshCut p
  else c

/-- MAC.CTADAPT.CLR = 1 (R373). -/
def Chip.clearAdapt (p : Nat) (c : Chip) : Chip :=
  ((c.put F.mac_CTADAPT_UINC 0 p).put F.mac_CTADAPT_CLEAN 0 p).refreshCut p

/-- Counts of COUNT in a millisecond. -/
def countsPerMs : Nat := 1250000

/-- A verify mPacket is sent, and the timer of VERIFYMS is started (Table 14.4). -/
def Chip.sendVerify (p : Nat) (c : Chip) : Chip :=
  ((c.emit (.mPacket p false)).stat p 39).modFlume (fun f => { f with
    verified := Cells.modify 0 p (· + 1) f.verified
    verifyBy := Cells.set 0 p (c.count + c.fld F.mac_PREEMPT_VERIFYMS p * countsPerMs) f.verifyBy })

/-- INIT to VERIFYING (Table 14.4): with EN = 1 and the link UP. -/
def Chip.startVerify (p : Nat) (c : Chip) : Chip :=
  if c.flag F.mac_PREEMPT_EN p ∧ c.linkUp p ∧ c.fld F.mac_PREEMPT_VSTATE p = 0 then
    ((c.modFlume (fun f => { f with verified := Cells.set 0 p 0 f.verified })).put F.mac_PREEMPT_VSTATE 1 p).sendVerify p
  else c

/-- To INIT (Table 14.4). -/
def Chip.stopVerify (p : Nat) (c : Chip) : Chip := c.put F.mac_PREEMPT_VSTATE 0 p

/-- VERIFY_TIMER_EXPIRY: VERIFYMS have passed in VERIFYING (Table 14.4). -/
def Chip.verifyTimer (p : Nat) (c : Chip) : Chip :=
  if c.fld F.mac_PREEMPT_VSTATE p = 1 ∧ Cells.get 0 p c.flume.verifyBy ≤ c.count then
    if Cells.get 0 p c.flume.verified < 3 then c.sendVerify p
    else (c.put F.mac_PREEMPT_VSTATE 3 p).macEvent p 4
  else c

/-- Port p receives frames: the device is released and the link is UP (R364, R381). -/
def Chip.receives (c : Chip) (p : Nat) : Bool := c.live && c.linkUp p

/-- VERIFY_MPACKET_RECEIVED: answered in every state with EN = 1 (R375); with EN = 0 a discard (R377). -/
def Chip.verifyReceived (p : Nat) (c : Chip) : Chip :=
  if !c.receives p then c
  else if c.flag F.mac_PREEMPT_EN p then ((c.stat p 20).emit (.mPacket p true)).stat p 39 else c.stat p 19

/-- RESPOND_MPACKET_RECEIVED (Table 14.4); with EN = 0 a discard (R377). -/
def Chip.respondReceived (p : Nat) (c : Chip) : Chip :=
  if !c.receives p then c
  else if c.flag F.mac_PREEMPT_EN p then
    let c := c.stat p 20
    if c.fld F.mac_PREEMPT_VSTATE p = 1 then (c.put F.mac_PREEMPT_VSTATE 2 p).macEvent p 3 else c
  else c.stat p 19

/-- The link enters UP: the skew of the latest lane is added to RXLAT (R361), LINKUP is raised and verification
begins (Table 14.2, Table 14.4). `skew` is in 2^-4 ns; a port of one lane measures none. -/
def Chip.linkUpNow (p skew : Nat) (c : Chip) : Chip :=
  let m := portMode (c.fld F.mac_CFG_MODE p)
  let sk := if m.1 ≤ 1 then 0 else skew
  let c := (c.put F.mac_TSLAT_RXLAT (16 * m.2.2.1 + sk) p).put F.mac_TSLAT_TXLAT (16 * m.2.2.2) p
  ((c.put F.mac_LINK_STATE 3 p).macEvent p 0).startVerify p

/-- The lanes of port p have block lock, or not (MAC.LINK.LOCK, MAC.LANECFG.CDR). -/
def Chip.setLocks (p locks : Nat) (c : Chip) : Chip :=
  let n := c.portLanes p
  let c := c.put F.mac_LINK_LOCK (locks % 2 ^ n) p
  forRange n (fun i c => c.put F.mac_LANECFG_CDR (b2n (locks.testBit i)) (p + i)) c

/-- The fault bits of MAC.LINK. -/
def Chip.setFaults (p : Nat) (hiber localSets remoteSets : Bool) (c : Chip) : Chip :=
  ((c.put F.mac_LINK_HIBER (b2n hiber) p).put F.mac_LINK_LFAULT (b2n (hiber || localSets)) p).put
    F.mac_LINK_RFAULT (b2n remoteSets) p

/-- LINK_ALIGNED: every lane of an ACQUIRING port aligns (Table 14.2).
[DESIGN CHOICE, log entry 118: safe] -/
def Chip.linkAligned (p skew : Nat) (hiber localSets remoteSets : Bool) (c : Chip) : Chip :=
  if c.fld F.mac_LINK_STATE p = 1 then
    let c := (c.setLocks p 255).setFaults p hiber localSets remoteSets
    if hiber || localSets || remoteSets then c.put F.mac_LINK_STATE 2 p else c.linkUpNow p skew
  else c

/-- LINK_FAULT_CLEAR: 128 columns without a fault ordered set and high BER clear (Table 14.2). -/
def Chip.linkFaultClear (p skew : Nat) (c : Chip) : Chip :=
  if c.fld F.mac_LINK_STATE p = 2 then (c.setFaults p false false false).linkUpNow p skew else c

/-- A port goes to ACQUIRING: lanes powered (Table 14.2). -/
def Chip.acquire (p : Nat) (c : Chip) : Chip :=
  let c := forRange (c.portLanes p) (fun i c => c.put F.mac_LANECFG_PWR 1 (p + i)) c
  ((c.setLocks p 0).setFaults p false false false).put F.mac_LINK_STATE 1 p

/-- The checks of R360 on MAC.CFG with EN = 1, and of Table 14.6 on MODE and MAXLEN. -/
def Chip.checkMacCfg (c : Chip) (p : Nat) (w : Word) : Nat :=
  let mode := wbits w 34 31
  let len := wbits w 30 16
  let n := (portMode mode).1
  let en := wbit w 35
  let was := c.portOn p
  St.pick [
    St.when (en && (n == 0 || decide (len < 64 ∨ 16384 < len))) St.RANGE,
    St.when (en && n != 0 && p % n != 0) St.RANGE,
    St.when (en && !was && (List.range n).any (fun i => c.laneUsed p (p + i))) St.BUSY,
    St.when (was && (mode != c.fld F.mac_CFG_MODE p || len != c.fld F.mac_CFG_MAXLEN p)) St.BUSY]

/-- PREEMPT_ENABLE and every other write of MAC.PREEMPT (Table 14.12, Table 14.4). -/
def Chip.writePreempt (q : Requester) (p : Nat) (w : Word) (c : Chip) : Chip :=
  if wbits w 29 23 = 0 then c.errq q F.mac_REQSTAT_LASTERR St.RANGE p
  else
    let was := c.flag F.mac_PREEMPT_EN p
    let c := (((c.put F.mac_PREEMPT_EN (wbits w 35 35) p).put F.mac_PREEMPT_ADDFRAG (wbits w 31 30) p).put
      F.mac_PREEMPT_VERIFYMS (wbits w 29 23) p).put F.mac_PREEMPT_PMASK (wbits w 22 15) p
    if wbit w 35 then (if was then c else c.startVerify p) else c.stopVerify p

/-- A write of MAC.LANECFG (Table 14.17). -/
def Chip.writeLanecfg (q : Requester) (p : Nat) (w : Word) (c : Chip) : Chip :=
  if 64 < wbits w 33 28 + wbits w 27 21 + wbits w 20 15 then c.errq q F.mac_REQSTAT_LASTERR St.RANGE p
  else c.wr .mac_LANECFG (wput (c.rd .mac_LANECFG p) 35 15 (wbits w 35 15)) p

end Sys2Proof.Machine
end

