-- ==== Sys2Proof/Machine/Gates.lean ====
section
/-! DEFINITION. Gate lists of the physical ports (R329, R330, R333 to R337). Instants are device times in 2^-16 ns
unless a name says ns. -/
namespace Sys2Proof.Machine

open Sys2Proof

/-- A gate list that runs: start instant S and cycle in ns, and its entries: gate states and ns each. -/
structure Sched where
  start : Nat
  cycle : Nat
  ents : List (Nat × Nat)
  deriving DecidableEq, Repr

/-- A port's gates beyond its registers. -/
def Chip.gate (c : Chip) (p : Nat) : GateSt := Cells.get {} p c.flume.gates

/-- A port's gates changed. -/
def Chip.modGate (p : Nat) (f : GateSt → GateSt) (c : Chip) : Chip :=
  c.modFlume (fun x => { x with gates := Cells.modify {} p f x.gates })

/-- An entry of a list as gate states and ns (R333). -/
def gateEntry (w : Word) : Nat × Nat := (wbits w 35 28, 4 * wbits w 27 0)

/-- The operational list of port p.
[DEDUCED, log entry 94: unsafe] -/
def Chip.operSched (c : Chip) (p : Nat) : Sched :=
  { start := (c.gate p).start, cycle := c.fld F.flume_PORT_GT7_OPERCYCLE p,
    ents := (List.range (c.fld F.flume_PORT_GCTRL_OPERLEN p)).map (fun e => gateEntry (c.rd .flume_GCL_OPER p e)) }

/-- The list that a pending change will make operational. -/
def Chip.pendSched (c : Chip) (p : Nat) : Option Sched :=
  (c.gate p).pend.map (fun x =>
    { start := x.1, cycle := c.fld F.flume_PORT_GT3_CYCLE p,
      ents := (List.range (c.fld F.flume_PORT_GCTRL_ADMINLEN p)).map (fun e => gateEntry (c.rd .flume_GCL_ADMIN p e)) })

/-- Gate states at an offset in 2^-16 ns into a cycle (R334): the last entry applied holds to the cycle's end.
[DEDUCED, log entry 124: unsafe] -/
def entryAt : List (Nat × Nat) → Nat → Nat → Nat
  | [], held, _ => held
  | (g, d) :: r, held, pos =>
    if d = 0 then entryAt r held pos else if pos < d * 65536 then g else entryAt r g (pos - d * 65536)

/-- Gate states of a list at an instant; DEFGATES for a list of no entries and before its start (R333, R337).
[DEDUCED, log entry 124: unsafe] -/
def Sched.states (s : Sched) (defg t : Nat) : Nat :=
  match s.ents.getLast? with
  | none => defg
  | some e => if t < s.start * 65536 then defg
    else entryAt s.ents e.1 ((t - s.start * 65536) % (s.cycle * 65536))

/-- Gate states of port p at an instant, as the operational list and any pending list give them (R329). -/
def Chip.gatesAt (c : Chip) (p t : Nat) : Nat :=
  let defg := c.fld F.flume_PORT_GCTRL_DEFGATES p
  match c.pendSched p with
  | some s => if s.start * 65536 ≤ t then s.states defg t else (c.operSched p).states defg t
  | none => (c.operSched p).states defg t

/-- The gate of a class is open on port p at an instant. -/
def Chip.gateOpen (c : Chip) (p cls t : Nat) : Bool := (c.gatesAt p t).testBit cls

/-- Offsets in ns at which the entries of a cycle end, within the cycle. -/
def entryEnds (cycle : Nat) : List (Nat × Nat) → Nat → List Nat
  | [], _ => []
  | (_, d) :: r, at_ => if at_ + d < cycle then (at_ + d) :: entryEnds cycle r (at_ + d) else []

/-- The instants in ns at which a list may change its gates, in a span of instants. -/
def Sched.marks (s : Sched) (t0 t1 : Nat) : List Nat :=
  if s.ents.isEmpty ∨ s.cycle = 0 then [s.start]
  else
    let k0 := (t0 / 65536 - s.start) / s.cycle
    let k1 := (t1 / 65536 + 1 - s.start) / s.cycle
    (List.range (k1 + 1 - k0)).flatMap (fun i =>
      let b := s.start + (k0 + i) * s.cycle
      b :: (entryEnds s.cycle s.ents 0).map (b + ·))

/-- A transmission of `d` (2^-16 ns) from an instant ends at or before the gate of its class next closes
(R329 condition 3). -/
def Chip.fitsGate (c : Chip) (p cls t d : Nat) : Bool :=
  let marks := (c.operSched p).marks t (t + d) ++
    (match c.pendSched p with | some s => s.start :: s.marks t (t + d) | none => [])
  c.gateOpen p cls t && marks.all (fun m =>
    !decide (t < m * 65536 ∧ m * 65536 < t + d) || c.gateOpen p cls (m * 65536))

/-- The entries of one cycle cut or filled to the cycle's length: gate states and ns (R334).
[DEDUCED, log entry 94: unsafe] -/
def cutCycle : List (Nat × Nat) → Nat → Nat → List (Nat × Nat)
  | [], held, left => if left = 0 then [] else [(held, left)]
  | (g, d) :: r, held, left =>
    if left = 0 then [] else if d = 0 then cutCycle r held left
    else if left ≤ d then [(g, left)] else (g, d) :: cutCycle r g (left - d)

/-- The longest run of open time of a class over entries in order, from a run in progress. -/
def longestOpen (cls : Nat) : List (Nat × Nat) → Nat → Nat → Nat
  | [], _, best => best
  | (g, d) :: r, run, best =>
    if g.testBit cls then longestOpen cls r (run + d) (max best (run + d)) else longestOpen cls r 0 best

/-- The longest uninterrupted open time of a class in ns; none where it is never interrupted (R330). -/
def Chip.openTime (c : Chip) (p cls : Nat) : Option Nat :=
  let s := c.operSched p
  match s.ents.getLast? with
  | none => if (c.fld F.flume_PORT_GCTRL_DEFGATES p).testBit cls then none else some 0
  | some e =>
    let l := cutCycle s.ents e.1 s.cycle
    if l.all (fun x => x.1.testBit cls) then none else some (longestOpen cls (l ++ l) 0 0)

/-- S of R335 for a BASE and CYCLE in ns and a request instant. -/
def gateStart (base cycle t : Nat) : Nat :=
  let least := ceilDiv t 65536 + 2000
  if least ≤ base then base else base + ceilDiv (least - base) cycle * cycle

/-- GT[4] to GT[6] report an S in ns. -/
def Chip.putStart (p s : Nat) (c : Chip) : Chip :=
  let sec := s / 1000000000
  ((c.put F.flume_PORT_GT4_STARTSEC sec p).put F.flume_PORT_GT5_STARTSECHI (sec / 2 ^ 36) p).put
    F.flume_PORT_GT6_STARTNS (s % 1000000000) p

/-- The admin BASE in ns. -/
def Chip.adminBase (c : Chip) (p : Nat) : Nat :=
  (c.fld F.flume_PORT_GT0_BASESEC p + c.fld F.flume_PORT_GT1_BASESECHI p * 2 ^ 36) * 1000000000 +
    c.fld F.flume_PORT_GT2_BASENS p

/-- A change is pending on port p. -/
def Chip.gatePending (c : Chip) (p : Nat) : Bool := c.flag F.flume_PORT_GCTRL_PENDING p

/-- The request of R335 with an ADMINLEN; RANGE where CYCLE or ADMINLEN is outside its range. -/
def Chip.gateRequest (q : Requester) (p len : Nat) (c : Chip) : Chip :=
  let cycle := c.fld F.flume_PORT_GT3_CYCLE p
  if cycle < 1000 ∨ 1000000000 < cycle ∨ 1024 < len then c.errq q F.flume_FCMDSTAT_LASTERR St.RANGE
  else
    let base := c.adminBase p
    let s := gateStart base cycle c.now
    ((c.modGate p (fun g => { g with pend := some (s, base) })).put F.flume_PORT_GCTRL_PENDING 1 p).putStart p s

/-- ABORT: the pending request is cancelled and the old list keeps running (R336). -/
def Chip.gateAbort (p : Nat) (c : Chip) : Chip :=
  if c.gatePending p then
    ((c.modGate p (fun g => { g with pend := none })).put F.flume_PORT_GCTRL_PENDING 0 p).putStart p (c.gate p).start
  else c

/-- A write of GCTRL (Table 12.22, R335, R336): while a change is pending, CHANGE and a new ADMINLEN are ignored with
BUSY; ABORT and DEFGATES are not. -/
def Chip.writeGctrl (q : Requester) (p : Nat) (w : Word) (c : Chip) : Chip :=
  let len := wbits w 10 0
  let change := wbit w 35
  let cycle := c.fld F.flume_PORT_GT3_CYCLE p
  if change && (decide (cycle < 1000 ∨ 1000000000 < cycle ∨ 1024 < len)) then
    c.errq q F.flume_FCMDSTAT_LASTERR St.RANGE
  else if c.gatePending p then
    let busy := change || len != c.fld F.flume_PORT_GCTRL_ADMINLEN p
    let c := c.put F.flume_PORT_GCTRL_DEFGATES (wbits w 32 25) p
    let c := c.iff (wbit w 34) (Chip.gateAbort p)
    if busy then c.errq q F.flume_FCMDSTAT_LASTERR St.BUSY else c
  else
    let c := (c.put F.flume_PORT_GCTRL_DEFGATES (wbits w 32 25) p).put F.flume_PORT_GCTRL_ADMINLEN len p
    if change then c.gateRequest q p len else c

/-- A write of GT[0] to GT[3] or of an admin entry: ignored with BUSY while a change is pending (R336). -/
def Chip.writeAdmin (q : Requester) (r : RegName) (p e : Nat) (w : Word) (c : Chip) : Chip :=
  if r = .flume_PORT_GT2 ∧ 999999999 < wbits w 29 0 then c.errq q F.flume_FCMDSTAT_LASTERR St.RANGE
  else if c.gatePending p then c.errq q F.flume_FCMDSTAT_LASTERR St.BUSY
  else
    let top := if r = .flume_PORT_GT1 then 11 else if r = .flume_PORT_GT2 ∨ r = .flume_PORT_GT3 then 29 else 35
    c.wr r (wofNat (wbits w top 0)) p e

/-- The exchange of R336: the two lists, with their lengths, change places.
[DEDUCED, log entry 5: safe] [DEDUCED, log entry 94: unsafe] [DEDUCED, log entry 124: unsafe] -/
def Chip.gateExchange (p : Nat) (c : Chip) : Chip :=
  match (c.gate p).pend with
  | none => c
  | some (s, base) =>
    let la := c.fld F.flume_PORT_GCTRL_ADMINLEN p
    let lo := c.fld F.flume_PORT_GCTRL_OPERLEN p
    let c := forRange (max la lo) (fun e c =>
      let a := c.rd .flume_GCL_ADMIN p e
      let o := c.rd .flume_GCL_OPER p e
      (c.wr .flume_GCL_ADMIN o p e).wr .flume_GCL_OPER a p e) c
    let c := (c.put F.flume_PORT_GCTRL_ADMINLEN lo p).put F.flume_PORT_GCTRL_OPERLEN la p
    let c := c.put F.flume_PORT_GT7_OPERCYCLE (c.fld F.flume_PORT_GT3_CYCLE p) p
    (c.put F.flume_PORT_GCTRL_PENDING 0 p).modGate p (fun g => { g with start := s, base := base, pend := none })

/-- The exchange takes place once its instant has come (R336).
[DEDUCED, log entry 94: unsafe] -/
def Chip.settleGates (p : Nat) (c : Chip) : Chip :=
  match (c.gate p).pend with
  | some (s, _) => if s * 65536 ≤ c.now then c.gateExchange p else c
  | none => c

/-- The gate states in force now are noted. -/
def Chip.noteGates (p : Nat) (c : Chip) : Chip := c.modGate p (fun g => { g with states := c.gatesAt p c.now })

/-- Device time has been stepped: every operational list restarts and every pending S is found anew, from a step
instant (R337).
[DEDUCED, log entry 124: unsafe] -/
def Chip.restartGates (t : Nat) (c : Chip) : Chip :=
  forRange 64 (fun p c =>
    let c := if 0 < c.fld F.flume_PORT_GCTRL_OPERLEN p then
        c.modGate p (fun g => { g with start := gateStart g.base (c.fld F.flume_PORT_GT7_OPERCYCLE p) t })
      else c
    let c := c.modGate p (fun g => { g with pend := g.pend.map (fun x =>
      (gateStart x.2 (c.fld F.flume_PORT_GT3_CYCLE p) t, x.2)) })
    match (c.gate p).pend with
    | some (s, _) => c.putStart p s
    | none => if 0 < c.fld F.flume_PORT_GCTRL_OPERLEN p then c.putStart p (c.gate p).start else c) c

end Sys2Proof.Machine
end

