-- ==== Sys2Proof/Machine/Boom.lean ====
section
/-! DEFINITION. The Boom: token buckets, configuration writes, queues' occupancy and the DWRR pick
(R340 to R358). -/
namespace Sys2Proof.Machine

open Sys2Proof

/-- The highest rate and quota, kbit/s. -/
def maxKbps : Nat := 400000000

/-- Kinds of token bucket. -/
inductive TokKind where
  | port | tenant | service | policer
  deriving DecidableEq, Repr

/-- The key of a token bucket. -/
def TokKind.key (k : TokKind) (i : Nat) : Nat :=
  (match k with | .port => 0 | .tenant => 1 | .service => 2 | .policer => 3) * 65536 + i

/-- The tenant of a service. -/
def Chip.svcTenant (c : Chip) (s : Nat) : Nat := c.fld F.boom_SVC_CFG_TENANT s

/-- The port of a tenant. -/
def Chip.tenPort (c : Chip) (t : Nat) : Nat := c.fld F.boom_TEN_CFG_PORT t

/-- The port of a service (R340). -/
def Chip.svcPort (c : Chip) (s : Nat) : Nat := c.tenPort (c.svcTenant s)

/-- A tenant's shaper is in force though disabled, because its quota is below 400,000,000 (R357). -/
def Chip.forced (c : Chip) (t : Nat) : Bool :=
  c.fld F.boom_TEN_SHAPER_BCODE t == 0 && decide (c.fld F.boom_TEN_BQUOTA_KBPS t < maxKbps)

/-- The burst in octets and the rate in kbit/s of a bucket; none where the node's shaper is disabled
(R351, R354, R356, R357). -/
def Chip.bucket (c : Chip) (k : TokKind) (i : Nat) : Option (Nat × Nat) :=
  let of (b r : Fld) : Option (Nat × Nat) := if c.fld b i = 0 then none else some (2 ^ c.fld b i, c.fld r i)
  match k with
  | .port => of F.boom_PORT_SHAPER_BCODE F.boom_PORT_SHAPER_RATE
  | .service => of F.boom_SVC_SHAPER_BCODE F.boom_SVC_SHAPER_RATE
  | .tenant =>
    let quota := c.fld F.boom_TEN_BQUOTA_KBPS i
    match of F.boom_TEN_SHAPER_BCODE F.boom_TEN_SHAPER_RATE with
    | some (b, r) => some (b, min r quota)
    | none => if c.forced i then some (2 ^ 14, quota) else none
  | .policer =>
    let b := c.fld F.boom_POL_CFG_BCODE i
    some (if b = 0 then 0 else 2 ^ b, c.fld F.boom_POL_CFG_RATE i)

/-- Tokens now, in 10^-7 octets: a kbit/s adds one such unit a count of 0.8 ns (R351).
[DEDUCED, log entry 91: unsafe] -/
def Chip.tokens (c : Chip) (k : TokKind) (i : Nat) : Int :=
  let x := Cells.get {} (k.key i) c.flume.toks
  match c.bucket k i with
  | none => 0
  | some (b, r) => min ((b * 10000000 : Nat) : Int) (x.t + ((c.count - x.at_) * r : Nat))

/-- Tokens set, from now on. -/
def Chip.setTokens (k : TokKind) (i : Nat) (t : Int) (c : Chip) : Chip :=
  c.modFlume (fun f => { f with toks := Cells.insert (k.key i) { t := t, at_ := c.count } f.toks })

/-- A node's shaper is open (R351). -/
def Chip.shaperOpen (c : Chip) (k : TokKind) (i : Nat) : Bool :=
  match c.bucket k i with | none => true | some _ => decide (0 ≤ c.tokens k i)

/-- A cost charged to a node's shaper (R347, R351). -/
def Chip.charge (k : TokKind) (i cost : Nat) (c : Chip) : Chip :=
  match c.bucket k i with
  | none => c
  | some _ => c.setTokens k i (c.tokens k i - (cost * 10000000 : Nat))

/-- A policer judges a frame of `len` octets (R355).
[DEDUCED, log entry 90: unsafe] -/
def Chip.police (i len : Nat) (c : Chip) : Bool × Chip :=
  let t := c.tokens .policer i
  if ((len * 10000000 : Nat) : Int) ≤ t then (true, c.setTokens .policer i (t - (len * 10000000 : Nat)))
  else (false, c.bump F.boom_POL_DROPS_FRAMES 1 i)

/-- The RANGE check of a shaper or policer write (Tables 13.3 and 13.7). -/
def shaperRange (w : Word) : Nat :=
  let b := wbits w 34 30
  St.when ((decide (1 ≤ b ∧ b ≤ 5)) || decide (25 ≤ b) || decide (maxKbps < wbits w 28 0)) St.RANGE

/-- A shaper or policer set, and its tokens full or empty (R353, R355). -/
def Chip.loadShaper (k : TokKind) (r : RegName) (i : Nat) (w : Word) (c : Chip) : Chip :=
  let b := wbits w 34 30
  (c.wr r (wofNat (b * 2 ^ 30 + wbits w 28 0)) i).setTokens k i
    (if wbit w 35 then (((if b = 0 then 0 else 2 ^ b) * 10000000 : Nat) : Int) else 0)

/-- A write of a port's SHAPER (R353). -/
def Chip.writePortShaper (q : Requester) (p : Nat) (w : Word) (c : Chip) : Chip :=
  let st := shaperRange w
  if st ≠ St.OK then c.errq q F.boom_REQSTAT_LASTERR st else c.loadShaper .port .boom_PORT_SHAPER p w

/-- A write of a tenant's SHAPER (R353, R356). -/
def Chip.writeTenShaper (q : Requester) (t : Nat) (w : Word) (c : Chip) : Chip :=
  let quota := c.fld F.boom_TEN_BQUOTA_KBPS t
  let st := St.pick [shaperRange w, St.when (decide (quota < wbits w 28 0)) St.QUOTA,
    St.when (wbits w 34 30 == 0 && decide (quota < maxKbps)) St.QUOTA]
  if st ≠ St.OK then c.errq q F.boom_REQSTAT_LASTERR st else c.loadShaper .tenant .boom_TEN_SHAPER t w

/-- A write of a service's SHAPER (R353, R356). -/
def Chip.writeSvcShaper (q : Requester) (s : Nat) (w : Word) (c : Chip) : Chip :=
  let st := St.pick [shaperRange w,
    St.when (decide (c.fld F.boom_TEN_BQUOTA_KBPS (c.svcTenant s) < wbits w 28 0)) St.QUOTA]
  if st ≠ St.OK then c.errq q F.boom_REQSTAT_LASTERR st else c.loadShaper .service .boom_SVC_SHAPER s w

/-- A write of a policer's CFG (R354, R355). -/
def Chip.writePolicer (q : Requester) (i : Nat) (w : Word) (c : Chip) : Chip :=
  let st := shaperRange w
  if st ≠ St.OK then c.errq q F.boom_REQSTAT_LASTERR st else c.loadShaper .policer .boom_POL_CFG i w

/-- A write of BQUOTA: refilled to now at the old rate; a disabled shaper comes into force full (R357). -/
def Chip.writeBquota (q : Requester) (t : Nat) (w : Word) (c : Chip) : Chip :=
  let kbps := wbits w 28 0
  if maxKbps < kbps then c.errq q F.boom_REQSTAT_LASTERR St.RANGE
  else
    let was := c.forced t
    let c := if (c.bucket .tenant t).isSome then c.setTokens .tenant t (c.tokens .tenant t) else c
    let c := c.put F.boom_TEN_BQUOTA_KBPS kbps t
    if c.forced t && !was then c.setTokens .tenant t ((2 ^ 14 * 10000000 : Nat) : Int) else c

/-- An enabled service names tenant t: a service whose register is not listed is disabled. -/
def Chip.tenantNamed (c : Chip) (t : Nat) : Bool :=
  c.regs.any (fun x => let k := x.1 - slotOf .boom_SVC_CFG 0 0
    decide (slotOf .boom_SVC_CFG 0 0 ≤ x.1 ∧ k < 65536 ∧ k % 2 = 0) && wbit x.2 35 && wbits x.2 33 22 == t)

/-- A write of TEN.CFG (R342, Table 13.4). -/
def Chip.writeTenCfg (q : Requester) (t : Nat) (w : Word) (c : Chip) : Chip :=
  let port := wbits w 33 27
  let en := c.flag F.boom_TEN_CFG_EN t
  let st := St.pick [St.when (decide (66 < port)) St.RANGE,
    St.when (port != c.tenPort t && (en || !c.flag F.boom_TEN_CFG_DRAINED t)) St.BUSY,
    St.when (en && !wbit w 35 && c.tenantNamed t) St.BUSY]
  if st ≠ St.OK then c.errq q F.boom_REQSTAT_LASTERR st
  else ((c.put F.boom_TEN_CFG_EN (wbits w 35 35) t).put F.boom_TEN_CFG_PORT port t).put
    F.boom_TEN_CFG_WEIGHT (wbits w 26 19) t

/-- A write of SVC.CFG (R342, Table 13.6). -/
def Chip.writeSvcCfg (q : Requester) (s : Nat) (w : Word) (c : Chip) : Chip :=
  let ten := wbits w 33 22
  let st := St.pick [St.when (wbit w 35 && !c.flag F.boom_TEN_CFG_EN ten) St.NOTREADY,
    St.when (ten != c.svcTenant s && (c.flag F.boom_SVC_CFG_EN s || !c.flag F.boom_SVC_CFG_DRAINED s)) St.BUSY]
  if st ≠ St.OK then c.errq q F.boom_REQSTAT_LASTERR st
  else ((c.put F.boom_SVC_CFG_EN (wbits w 35 35) s).put F.boom_SVC_CFG_TENANT ten s).put
    F.boom_SVC_CFG_WEIGHT (wbits w 21 14) s

/-- A write of Q.CFG (Table 13.9). -/
def Chip.writeQcfg (q : Requester) (n : Nat) (w : Word) (c : Chip) : Chip :=
  if 393216 < wbits w 18 0 then c.errq q F.boom_REQSTAT_LASTERR St.RANGE
  else (c.put F.boom_Q_CFG_CLASS (wbits w 35 33) n).put F.boom_Q_CFG_LIMIT (wbits w 18 0) n

/-- A queue's frames, oldest first. -/
def Chip.queue (c : Chip) (q : Nat) : List Nat := Cells.get [] q c.flume.queues

/-- A child whose queues have all emptied leaves its round, and its deficit becomes 0 (R350). -/
def RoundSt.leave (x : Nat) (r : RoundSt) : RoundSt :=
  { list := r.list.filter (· != x), back := r.back.filter (· != x), deficit := Cells.erase x r.deficit,
    cur := if r.cur = some x then none else r.cur }

/-- No queue of a service holds a frame. -/
def Chip.svcEmpty (c : Chip) (s : Nat) : Bool := !c.flume.queues.any (fun x => x.1 / 4 == s)

/-- No queue under a tenant holds a frame. -/
def Chip.tenEmpty (c : Chip) (t : Nat) : Bool := !c.flume.queues.any (fun x => c.svcTenant (x.1 / 4) == t)

/-- A queue set; DRAINED of its service and tenant follow (R342), and a node that has emptied leaves its round (R350). -/
def Chip.setQueue (q : Nat) (l : List Nat) (c : Chip) : Chip :=
  let c := c.modFlume (fun f => { f with queues := Cells.set [] q l f.queues })
  let s := q / 4
  let t := c.svcTenant s
  let c := c.iff (c.svcEmpty s) (Chip.modFlume (fun f => { f with tenRounds := Cells.modify {} t (RoundSt.leave s) f.tenRounds }))
  let c := c.iff (c.tenEmpty t) (Chip.modFlume (fun f => { f with
    portRounds := Cells.modify {} (c.tenPort t) (RoundSt.leave t) f.portRounds }))
  let c := c.put F.boom_SVC_CFG_DRAINED (b2n (c.svcEmpty s)) s
  c.put F.boom_TEN_CFG_DRAINED (b2n (c.tenEmpty t)) t

/-- A DWRR node after children have left and joined (R350): of the children in order, `can` have a selectable
queue and `holds` hold frames; `weight` is their WEIGHT.
[DEDUCED, log entry 124: unsafe] -/
def RoundSt.sync (r : RoundSt) (can : List Nat) (holds : Nat → Bool) (weight : Nat → Nat) : RoundSt :=
  let stays := r.list.filter (fun x => can.contains x && decide (weight x ≠ 0))
  let backs := r.back.filter (fun x => can.contains x && decide (weight x = 0))
  let gone := r.list.filter (fun x => !stays.contains x)
  let deficit := gone.foldl (fun d x => if holds x then Cells.modify 0 x (fun v => min v (256 * weight x)) d
    else Cells.erase x d) r.deficit
  let deficit := deficit.filter (fun x => holds x.1)
  let join := can.filter (fun x => !stays.contains x && !backs.contains x)
  { list := stays ++ join.filter (fun x => decide (weight x ≠ 0)),
    back := backs ++ join.filter (fun x => decide (weight x = 0)), deficit := deficit,
    cur := match r.cur with | some x => if stays.contains x then some x else none | none => none }

/-- The pick among children of weight 1 to 255 (R350), with at most `fuel` looks at the head of the round. -/
def RoundSt.turn (weight cost : Nat → Nat) : Nat → RoundSt → Option Nat × RoundSt
  | 0, r => (none, r)
  | fuel + 1, r =>
    match r.list with
    | [] => (none, r)
    | h :: tail =>
      let d := Cells.get 0 h r.deficit + (if r.cur = some h then 0 else 256 * weight h)
      if cost h ≤ d then
        (some h, { r with deficit := Cells.set 0 h (d - cost h) r.deficit, cur := some h })
      else RoundSt.turn weight cost fuel { r with
        list := tail ++ [h], deficit := Cells.set 0 h d r.deficit, cur := none }

/-- dwrr_pick of R347 on a node in sync: the child picked, and the node. -/
def RoundSt.pick (r : RoundSt) (weight cost : Nat → Nat) : Option Nat × RoundSt :=
  if r.list.isEmpty then
    match r.back with
    | [] => (none, r)
    | h :: tail => (some h, { r with back := tail ++ [h] })
  else RoundSt.turn weight cost (66 * (r.list.length + 1)) r

end Sys2Proof.Machine
end

