-- ==== Sys2Proof/Machine/Parse.lean ====
section
/-! DEFINITION. Reading frames: the flow key of R314 and R315, UDP payloads, PTP messages and the corrections of
R58 to R63. A frame is its octets without the FCS. -/
namespace Sys2Proof.Machine

open Sys2Proof

/-- An octet of a frame. -/
def at8 (l : List Octet) (i : Nat) : Nat := (l.getD i 0).toNat

/-- Where the EtherType after the tags stands, and the outer VID if there is a tag (R314). -/
def tagsOf (l : List Octet) : Nat × Option Nat :=
  if hasTag l then (if be16 l 16 = 0x8100 then (20, some (be16 l 14 % 4096)) else (16, some (be16 l 14 % 4096)))
  else (12, none)

/-- The network layer of a frame as the parser sees it (R314). -/
inductive Layer3 where
  | l2
  | ip4 (src dst proto l4 : Nat) (frag : Bool)
  /-- Addresses as 128-bit numbers; no L4 place where the chain does not end within 128 octets. -/
  | ip6 (src dst proto : Nat) (l4 : Option Nat) (frag : Bool)
  deriving DecidableEq, Repr

/-- The IPv6 header chain from a next-header value at an offset: the upper-layer value, its offset and whether a
fragment was met; none where the chain does not end within `lim` octets (R314). -/
def chain6 (l : List Octet) (lim : Nat) : Nat → Nat → Nat → Bool → Option (Nat × Nat × Bool)
  | 0, _, _, _ => none
  | fuel + 1, nh, off, frag =>
    if nh = 0 ∨ nh = 43 ∨ nh = 60 then
      let n := 8 * (at8 l (off + 1) + 1)
      if off + n ≤ lim then chain6 l lim fuel (at8 l off) (off + n) frag else none
    else if nh = 44 then
      if off + 8 ≤ lim then
        let f := be16 l (off + 2)
        chain6 l lim fuel (at8 l off) (off + 8) (frag || f / 8 != 0 || f % 2 == 1)
      else none
    else some (nh, off, frag)

/-- The network layer (R314), read from at most the first 128 octets.
[DEDUCED, log entry 123: unsafe] -/
def layer3 (l : List Octet) : Layer3 :=
  let e := (tagsOf l).1
  let off := e + 2
  let et := be16 l e
  let lim := min 128 l.length
  if et = 0x0800 ∧ at8 l off / 16 = 4 ∧ 5 ≤ at8 l off % 16 ∧ off + 4 * (at8 l off % 16) ≤ l.length then
    let f := be16 l (off + 6)
    .ip4 (be32 l (off + 12)) (be32 l (off + 16)) (at8 l (off + 9)) (off + 4 * (at8 l off % 16))
      ((f / 0x2000) % 2 == 1 || f % 0x2000 != 0)
  else if et = 0x86DD ∧ at8 l off / 16 = 6 ∧ off + 40 ≤ l.length then
    let src := ofBeOctets ((l.drop (off + 8)).take 16)
    let dst := ofBeOctets ((l.drop (off + 24)).take 16)
    match chain6 l lim 17 (at8 l (off + 6)) (off + 40) false with
    | some (p, o, frag) => .ip6 src dst p (some o) frag
    | none => .ip6 src dst 0 none false
  else .l2

/-- PROTO, the place of L4 and whether the frame is a fragment. -/
def Layer3.l4 : Layer3 → Option (Nat × Nat × Bool)
  | .l2 => none
  | .ip4 _ _ p o f => some (p, o, f)
  | .ip6 _ _ p (some o) f => some (p, o, f)
  | .ip6 _ _ _ none _ => none

/-- Source and destination port of a frame's key; 0 where they are not read (R314). -/
def portsOf (l : List Octet) (n : Layer3) : Nat × Nat :=
  match n.l4 with
  | some (p, o, f) =>
    if (p = 6 ∨ p = 17) ∧ f = false ∧ o + 4 ≤ min 128 l.length then (be16 l o, be16 l (o + 2)) else (0, 0)
  | none => (0, 0)

/-- The place of a UDP payload whose first 12 octets lie in the first 128 and start with 0b10: an RTP header
(R314). -/
def rtpAt (l : List Octet) (n : Layer3) : Option Nat :=
  match n.l4 with
  | some (p, o, f) =>
    if p = 17 ∧ f = false ∧ o + 20 ≤ min 128 l.length ∧ at8 l (o + 8) / 64 = 2 then some (o + 8) else none
  | none => none

/-- The settings of KEYSEL that a key is built with (Table 12.18). -/
structure KeySel where
  l2only : Bool
  ssrc : Bool
  src : Bool
  vlan : Bool
  inport : Bool
  deriving DecidableEq, Repr

/-- A key's word 0 (Table 12.1). -/
def keyWord0 (ktype port : Nat) (s : KeySel) (vid : Option Nat) (proto : Nat) : Word :=
  let tag := if s.vlan then (match vid with | some v => 2 ^ 25 + v * 2 ^ 13 | none => 0) else 0
  wofNat (2 ^ 35 + ktype * 2 ^ 32 + (if s.inport then port * 2 ^ 26 else 0) + tag + proto * 2 ^ 5)

/-- An IPv6 address of a frame's key is absent from the address table, so that no entry can match (R316). -/
def unknown6 (s : KeySel) (v6 : Nat → Option Nat) (frame : List Octet) : Bool :=
  match layer3 frame with
  | .ip6 src dst _ _ _ => !s.l2only && ((s.src && (v6 src).isNone) || (v6 dst).isNone)
  | _ => false

/-- The key of a frame (Table 12.1) with the index of each IPv6 address, 0xFFFF for one that is absent from the table
(R316). -/
def flowKey (s : KeySel) (port : Nat) (v6 : Nat → Option Nat) (frame : List Octet) : List Word :=
  let l := frame
  let vid := (tagsOf l).2
  let n := if s.l2only then Layer3.l2 else layer3 l
  let ports := portsOf l n
  let ssrc := if s.ssrc then (match rtpAt l n with | some o => be32 l (o + 8) | none => 0) else 0
  let sport := if s.src then ports.1 else 0
  let w3 := wofNat (sport * 2 ^ 20 + ports.2 * 16)
  let w4 := wofNat (ssrc * 16)
  match n with
  | .l2 =>
    let d := ofBeOctets (l.take 6)
    let a := if s.src then ofBeOctets ((l.drop 6).take 6) else 0
    [keyWord0 1 port s vid 0, wofNat (d / 2 ^ 12), wofNat (d % 2 ^ 12 * 2 ^ 24 + a / 2 ^ 24),
      wofNat (a % 2 ^ 24 * 2 ^ 12), wofNat (be16 l (tagsOf l).1 * 2 ^ 20)]
  | .ip4 src dst p _ _ =>
    [keyWord0 2 port s vid p, wofNat (if s.src then src else 0), wofNat dst, w3, w4]
  | .ip6 src dst p _ _ =>
    [keyWord0 3 port s vid p, wofNat (if s.src then (v6 src).getD 0xFFFF else 0), wofNat ((v6 dst).getD 0xFFFF), w3, w4]

/-- Where a PTP message starts in a frame, with its transport: 0 L2, 1 UDP/IPv4, 2 UDP/IPv6, and the place of the
UDP header; `event` asks for the event port 319 (IEEE 1588; R58, R60). -/
structure PtpAt where
  at_ : Nat
  transport : Nat
  udp : Nat
  deriving DecidableEq, Repr

/-- The IPv6 chain read over the whole frame, for a PTP message beyond the first 128 octets (R58). -/
def layer4Full (l : List Octet) : Option (Nat × Nat × Nat × Bool) :=
  let e := (tagsOf l).1
  let off := e + 2
  match layer3 l with
  | .l2 => none
  | .ip4 _ _ p o f => some (1, p, o, f)
  | .ip6 .. =>
    match chain6 l l.length 64 (at8 l (off + 6)) (off + 40) false with
    | some (p, o, f) => some (2, p, o, f)
    | none => none

/-- The PTP message of a frame on UDP port 319 or 320, or EtherType 0x88F7. -/
def ptpOf (l : List Octet) : Option PtpAt :=
  let e := (tagsOf l).1
  if be16 l e = 0x88F7 then some { at_ := e + 2, transport := 0, udp := 0 }
  else match layer4Full l with
    | some (tr, p, o, f) =>
      if p = 17 ∧ f = false ∧ (be16 l (o + 2) = 319 ∨ be16 l (o + 2) = 320) then
        some { at_ := o + 8, transport := tr, udp := o }
      else none
    | none => none

/-- messageType, domainNumber, sequenceId, messageLength and twoStepFlag of a PTP message. -/
def ptpType (l : List Octet) (m : PtpAt) : Nat := at8 l m.at_ % 16

/-- domainNumber. -/
def ptpDomain (l : List Octet) (m : PtpAt) : Nat := at8 l (m.at_ + 4)

/-- sequenceId. -/
def ptpSeq (l : List Octet) (m : PtpAt) : Nat := be16 l (m.at_ + 30)

/-- twoStepFlag. -/
def ptpTwoStep (l : List Octet) (m : PtpAt) : Bool := (at8 l (m.at_ + 6)).testBit 1

/-- An event message: Sync, Delay_Req, Pdelay_Req or Pdelay_Resp (R58). -/
def ptpEvent (l : List Octet) : Option PtpAt :=
  match ptpOf l with
  | some m => if ptpType l m < 4 ∧ (m.transport = 0 ∨ be16 l (m.udp + 2) = 319) then some m else none
  | none => none

/-- A Pdelay message: Pdelay_Req, Pdelay_Resp or Pdelay_Resp_Follow_Up (R60). -/
def isPdelay (l : List Octet) : Bool :=
  match ptpOf l with
  | some m => ptpType l m == 2 || ptpType l m == 3 || ptpType l m == 10
  | none => false

/-- Octets written into a frame from a place on. -/
def patch (l : List Octet) (i : Nat) (w : List Octet) : List Octet :=
  (l.take i ++ w ++ l.drop (i + w.length)).take l.length

/-- The ones' complement sum of two 16-bit numbers. -/
def onesAdd (a b : Nat) : Nat := (a + b) % 65536 + (a + b) / 65536

/-- The ones' complement sum of octets taken as 16-bit big-endian words. -/
def onesSum : List Octet → Nat → Nat
  | a :: b :: r, s => onesSum r (onesAdd s (a.toNat * 256 + b.toNat))
  | [a], s => onesAdd s (a.toNat * 256)
  | [], s => s

/-- What a change of octets adds to the ones' complement sum. -/
def onesDelta (old new : List Octet) : Nat := onesAdd (onesSum new 0) (65535 - onesSum old 0)

/-- A 16-bit number with its octets swapped. -/
def swap16 (n : Nat) : Nat := n % 256 * 256 + n / 256

/-- A corrected frame with its transport's checksum kept valid (R61): `new` is written over the octets at `i`, an
even distance from the UDP header. The amount still to be added in the compensation field is returned where that
field stands beyond the octets at hand. -/
def rewrite (l : List Octet) (m : PtpAt) (i : Nat) (new : List Octet) : List Octet × Option (Nat × Nat) :=
  let old := (l.drop i).take new.length
  let d := onesDelta old new
  let l' := patch l i new
  let csum := be16 l (m.udp + 6)
  let hc := 65535 - onesAdd (65535 - csum) d
  let incremental := patch l' (m.udp + 6) (beOctets 2 (if hc = 0 then 65535 else hc))
  if m.transport = 0 then (l', none)
  else if m.transport = 1 then (if csum = 0 then l' else incremental, none)
  else
    let payload := be16 l (m.udp + 4) - 8
    if be16 l (m.at_ + 2) + 2 ≤ payload then
      let odd := payload % 2 == 1
      let add := 65535 - d
      (l', some (m.at_ + payload - 2, if odd then swap16 add else add))
    else (incremental, none)

/-- The compensation field adjusted (R61). -/
def applyFix (l : List Octet) (f : Option (Nat × Nat)) : List Octet :=
  match f with
  | some (i, add) => if i + 2 ≤ l.length then patch l i (beOctets 2 (onesAdd (be16 l i) add)) else l
  | none => l

/-- correctionField raised by an amount in 2^-16 ns (R60, R61). -/
def addCorrection (l : List Octet) (m : PtpAt) (v : Nat) : List Octet × Option (Nat × Nat) :=
  let cf := ofBeOctets ((l.drop (m.at_ + 8)).take 8)
  rewrite l m (m.at_ + 8) (beOctets 8 ((cf + v) % 2 ^ 64))

/-- A one-step Sync of the device's own clock: originTimestamp and correctionField from its egress time (R63). -/
def writeOrigin (l : List Octet) (m : PtpAt) (t : Nat) : List Octet × Option (Nat × Nat) :=
  let mid := (l.drop (m.at_ + 16)).take 18
  rewrite l m (m.at_ + 8)
    (beOctets 8 (fracOf t) ++ mid ++ beOctets 6 (secOf t % 2 ^ 48) ++ beOctets 4 (nsOf t))

end Sys2Proof.Machine
end

