-- ==== Sys2Proof/Machine/Flume.lean ====
section
/-! DEFINITION. The Flume: the flow table, its cache and its commands, frames from ingress to egress, and the RECOVERY
of the forwarding plane (R312 to R332, R339, R358, R366 to R377). -/
namespace Sys2Proof.Machine

open Sys2Proof

/-! ## The flow table -/

/-- H_w of R317: the key's bits through the CRC-32C register from a seed. -/
def flowHash (seed : Nat) (key : List Word) : Nat :=
  key.foldl (fun r w => (List.range 36).foldl (fun r i =>
    let f := r.testBit 31 != w.toNat.testBit (35 - i)
    let s := (r * 2) % 2 ^ 32
    if f then Nat.xor s 0x1EDC6F41 else s) r) seed

/-- H_w of a key with the seed of way w (R317). -/
def Chip.hashOf (c : Chip) (w : Nat) (key : List Word) : Nat := flowHash (c.fld F.flume_HSEED_SEED w) key

/-- The burst of a key's bucket in way w (R317). -/
def Chip.bucketOf (c : Chip) (w : Nat) (key : List Word) : Nat :=
  let n := 2 ^ c.fld F.flume_FTSIZE_K
  c.fld F.flume_FTBASE_BASE + w * n + c.hashOf w key % n

/-- The word addresses of the four entries a key may take: way 0 first, in each bucket the lower entry first. -/
def Chip.entryAddrs (c : Chip) (key : List Word) : List Nat :=
  [c.bucketOf 0 key * 16, c.bucketOf 0 key * 16 + 8, c.bucketOf 1 key * 16, c.bucketOf 1 key * 16 + 8]

/-- Both candidate bursts of a key are read without error. -/
def Chip.tableOk (c : Chip) (key : List Word) : Bool :=
  c.burstOk (c.bucketOf 0 key) && c.burstOk (c.bucketOf 1 key)

/-- Errors met in the reads of both candidate bursts are logged (R323). -/
def Chip.logTable (key : List Word) (c : Chip) : Chip :=
  (c.readLog Src.FLOW (c.bucketOf 0 key * 16) 16).readLog Src.FLOW (c.bucketOf 1 key * 16) 16

/-- The word address of the entry that holds a key. -/
def Chip.findEntry (c : Chip) (key : List Word) : Option Nat :=
  (c.entryAddrs key).find? (fun a => decide (c.words a 5 = key) && wbit (c.word a) 35)

/-- The action words of a key in the table. -/
def Chip.tableAct (c : Chip) (key : List Word) : Option (List Word) := (c.findEntry key).map (fun a => c.words (a + 5) 3)

/-! ## The flow cache (R321) -/

/-- The cache set of a key. -/
def Chip.cacheSet (c : Chip) (key : List Word) : Nat := c.hashOf 0 key % 16384

/-- What the cache holds of a key: its action words, or that the table holds none. -/
def Chip.cached (c : Chip) (key : List Word) : Option (Option (List Word)) :=
  (List.find? (fun x => decide (x.1 = key)) (Cells.get [] (c.cacheSet key) c.flume.cache)).map (·.2)

/-- A line made the most recently used of its set; the least recently used of 16 is replaced. -/
def Chip.touchCache (key : List Word) (a : Option (List Word)) (c : Chip) : Chip :=
  let k := c.cacheSet key
  c.modFlume (fun f => { f with
    cache := Cells.modify [] k (fun l => ((key, a) :: l.filter (fun x => decide (x.1 ≠ key))).take 16) f.cache })

/-- A command updates the line of its key, if the cache holds one (R321).
[DEDUCED, log entry 88: unsafe] -/
def Chip.updateCache (key : List Word) (a : Option (List Word)) (c : Chip) : Chip :=
  let k := c.cacheSet key
  c.modFlume (fun f => { f with
    cache := Cells.modify [] k (fun l => l.map (fun x => if x.1 = key then (key, a) else x)) f.cache })

/-! ## Commands (R324) -/

/-- A reserved field of an entry is non-zero (Tables 12.1 and 12.2). -/
def entryReserved (w : List Word) : Bool :=
  let g (i hi lo : Nat) : Bool := wbits (w.getD i 0) hi lo != 0
  let kt := wbits (w.getD 0 0) 34 32
  g 0 4 0 || g 5 0 0 || g 6 16 0 || g 7 11 0 ||
  (if kt = 1 then g 0 12 5 || g 3 11 0 || g 4 19 0
   else if kt = 2 then g 1 35 32 || g 2 35 32 || g 3 3 0 || g 4 3 0
   else if kt = 3 then g 1 35 16 || g 2 35 16 || g 3 3 0 || g 4 3 0 else false)

/-- A value of an entry that INSERT refuses with RANGE (Tables 12.1 to 12.3). -/
def Chip.entryRange (c : Chip) (w : List Word) : Bool :=
  let w0 := w.getD 0 0
  let kt := wbits w0 34 32
  let act := wbits (w.getD 5 0) 35 33
  let dest := wbits (w.getD 5 0) 15 1
  !wbit w0 35 || decide (kt = 0 ∨ 3 < kt) || decide (5 ≤ act) ||
  (if act = 2 then decide (c.fld F.chan_CFG_SLOTS ≤ dest) else if act = 4 then decide (16 ≤ dest) else dest != 0)

/-- The status of the checks that INSERT and MODIFY make on an entry (Table 12.4). -/
def Chip.checkEntry (c : Chip) (w : List Word) : Nat :=
  St.pick [St.when (entryReserved w) St.FORMAT, St.when (c.entryRange w) St.RANGE]

/-- INSERT of eight words: status, cuckoo moves and the device after (Table 12.4, in the order of R39). Two entries whose buckets in one
way are the same share the bucket of the other way, so a full pair of buckets gives QUOTA.
[DESIGN CHOICE, log entry 87: safe] [DEDUCED, log entry 123: unsafe] -/
def Chip.flowInsert (w : List Word) (c : Chip) : Nat × Nat × Chip :=
  let key := w.take 5
  let st := c.checkEntry w
  if !c.tableOk key then (St.UNCORR, 0, c.logTable key)
  else if st ≠ St.OK then (st, 0, c)
  else if (c.findEntry key).isSome then (St.BUSY, 0, c)
  else
    let places := (c.entryAddrs key).filter (fun a => !wbit (c.word a) 35)
    match places with
    | [] => let x := c.drawNat; (St.QUOTA, x.1 % 65, x.2)
    | p :: _ =>
      let x := if places.length = 1 then (0, c) else c.drawNat
      let a := places.getD (x.1 % places.length) p
      (St.OK, 0, ((x.2.putWords a (w.take 8) Src.FLOW).addTo F.flume_FTCOUNT_ENTRIES 1).updateCache key (some ((w.drop 5).take 3)))

/-- DELETE (Table 12.4). -/
def Chip.flowDelete (key : List Word) (c : Chip) : Nat × Chip :=
  if !c.tableOk key then (St.UNCORR, c.logTable key)
  else match c.findEntry key with
  | none => (St.NOTREADY, c)
  | some a => (St.OK, ((c.putWords a (List.replicate 8 0) Src.FLOW).subFrom F.flume_FTCOUNT_ENTRIES 1).updateCache key none)

/-- MODIFY (Table 12.4). -/
def Chip.flowModify (w : List Word) (c : Chip) : Nat × Chip :=
  let key := w.take 5
  let st := c.checkEntry w
  if !c.tableOk key then (St.UNCORR, c.logTable key)
  else if st ≠ St.OK then (st, c)
  else match c.findEntry key with
  | none => (St.NOTREADY, c)
  | some a => (St.OK, (c.putWords (a + 5) ((w.drop 5).take 3) Src.FLOW).updateCache key (some ((w.drop 5).take 3)))

/-- V6SET (Table 12.4). -/
def Chip.v6Set (i addr : Nat) (c : Chip) : Nat × Chip :=
  if i = 0xFFFF then (St.RANGE, c)
  else if c.flume.v6.any (fun x => x.1 != i && x.2 == addr) then (St.BUSY, c)
  else (St.OK, c.modFlume (fun f => { f with v6 := Cells.insert i addr f.v6 }))

/-- V6CLEAR (Table 12.4). -/
def Chip.v6Clear (i : Nat) (c : Chip) : Nat × Chip :=
  match Cells.find? i c.flume.v6 with
  | none => (St.NOTREADY, c)
  | some _ => (St.OK, c.modFlume (fun f => { f with v6 := Cells.erase i f.v6 }))

/-- The index of an IPv6 address (R316).
[DEDUCED, log entry 89: unsafe] -/
def Chip.v6Index (c : Chip) (addr : Nat) : Option Nat := (List.find? (fun x => x.2 == addr) c.flume.v6).map (·.1)

/-- A requester's staged entry. -/
def Chip.fstage (c : Chip) (q : Requester) : List Word := (List.range 8).map (fun i => c.rdq q .flume_FSTAGE i)

/-- A requester's staged IPv6 address: word w holds bits [127 - 32w : 96 - 32w]. -/
def Chip.v6stage (c : Chip) (q : Requester) : Nat :=
  (List.range 4).foldl (fun a i => a * 2 ^ 32 + c.fldq q F.flume_V6STAGE_ADDR i) 0

/-- A command's status is reported, with the moves of an INSERT. -/
def Chip.flowDone (q : Requester) (st : Nat) (c : Chip) : Chip :=
  (c.putq q F.flume_FCMDSTAT_BUSY 0).putq q F.flume_FCMDSTAT_STATUS st

/-- FLOW_INSERT by a requester.
[DEDUCED, log entry 88: unsafe] -/
def Chip.cmdInsert (q : Requester) (c : Chip) : Chip :=
  let r := c.flowInsert (c.fstage q)
  (r.2.2.putq q F.flume_FCMDSTAT_MOVES r.2.1).flowDone q r.1

/-- FLOW_DELETE by a requester.
[DEDUCED, log entry 88: unsafe] -/
def Chip.cmdDelete (q : Requester) (c : Chip) : Chip :=
  let r := c.flowDelete ((c.fstage q).take 5)
  r.2.flowDone q r.1

/-- FLOW_LOOKUP by a requester: the entry is copied to FREAD. -/
def Chip.cmdLookup (q : Requester) (c : Chip) : Chip :=
  let key := (c.fstage q).take 5
  if !c.tableOk key then (c.logTable key).flowDone q St.UNCORR
  else match c.findEntry key with
  | none => c.flowDone q St.NOTREADY
  | some a => (forRange 8 (fun i d => d.wrq q .flume_FREAD (c.word (a + i)) i) c).flowDone q St.OK

/-- FLOW_MODIFY by a requester.
[DEDUCED, log entry 88: unsafe] -/
def Chip.cmdModify (q : Requester) (c : Chip) : Chip :=
  let r := c.flowModify (c.fstage q)
  r.2.flowDone q r.1

/-- V6SET by a requester at an index. -/
def Chip.cmdV6set (q : Requester) (i : Nat) (c : Chip) : Chip :=
  let r := c.v6Set i (c.v6stage q)
  r.2.flowDone q r.1

/-- V6CLEAR by a requester at an index. -/
def Chip.cmdV6clear (q : Requester) (i : Nat) (c : Chip) : Chip :=
  let r := c.v6Clear i
  r.2.flowDone q r.1

/-- A write of FLUME.FCMD: the command runs (Table 12.13). -/
def Chip.writeFcmd (q : Requester) (w : Word) (c : Chip) : Chip :=
  let op := wbits w 35 32
  let i := wbits w 15 0
  let c := (c.putq q F.flume_FCMD_OP op).putq q F.flume_FCMD_INDEX i
  if op = 1 then c.cmdInsert q else if op = 2 then c.cmdDelete q else if op = 3 then c.cmdLookup q
  else if op = 4 then c.cmdModify q else if op = 5 then c.cmdV6set q i else if op = 6 then c.cmdV6clear q i
  else c.flowDone q St.RANGE

/-! ## Frames, cells and queues -/

/-- A frame in the Flume. -/
def Chip.frame (c : Chip) (id : Nat) : Option FrameSt := Cells.find? id c.flume.frames

/-- A frame changed. -/
def Chip.putFrame (id : Nat) (f : FrameSt) (c : Chip) : Chip :=
  c.modFlume (fun x => { x with frames := Cells.insert id f x.frames })

/-- Octets of a frame at hand, with the FCS once it has arrived whole. -/
def FrameSt.have (f : FrameSt) : Nat := f.data.length + (if f.whole then 4 else 0)

/-- Cells of 256 octets that a frame holds (R326, R344).
[DEDUCED, log entry 123: unsafe] -/
def FrameSt.cells (f : FrameSt) : Nat := if f.stored then ceilDiv f.have 256 else 0

/-- A frame's length at egress port p: with padding and FCS where known, else the largest frame of the port, or of
the ingress port for an internal egress port (R329, R344, R371).
[DEDUCED, log entry 92: unsafe] -/
def Chip.lenAt (c : Chip) (p : Nat) (f : FrameSt) : Nat :=
  if f.whole then (if p < 64 then max 64 f.have else f.have)
  else if p < 64 then c.maxLen p else c.maxLen f.src

/-- The cost of a frame (R349).
[DEDUCED, log entry 92: unsafe] -/
def Chip.costAt (c : Chip) (p : Nat) (f : FrameSt) : Nat := c.lenAt p f + 20

/-- A frame of a transmit ring has ended (R442). -/
def Chip.hostEnd (f : FrameSt) (st : Nat) (c : Chip) : Chip :=
  match f.host with
  | none => c
  | some (r, i) => c.modFlume (fun x => { x with txDone := x.txDone ++ [(r, i, st)] })

/-- A frame leaves the Flume: its cells are free (R344). -/
def Chip.freeFrame (id : Nat) (c : Chip) : Chip :=
  match c.frame id with
  | none => c
  | some f =>
    let c := c.modFlume (fun x => { x with frames := Cells.erase id x.frames })
    if f.stored then (c.addTo F.flume_BUFFREE_CELLS f.cells).subFrom F.boom_Q_STAT_OCC f.cells f.q else c

/-- A frame is dropped, with the status its transmit ring reports (Table 17.3). -/
def Chip.dropFrame (id st : Nat) (c : Chip) : Chip :=
  match c.frame id with
  | none => c
  | some f => (c.freeFrame id).hostEnd f st

/-- A counter of an ingress or egress port (Table 12.21). -/
def Chip.flumeCnt (p k : Nat) (c : Chip) : Chip := if p < 64 then c.bump F.flume_PORT_CNT_COUNT 1 p k else c

/-- The LATE policy of a queue for a class: true for SEND (Table 12.5). -/
def Chip.lateSends (c : Chip) (q cls : Nat) : Bool :=
  let pol := c.fld F.flume_QLATE_POL (q / 16) / 4 ^ (q % 16) % 4
  pol == 1 || (pol == 0 && decide (6 ≤ cls))

/-- The frame at the head of a queue is judged, once (R332, R345); one that its LATE policy drops gives way to the
next. -/
def Chip.settleHead (q : Nat) : Nat → Chip → Chip
  | 0, c => c
  | fuel + 1, c =>
    match c.queue q with
    | [] => c
    | id :: rest =>
      match c.frame id with
      | none => Chip.settleHead q fuel (c.setQueue q rest)
      | some f =>
        if f.judged then c
        else
          let cls := c.fld F.boom_Q_CFG_CLASS q
          let p := c.svcPort (q / 4)
          let f := { f with judged := true, cls := cls }
          let late : Bool := match f.launch with
            | some l => decide (halfDist 36 l (launchForm c.now) < 0) && decide (p < 64)
            | none => false
          if !late then c.putFrame id f
          else if c.lateSends q cls then (c.putFrame id { f with launch := none }).flumeCnt p 6
          else Chip.settleHead q fuel (((c.dropFrame id St.LATE).flumeCnt p 5).setQueue q rest)

/-- The head of a queue leaves it and the next frame becomes head. -/
def Chip.popQueue (q : Nat) (c : Chip) : Chip :=
  let rest := (c.queue q).drop 1
  Chip.settleHead q (rest.length + 1) (c.setQueue q rest)

/-- A frame taken out of its queue wherever it stands. -/
def Chip.unqueue (id q : Nat) (c : Chip) : Chip :=
  let l := (c.queue q).filter (· != id)
  if l.length = (c.queue q).length then c else Chip.settleHead q (l.length + 1) (c.setQueue q l)

/-- Stages 5 and 6: the frame is stored and enqueued, or dropped (R326, R344). -/
def Chip.enqueue (id : Nat) (c : Chip) : Chip :=
  match c.frame id with
  | none => c
  | some f =>
    let f := { f with stored := true }
    let p := c.svcPort (f.q / 4)
    if c.fld F.flume_BUFFREE_CELLS < f.cells then (c.dropFrame id St.QUOTA).flumeCnt f.src 2
    else if c.fld F.boom_Q_CFG_LIMIT f.q < c.fld F.boom_Q_STAT_OCC f.q + ceilDiv (c.lenAt p f) 256 then
      (c.dropFrame id St.QUOTA).bump F.boom_Q_STAT_TAILDROPS 1 f.q
    else
      let c := ((c.putFrame id f).subFrom F.flume_BUFFREE_CELLS f.cells).addTo F.boom_Q_STAT_OCC f.cells f.q
      let l := c.queue f.q ++ [id]
      Chip.settleHead f.q l.length (c.setQueue f.q l)

/-- A new frame. -/
def Chip.newFrame (f : FrameSt) (c : Chip) : Nat × Chip :=
  (c.flume.next, (c.putFrame c.flume.next f).modFlume (fun x => { x with next := x.next + 1 }))

/-- The ingress of an internal port has no room for a frame of `len` octets: the packet buffer lacks its cells (R258, R326, R439).
[DEDUCED, log entry 57: unsafe] -/
def Chip.fullFor (c : Chip) (len : Nat) : Bool :=
  !c.fwdRec && decide (c.fld F.flume_BUFFREE_CELLS < ceilDiv len 256)

/-- A frame of a device source enters by an internal port (R312): no parsing, no policing, no stamp record.
[DEDUCED, log entry 123: unsafe] -/
def Chip.internalFrame (src : Nat) (data : List Octet) (svc queue : Nat) (launch : Option Nat)
    (host : Option (Nat × Nat)) (c : Chip) : Chip :=
  let f : FrameSt := {
    src := src, data := data, inCount := c.count, inTime := c.now,
    q := 4 * svc + queue % 4, dest := 2 ^ 35, launch := launch, host := host }
  if c.fwdRec then (c.iff (src == 65) (Chip.bump F.flume_GCNT_COUNT 1 4)).hostEnd f St.DISCARDED
  else if !c.flag F.boom_SVC_CFG_EN svc then (c.bump F.flume_GCNT_COUNT 1 3).hostEnd f St.NOTREADY
  else
    let x := c.newFrame f
    x.2.enqueue x.1

/-! ## Ending transmissions -/

/-- A port's transmit side. -/
def Chip.portTx (c : Chip) (p : Nat) : PortTx := Cells.get {} p c.flume.tx

/-- A port's transmit side changed. -/
def Chip.modTx (p : Nat) (f : PortTx → PortTx) (c : Chip) : Chip :=
  c.modFlume (fun x => { x with tx := Cells.modify {} p f x.tx })

/-- Octets of the frame in transmission that have been sent by now, at the line rate, after 8 octets of preamble. -/
def Chip.sentNow (c : Chip) (p : Nat) (t : TxSt) (f : FrameSt) : Nat :=
  min f.have (t.before + ((c.count - t.start) * c.portRate p / 10 - 8))

/-- A frame in transmission on port p, or preempted there, is ended after `n` octets with an inverted FCS, the complement of
the one that those octets take (R371). -/
def Chip.endBad (p id n : Nat) (c : Chip) : Chip :=
  match c.frame id with
  | none => c
  | some f =>
    let body := (applyFix f.data f.fix).take n
    let c := (c.countTxBad p (body.length + 4)).emit (.frameOut p (body ++ fcsOctets (0xFFFFFFFF - crc32 body)) false)
    let c := (c.freeFrame id).hostEnd f St.OK
    c.modTx p (fun t => { t with
      cur := (if (t.cur.map (·.frame)) = some id then none else t.cur),
      held := (if (t.held.map (·.1)) = some id then none else t.held) })

/-- The egress port on which a frame is in transmission or preempted. -/
def Chip.sendingAt (c : Chip) (id : Nat) : Option Nat :=
  (List.find? (fun x => (x.2.cur.map (·.frame)) == some id || (x.2.held.map (·.1)) == some id) c.flume.tx).map (·.1)

/-- Both frames of a port that its link or RECOVERY ends (R339, R366). -/
def Chip.endPortTx (p : Nat) (c : Chip) : Chip :=
  let t := c.portTx p
  let c := match t.cur with
    | some x => (match c.frame x.frame with | some f => c.endBad p x.frame (c.sentNow p x f) | none => c)
    | none => c
  match t.held with | some (id, n) => c.endBad p id n | none => c

/-- An arriving frame ends badly: discarded, or ended on egress with an inverted FCS and counted in CTBAD if its
transmission has begun (R328). -/
def Chip.arriveBad (id : Nat) (c : Chip) : Chip :=
  match c.frame id with
  | none => c
  | some f =>
    if f.begun then (match c.sendingAt id with
      | some p => (c.endBad p id f.have).flumeCnt p 4
      | none => c.freeFrame id)
    else
      let c := c.modFlume (fun x => { x with waiting := Cells.modify [] f.src (fun l => l.filter (· != id)) x.waiting })
      (c.unqueue id f.q).freeFrame id

/-- An arriving frame has run out of cells: dropped whole, or ended if its transmission has begun (R326). -/
def Chip.noCells (id : Nat) (c : Chip) : Chip :=
  match c.frame id with
  | none => c
  | some f =>
    let c := c.flumeCnt f.src 2
    if f.begun then (match c.sendingAt id with | some p => c.endBad p id f.have | none => c.freeFrame id)
    else (c.unqueue id f.q).freeFrame id

/-! ## Classifying (R314 to R323, R331) -/

/-- KEYSEL of an ingress port. -/
def Chip.keySel (c : Chip) (p : Nat) : KeySel :=
  { l2only := c.flag F.flume_PORT_KEYSEL_L2ONLY p, ssrc := c.flag F.flume_PORT_KEYSEL_SSRC p,
    src := c.flag F.flume_PORT_KEYSEL_SRC p, vlan := c.flag F.flume_PORT_KEYSEL_VLAN p,
    inport := c.flag F.flume_PORT_KEYSEL_INPORT p }

/-- The key of a frame on its ingress port (R315, R316).
[DEDUCED, log entry 89: unsafe] [DEDUCED, log entry 123: unsafe] -/
def Chip.keyOf (c : Chip) (f : FrameSt) : List Word := flowKey (c.keySel f.src) f.src c.v6Index f.data

/-- What a lookup of a frame's key gives: a key with an address that the IPv6 table does not hold matches no entry (R316).
[DEDUCED, log entry 89: unsafe] -/
def Chip.matched (c : Chip) (f : FrameSt) (a : Option (List Word)) : Option (List Word) :=
  if unknown6 (c.keySel f.src) c.v6Index f.data then none else a

/-- The action words that a port's miss action amounts to (R320).
[DEDUCED, log entry 89: unsafe] [DEDUCED, log entry 93: unsafe] -/
def Chip.missAct (c : Chip) (p : Nat) : List Word :=
  [wofNat (c.fld F.flume_PORT_MISS_ACTION p * 2 ^ 33 + c.fld F.flume_PORT_MISS_SERVICE p * 2 ^ 18 +
    c.fld F.flume_PORT_MISS_QUEUE p * 2 ^ 16 + c.fld F.flume_PORT_MISS_RING p * 2), 0, 0]

/-- A stamp record of a matched frame (R65, R319).
[DEDUCED, log entry 119: unsafe] -/
def Chip.stampFrame (f : FrameSt) (c : Chip) : Chip :=
  match ptpOf f.data with
  | some m => c.stampEvt 2 f.src false (ptpType f.data m) (ptpSeq f.data m) (ptpDomain f.data m) f.inTime
  | none =>
    let seq := match rtpAt f.data (layer3 f.data) with | some o => be16 f.data (o + 2) | none => 0
    c.stampEvt 2 f.src false 0 seq 0 f.inTime

/-- The lookup of a frame completes with its entry's action words, or with none (R319, R320). -/
def Chip.looked (id : Nat) (a : Option (List Word)) (c : Chip) : Chip :=
  match c.frame id with
  | none => c
  | some f =>
    match a with
    | some w => (c.putFrame id { f with act := some w, entry := true, missed := false }).iff (wbit (w.getD 1 0) 35)
        (Chip.stampFrame f)
    | none => c.putFrame id { f with act := some (c.missAct f.src), missed := false }

/-- A frame handed to the control cores: a PTP event frame leaves its ingress timestamp (Table 2.5). `mgmt` tells that it
came under a flow entry with action CONTROL. -/
def Chip.toControl (f : FrameSt) (mgmt : Bool) (c : Chip) : Chip :=
  let c := c.modFlume (fun x => { x with toCtl := x.toCtl ++ [⟨0, f.src, f.data, f.inTime, mgmt⟩] })
  match ptpEvent f.data with
  | some m => if f.src < 64 then
      c.stampEvt 0 f.src false (ptpType f.data m) (ptpSeq f.data m) (ptpDomain f.data m) f.inTime else c
  | none => c

/-- The port kind of an ACTION (Table 12.3). -/
def actionPort (act p : Nat) : Bool :=
  if act = 1 then decide (p < 64) else if act = 2 then p == 65 else if act = 3 then p == 64
  else if act = 4 then p == 66 else false

/-- A classified frame is policed, stored and enqueued, or dropped (R319, R331, R60, R479).
[DEDUCED, log entry 90: unsafe] [DEDUCED, log entry 123: unsafe] -/
def Chip.admitFrame (id : Nat) (c : Chip) : Chip :=
  match c.frame id with
  | none => c
  | some f =>
    let w5 := (f.act.getD []).getD 0 0
    let w6 := (f.act.getD []).getD 1 0
    let w7 := (f.act.getD []).getD 2 0
    let act := wbits w5 35 33
    let svc := wbits w5 32 18
    if c.fld F.time_TC_PORT_MODE f.src = 2 ∧ isPdelay f.data ∧ act ≠ 3 then (c.freeFrame id).toControl f false
    else if c.base = Md.TEST ∧ (act = 1 ∨ act = 2) then (c.freeFrame id).flumeCnt f.src 0
    else
      let x := if wbit w6 34 then c.police (wbits w6 33 18) f.have else (true, c)
      let c := x.2
      if !x.1 then c.freeFrame id
      else if act = 0 then (c.freeFrame id).flumeCnt f.src 0
      else if !c.flag F.boom_SVC_CFG_EN svc || !actionPort act (c.svcPort svc) then (c.freeFrame id).flumeCnt f.src 3
      else
        let launch := if wbit w6 17 then some ((f.inTime / 65536 + wbits w7 35 12) % 2 ^ 36) else none
        let dest := if act = 4 then wbits w5 4 1 else wbits w5 15 1
        (c.putFrame id { f with q := 4 * svc + wbits w5 17 16, dest := dest, launch := launch }).enqueue id

/-- A frame of another port that reaches the same policer has an earlier ingress timestamp, or the same one on a lower
port, and is still to be judged (R355).
[DEDUCED, log entry 123: unsafe] -/
def Chip.policeWaits (c : Chip) (f : FrameSt) (pol : Nat) : Bool :=
  c.flume.waiting.any (fun x => x.1 != f.src && x.2.any (fun id => match c.frame id with
    | none => false
    | some g => (match g.act with
      | none => false
      | some w => wbit (w.getD 1 0) 34 && wbits (w.getD 1 0) 33 18 == pol &&
          (decide (g.inTime < f.inTime) || (g.inTime == f.inTime && decide (g.src < f.src))))))

/-- The classifier of an ingress port goes on, in order of arrival, up to a frame whose lookup is under way or, for
a policed flow, whose length is not yet known (R322) or whose turn at the policer has not come (R355). -/
def Chip.pump (p : Nat) : Nat → Chip → Chip
  | 0, c => c
  | fuel + 1, c =>
    match Cells.get [] p c.flume.waiting with
    | [] => c
    | id :: rest =>
      let pop (c : Chip) : Chip := c.modFlume (fun x => { x with waiting := Cells.set [] p rest x.waiting })
      match c.frame id with
      | none => Chip.pump p fuel (pop c)
      | some f =>
        match f.act with
        | some w =>
          if wbit (w.getD 1 0) 34 && (!f.whole || c.policeWaits f (wbits (w.getD 1 0) 33 18)) then c else Chip.pump p fuel ((pop c).admitFrame id)
        | none =>
          if f.missed then c
          else
            let key := c.keyOf f
            match c.cached key with
            | some a => Chip.pump p fuel (((c.bump F.flume_GCNT_COUNT 1 1).touchCache key a).looked id (c.matched f a))
            | none => (c.bump F.flume_GCNT_COUNT 1 2).putFrame id { f with missed := true }

/-- Enough looks for the classifier of a port. -/
def Chip.pumpPort (p : Nat) (c : Chip) : Chip := Chip.pump p (3 * (Cells.get [] p c.flume.waiting).length + 1) c

/-- Every port that has frames waiting goes on, as often as the frames that wait can let each other on (R355). -/
def Chip.pumpEvery (c : Chip) : Chip :=
  (c.flume.waiting.flatMap (fun x => x.2)).foldl
    (fun c _ => (c.flume.waiting.map (fun x => x.1)).foldl (fun c p => c.pumpPort p) c) c

/-- The classifier of a port goes on, and then those of the ports whose frames waited for it (R322, R355). -/
def Chip.pumpAll (p : Nat) (c : Chip) : Chip := (c.pumpPort p).pumpEvery

/-- FLOW_CACHE_MISS_COMPLETE: the oldest missed lookup of a port has read DRAM and fills the cache
(R321 to R323). -/
def Chip.missComplete (p : Nat) (c : Chip) : Chip :=
  match Cells.get [] p c.flume.waiting with
  | [] => c
  | id :: rest =>
    match c.frame id with
    | none => c
    | some f =>
      if !f.missed then c
      else
        let key := c.keyOf f
        if !c.tableOk key then
          ((((c.logTable key).modFlume (fun x => { x with waiting := Cells.set [] p rest x.waiting })).freeFrame id).flumeCnt p 1).pumpAll p
        else
          let a := c.tableAct key
          ((c.touchCache key a).looked id (c.matched f a)).pumpAll p

/-! ## Receiving (R25, R367, R368, R377) -/

/-- A frame is handed to the Flume. -/
def Chip.handOn (p : Nat) (rx : RxSt) (data : List Octet) (whole : Bool) (c : Chip) : Nat × Chip :=
  let x := c.newFrame { src := p, data := data, whole := whole, inCount := rx.inCount, inTime := rx.inTime }
  let id := x.1
  let c := x.2.modFlume (fun y => { y with waiting := Cells.modify [] p (· ++ [id]) y.waiting })
  (id, c.pumpAll p)

/-- Octets are added to a frame already in the Flume (R326). -/
def Chip.growFrame (p id : Nat) (data : List Octet) (whole : Bool) (c : Chip) : Chip :=
  match c.frame id with
  | none => c
  | some f =>
    let g := { f with data := data, whole := whole }
    if c.fld F.flume_BUFFREE_CELLS < g.cells - f.cells then c.noCells id
    else
      let more := g.cells - f.cells
      let less := f.cells - g.cells
      let c := (c.put F.flume_BUFFREE_CELLS (c.fld F.flume_BUFFREE_CELLS + less - more)).put
        F.boom_Q_STAT_OCC (c.fld F.boom_Q_STAT_OCC g.q + more - less) g.q
      (c.putFrame id g).pumpAll p

/-- The octets of a frame corrected at egress are not overwritten by later arrivals: only the new ones are added. -/
def FrameSt.extend (f : FrameSt) (all : List Octet) : List Octet := f.data ++ all.drop f.data.length

/-- FRAME_RECEIVE: the next octets of the frame arriving on a physical port; `last` when the frame has ended, its
octets then ending with the FCS (R25, R57, R326, R328, R339, R367, R368). In RECOVERY a frame counts in RECDROPS once,
when it is discarded: at the 64 octets with which it would reach the Flume, or at its end. Its ingress timestamp is the count and time at
which its first octets come, without error.
[DESIGN CHOICE, log entry 138: unsafe] -/
def Chip.frameReceive (p : Nat) (octets : List Octet) (last phyErr : Bool) (c : Chip) : Chip :=
  if !c.receives p then c
  else
    let rx := (Cells.find? p c.flume.rx).getD { inCount := c.count, inTime := c.now }
    let data := rx.data ++ octets
    let setRx (r : Option RxSt) (c : Chip) : Chip := c.modFlume (fun x => { x with
      rx := (match r with | some r => Cells.insert p r x.rx | none => Cells.erase p x.rx) })
    let max := c.maxLen p
    if !last then
      let rx := { rx with data := data }
      if c.fwdRec then
        if rx.handed || decide (data.length < 64) || c.macRefuses p data then setRx (some { rx with frame := none }) c
        else (setRx (some { rx with handed := true, frame := none }) c).bump F.flume_GCNT_COUNT 1 4
      else match rx.frame with
        | some id => (match c.frame id with
          | some f => setRx (some rx) (c.growFrame p id (f.extend (data.take max)) false)
          | none => setRx (some rx) c)
        | none =>
          if rx.handed || decide (data.length < 132) || c.macRefuses p data then setRx (some rx) c
          else
            let x := c.handOn p rx (data.take max) false
            setRx (some { rx with handed := true, frame := some x.1 }) x.2
    else
      let row := c.rxRow p data phyErr
      let reaches : Bool := decide (64 ≤ data.length) && !c.macRefuses p data
      let bad : Bool := decide (row = 1 ∨ row = 3 ∨ row = 4)
      let c := setRx none (c.countRx p data phyErr)
      let body := data.take (data.length - 4)
      if c.fwdRec then c.iff (reaches && !rx.handed) (Chip.bump F.flume_GCNT_COUNT 1 4)
      else match rx.frame with
        | some id => (match c.frame id with
          | some f => if bad then (c.arriveBad id).pumpEvery
            else c.growFrame p id ((f.extend body).take body.length) true
          | none => c)
        | none => if rx.handed || !reaches || bad then c else (c.handOn p rx body true).2

/-- A reassembled preemptable frame, judged whole by Table 14.3 (R377). -/
def Chip.receiveWhole (p : Nat) (a : AsmSt) (data : List Octet) (c : Chip) : Chip :=
  let row := c.rxRow p data false
  let reaches : Bool := decide (64 ≤ data.length) && !c.macRefuses p data
  let c := c.countRx p data false
  if c.fwdRec then c.iff reaches (Chip.bump F.flume_GCNT_COUNT 1 4)
  else if row = 7 then
    (c.handOn p { inCount := a.inCount, inTime := a.inTime } (data.take (data.length - 4)) true).2
  else c

/-- FRAGMENT_RECEIVED: a start or continuation fragment with its count and octets; the final one ends with the FCS,
any other passed or failed its mCRC (R377).
[DESIGN CHOICE, log entry 138: unsafe] -/
def Chip.fragmentReceived (p : Nat) (start : Bool) (count : Nat) (octets : List Octet) (final mcrcOk : Bool)
    (c : Chip) : Chip :=
  if !c.receives p then c
  else
    let c := c.iff (!start) (Chip.stat p 18)
    let setAsm (a : Option AsmSt) (c : Chip) : Chip := c.modFlume (fun x => { x with
      asm := (match a with | some a => Cells.insert p a x.asm | none => Cells.erase p x.asm) })
    let fail (c : Chip) : Chip := (setAsm none c).stat p 19
    if !c.flag F.mac_PREEMPT_EN p then c.stat p 19
    else
      let next : Option AsmSt := match Cells.find? p c.flume.asm, start with
        | none, true => some { data := octets, inCount := c.count, inTime := c.now, count := 0 }
        | some a, false => if count % 4 = a.count then
            some { a with data := a.data ++ octets, count := (a.count + 1) % 4 } else none
        | _, _ => none
      match next with
      | none => fail c
      | some a =>
        if final then (setAsm none c).receiveWhole p a a.data
        else if mcrcOk then setAsm (some a) c else fail c

/-! ## Eligibility and selection (R329, R330, R346 to R350) -/

/-- A PTP event frame that egress port p holds (R58), those of the device's own clock too: no held frame is preempted
(R62). -/
def Chip.ptpHeld (c : Chip) (p : Nat) (f : FrameSt) : Bool :=
  decide (p < 64) && c.fld F.time_TC_PORT_MODE p != 0 && (ptpEvent f.data).isSome

/-- A head frame is sent preemptable on port p (R374). -/
def Chip.preemptable (c : Chip) (p : Nat) (f : FrameSt) : Bool :=
  c.preVerified p && c.flag F.mac_PREEMPT_EN p && (c.fld F.mac_PREEMPT_PMASK p).testBit f.cls && !c.ptpHeld p f

/-- The transmission time of a frame on port p in 2^-16 ns, rounded up (R329, R362). -/
def Chip.sendTime (c : Chip) (p : Nat) (f : FrameSt) : Nat :=
  if c.portRate p = 0 then 0 else ceilDiv (c.costAt p f * 8 * 65536) (c.portRate p)

/-- The start threshold of egress port p is met (R58, R327). -/
def Chip.cutMet (c : Chip) (p : Nat) (f : FrameSt) : Bool :=
  f.whole || f.ready ||
  (decide (p < 64) && !c.flag F.flume_PORT_CUT_STORE p && !c.adaptFull p &&
    decide (c.portRate p ≤ c.portRate f.src ∧ f.src < 64) &&
    decide (64 * c.fld F.flume_PORT_CUT_CTEFF p ≤ f.have) &&
    (!c.ptpHeld p f || decide (128 ≤ f.have)))

/-- The launch time of a head frame does not hold it (R329 condition 1). -/
def Chip.launchMet (c : Chip) (f : FrameSt) : Bool :=
  f.reached || (match f.launch with
    | none => true
    | some l => decide (halfDist 36 l (launchForm c.now) ≤ 0))

/-- A head frame is eligible on port p (R26, R329). -/
def Chip.eligible (c : Chip) (p : Nat) (f : FrameSt) : Bool :=
  if 64 ≤ p then f.whole
  else c.launchMet f && c.gateOpen p f.cls c.now &&
    (c.preemptable p f || c.fitsGate p f.cls c.now (c.sendTime p f)) && c.cutMet p f

/-- The heads of the queues on a port: queue and frame. -/
def Chip.headsOn (c : Chip) (p : Nat) : List (Nat × FrameSt) :=
  c.flume.queues.filterMap (fun x => if c.svcPort (x.1 / 4) = p then
    (match x.2 with | id :: _ => (c.frame id).map (fun f => (x.1, f)) | [] => none) else none)

/-- Heads that can never meet condition 3 are dropped (R330).
[DEDUCED, log entry 124: unsafe] -/
def Chip.dropGated (p : Nat) (c : Chip) : Chip :=
  (c.headsOn p).foldl (fun c x =>
    let f := x.2
    match c.openTime p f.cls with
    | none => c
    | some o =>
      if 0 < o ∧ o * 65536 < c.sendTime p f ∧ c.preemptable p f = false ∧ c.gatePending p = false then
        (match c.queue x.1 with
        | id :: _ => ((c.dropFrame id St.QUOTA).flumeCnt p 7).popQueue x.1
        | [] => c)
      else c) c

/-- The selectable queues of a port with their heads (R346); `express` restricts them to express classes (R348). -/
def Chip.selectable (c : Chip) (p : Nat) (express : Bool) : List (Nat × FrameSt) :=
  (c.headsOn p).filter (fun x =>
    let s := x.1 / 4
    c.eligible p x.2 && c.shaperOpen .service s && c.shaperOpen .tenant (c.svcTenant s) &&
    (!express || !c.preemptable p x.2))

/-- A list of numbers in rising order without repeats. -/
def distinct (l : List Nat) : List Nat :=
  l.foldl (fun a x => (a.filter (· < x)) ++ [x] ++ (a.filter (x < ·))) []

/-- The queue picked at a port, with the DWRR nodes of the port and of the tenant after the pick (R347, R350). -/
def Chip.pickQueue (c : Chip) (p : Nat) (l : List (Nat × FrameSt)) : Option (Nat × Nat × RoundSt × RoundSt) :=
  let tens := distinct (l.map (fun x => c.svcTenant (x.1 / 4)))
  let svcs (t : Nat) : List Nat := distinct ((l.filter (fun x => c.svcTenant (x.1 / 4) == t)).map (·.1 / 4))
  let queueOf (s : Nat) : Option (Nat × FrameSt) := l.find? (fun x => x.1 / 4 == s)
  let cost (s : Nat) : Nat := match queueOf s with | some x => c.costAt p x.2 | none => 0
  let svcHolds (s : Nat) : Bool := c.flume.queues.any (fun x => x.1 / 4 == s)
  let tenHolds (t : Nat) : Bool := c.flume.queues.any (fun x => c.svcTenant (x.1 / 4) == t)
  let inner (t : Nat) : Option Nat × RoundSt :=
    ((Cells.get {} t c.flume.tenRounds).sync (svcs t) svcHolds (fun s => c.fld F.boom_SVC_CFG_WEIGHT s)).pick
      (fun s => c.fld F.boom_SVC_CFG_WEIGHT s) cost
  let tcost (t : Nat) : Nat := match (inner t).1 with | some s => cost s | none => 0
  let outer := ((Cells.get {} p c.flume.portRounds).sync tens tenHolds (fun t => c.fld F.boom_TEN_CFG_WEIGHT t)).pick
    (fun t => c.fld F.boom_TEN_CFG_WEIGHT t) tcost
  match outer.1 with
  | none => none
  | some t =>
    match (inner t).1.bind queueOf with
    | none => none
    | some x => some (x.1, t, outer.2, (inner t).2)

/-- A frame handed on at an internal port (R26, R24). -/
def Chip.deliver (p id : Nat) (c : Chip) : Chip :=
  match c.frame id with
  | none => c
  | some f =>
    let c := c.freeFrame id
    let d : Delivered := ⟨f.dest, f.src, f.data, f.inTime, false⟩
    let c := c.hostEnd f St.OK
    if p = 64 then c.toControl f (f.entry && decide (f.src < 64))
    else if p = 65 then (if c.chanRec then c else c.modFlume (fun x => { x with toChan := x.toChan ++ [d] }))
    else c.modFlume (fun x => { x with toHost := x.toHost ++ [d] })

/-- The corrections of a PTP event frame as its transmission begins (R58 to R61), or what R63 does to one of the device's
own clock. The egress count lies within 4 ns of the selection; the MODE of the egress port decides whether the ingress
port's LINKDELAY is added (R60); SOURCE of a KIND 0x1 record is the egress port (Table 2.4).
[DESIGN CHOICE, log entry 39: safe] [DESIGN CHOICE, log entry 132: unsafe] [DEDUCED, log entry 135: unsafe] -/
def Chip.ptpEgress (p : Nat) (f : FrameSt) (c : Chip) : FrameSt × Chip :=
  match ptpEvent f.data with
  | none => (f, c)
  | some m =>
    let x := c.drawNat
    let eg := c.count + x.1 % 11 - 5
    if f.src = 64 then
      let t := c.timeAt eg
      if ptpType f.data m = 0 ∧ ptpTwoStep f.data m = false then
        let r := writeOrigin f.data m t
        ({ f with data := r.1, fix := r.2 }, x.2)
      else (f, x.2.stampEvt 1 p false (ptpType f.data m) (ptpSeq f.data m) (ptpDomain f.data m) t)
    else if c.fld F.time_TC_PORT_MODE p = 0 then (f, c)
    else if 128 < m.at_ + 34 then (f, c.bump F.time_TC_SKIP_FRAMES)
    else
      let res := (eg - f.inCount) * (c.time.lineAt c.count).rate / 65536
      let link := if c.fld F.time_TC_PORT_MODE p = 2 ∧ ptpType f.data m = 0 ∧ f.src < 64 then
        c.fld F.time_TC_PORT_LINKDELAY f.src else 0
      let r := addCorrection f.data m (res + link)
      ({ f with data := r.1, fix := r.2 }, x.2)

/-- The selected frame is handed to transmission on port p; the MAC of a port that is not UP takes it at line rate and discards
it (R347, R366). -/
def Chip.transmit (p id cost : Nat) (c : Chip) : Chip :=
  match c.frame id with
  | none => c
  | some f =>
    if 64 ≤ p then
      let rate := if p = 64 then 100 else if p = 65 then 400 else 200
      (c.deliver p id).modTx p (fun t => { t with busy := c.count + ceilDiv (cost * 10) rate })
    else if !c.linkUp p then
      (((c.stat p 40).freeFrame id).hostEnd f St.NOTREADY).modTx p (fun t => { t with
        busy := c.count + ceilDiv (cost * 10) (max 1 (c.portRate p)) })
    else
      let pre := c.preemptable p f
      let held := c.ptpHeld p f
      let x := c.ptpEgress p f
      let unseen := !f.whole && !held && c.fld F.time_TC_PORT_MODE p != 0
      (x.2.putFrame id { x.1 with begun := true, held := held, unseen := unseen }).modTx p
        (fun t => { t with cur := some { frame := id, start := c.count, pre := pre } })

/-- The octets of a preemptable frame after which its present fragment may end, from now on; none where it can only
be completed (R376). -/
def Chip.boundary (c : Chip) (p : Nat) (t : TxSt) (f : FrameSt) : Option Nat :=
  let least := t.before + (64 * (1 + c.fld F.mac_PREEMPT_ADDFRAG p) - 4)
  let b := max (c.sentNow p t f) least
  if b + 64 ≤ c.lenAt p f then some b else none

/-- The octets after which a fragment ends for a gate that closes now (R376): the last permitted boundary up to now, else the
first one after; none where the frame is completed. -/
def Chip.closingBoundary (c : Chip) (p : Nat) (t : TxSt) (f : FrameSt) : Option Nat :=
  let least := t.before + (64 * (1 + c.fld F.mac_PREEMPT_ADDFRAG p) - 4)
  let last := c.lenAt p f - 64
  if last < least then none else some (max least (min (c.sentNow p t f) last))

/-- The frame in transmission on port p is preempted, if it may be (R376): at the boundary given. -/
def Chip.preemptAt (p : Nat) (place : Chip → TxSt → FrameSt → Option Nat) (c : Chip) : Bool × Chip :=
  match (c.portTx p).cur with
  | none => (true, c)
  | some t =>
    match c.frame t.frame with
    | none => (true, c.modTx p (fun x => { x with cur := none }))
    | some f =>
      if t.pre && c.preVerified p && (c.portTx p).held.isNone then
        (match place c t f with
        | some b => (true, c.modTx p (fun x => { x with cur := none, held := some (t.frame, b) }))
        | none => (false, c))
      else (false, c)

/-- The frame in transmission on port p is preempted for an express frame, if it may be (R348, R376). -/
def Chip.preempt (p : Nat) (c : Chip) : Bool × Chip := c.preemptAt p (fun c t f => c.boundary p t f)

/-- A preempted frame resumes when no express frame is selectable and its gate is open (R376). -/
def Chip.resume (p : Nat) (c : Chip) : Chip :=
  let t := c.portTx p
  match t.held, t.cur with
  | some (id, n), none =>
    (match c.frame id with
    | none => c.modTx p (fun x => { x with held := none })
    | some f =>
      if (c.selectable p true).isEmpty && c.gateOpen p f.cls c.now then
        let t : TxSt := { frame := id, start := c.count, before := n, pre := true }
        (c.modTx p (fun x => { x with cur := some t, held := none })).stat p 38
      else c)
  | _, _ => c

/-- BOOM_SELECT: a port that can take a new frame makes one selection (R346 to R351). -/
def Chip.boomSelect (p : Nat) (c : Chip) : Chip :=
  if !c.live || c.fwdRec || decide (66 < p) || (decide (p < 64) && !c.linkUp p && decide (c.count < (c.portTx p).busy)) then c
  else
    let c := if p < 64 then (c.settleGates p).dropGated p else c
    let tx := c.portTx p
    let busy := if p < 64 then tx.cur.isSome else decide (c.count < tx.busy)
    let express := decide (p < 64) && (busy || tx.held.isSome)
    let l := if c.shaperOpen .port p && (!busy || express) then c.selectable p express else []
    match c.pickQueue p l with
    | none => if p < 64 then c.resume p else c
    | some (q, t, outer, inner) =>
      match c.queue q with
      | [] => c
      | id :: _ =>
        let x := if busy then c.preempt p else (true, c)
        if !x.1 then c
        else
          let c := x.2
          let cost := match c.frame id with | some f => c.costAt p f | none => 0
          let c := c.modFlume (fun y => { y with portRounds := Cells.set {} p outer y.portRounds,
                                                  tenRounds := Cells.set {} t inner y.tenRounds })
          let c := ((c.charge .service (q / 4) cost).charge .tenant t cost).charge .port p cost
          (c.popQueue q).transmit p id cost

/-- FRAME_TRANSMIT_END: the frame in transmission on a physical port has been sent (R344, R371, R373, R378). A PTP event
frame that was not known for one when its transmission began went uncorrected (R58).
[DEDUCED, log entry 92: unsafe] [DEDUCED, log entry 157: unsafe] -/
def Chip.transmitEnd (p : Nat) (c : Chip) : Chip :=
  match (c.portTx p).cur with
  | none => c
  | some t =>
    match c.frame t.frame with
    | none => c.modTx p (fun x => { x with cur := none })
    | some f =>
      if !f.whole then c
      else if c.maxLen p < c.lenAt p f then (c.endBad p t.frame (c.maxLen p - 4)).resume p
      else
        let c := c.iff (f.unseen && (ptpEvent f.data).isSome) (Chip.bump F.time_TC_SKIP_FRAMES)
        let data := applyFix f.data f.fix
        let body := data ++ List.replicate (60 - data.length) 0
        let c := (c.countTxOk p body (c.lenAt p f)).countClean p
        let c := c.emit (.frameOut p (body ++ fcsOctets (crc32 body)) true)
        let c := (c.freeFrame t.frame).hostEnd f St.OK
        (c.modTx p (fun x => { x with cur := none })).resume p

/-- TX_UNDERRUN: the next octet of the frame in transmission is not buffered (R372). -/
def Chip.underrun (p : Nat) (c : Chip) : Chip :=
  match (c.portTx p).cur with
  | none => c
  | some t =>
    match c.frame t.frame with
    | none => c
    | some f => if f.whole then c else (((c.stat p 37).endBad p t.frame f.have).raiseUinc p).resume p

/-- LAUNCH_TIME_REACHED: the launch time of the head of a queue has come; it stays reached (R329). -/
def Chip.launchReached (q : Nat) (c : Chip) : Chip :=
  match c.queue q with
  | [] => c
  | id :: _ =>
    match c.frame id with
    | none => c
    | some f => if f.judged && f.launch.isSome && c.launchMet f then c.putFrame id { f with reached := true } else c

/-- CUT_THROUGH_THRESHOLD: the buffered part of the head of a queue reaches CTEFF of its port (R327). -/
def Chip.cutReached (q : Nat) (c : Chip) : Chip :=
  match c.queue q with
  | [] => c
  | id :: _ =>
    match c.frame id with
    | none => c
    | some f => if c.cutMet (c.svcPort (q / 4)) f then c.putFrame id { f with ready := true } else c

/-- GATE_INTERVAL_END: the next gate states of a port apply; a preemptable frame whose gate has closed is preempted,
a preempted one whose gate has opened resumes (R329, R334, R376). -/
def Chip.gateInterval (p : Nat) (c : Chip) : Chip :=
  let c := (c.settleGates p).noteGates p
  let closed : Bool := match (c.portTx p).cur with
    | some t => (match c.frame t.frame with | some f => !c.gateOpen p f.cls c.now | none => false)
    | none => false
  if closed then (c.preemptAt p (fun c t f => c.closingBoundary p t f)).2 else c.resume p

/-! ## Links and RECOVERY -/

/-- A port leaves UP (R366, Table 14.4, R378); `event` when the transition raises LINKDOWN. A frame that was arriving
ends there as one with an error control character (row 1 of Table 14.3).
[DEDUCED, log entry 125: unsafe] -/
def Chip.leaveUp (p : Nat) (event : Bool) (c : Chip) : Chip :=
  if c.linkUp p then
    let c := ((c.endPortTx p).stopVerify p).stat p 46
    let c := match Cells.find? p c.flume.rx with
      | none => c
      | some r =>
        let c := c.countRx p r.data true
        (match r.frame with | some id => (c.arriveBad id).pumpEvery | none => c)
    (c.iff event (Chip.macEvent p 1)).modFlume (fun x => { x with rx := Cells.erase p x.rx, asm := Cells.erase p x.asm })
  else c

/-- LINK_ALIGNMENT_LOST: a lane of an UP or FAULT port loses alignment (Table 14.2). -/
def Chip.alignmentLost (p locks : Nat) (c : Chip) : Chip :=
  let st := c.fld F.mac_LINK_STATE p
  if st = 2 ∨ st = 3 then (((c.leaveUp p true).put F.mac_LINK_STATE 1 p).setLocks p locks) else c

/-- LINK_FAULT: high BER or received fault ordered sets on an UP port (Table 14.2). -/
def Chip.linkFault (p : Nat) (hiber localSets remoteSets : Bool) (c : Chip) : Chip :=
  if c.linkUp p && (hiber || localSets || remoteSets) then
    (((c.leaveUp p true).put F.mac_LINK_STATE 2 p).setFaults p hiber localSets remoteSets).macEvent p 2
  else c

/-- EN written 0 (Table 14.2). -/
def Chip.portDisable (p : Nat) (c : Chip) : Chip :=
  let c := c.leaveUp p false
  let c := (c.setLocks p 0).setFaults p false false false
  (c.put F.mac_CFG_EN 0 p).put F.mac_LINK_STATE 0 p

/-- A write of MAC.CFG (R360, R365): EN = 1 starts link acquisition, at release where the image writes it.
[DEDUCED, log entry 42: unsafe] -/
def Chip.writeMacCfg (q : Requester) (p : Nat) (w : Word) (c : Chip) : Chip :=
  let st := c.checkMacCfg p w
  if st ≠ St.OK then c.errq q F.mac_REQSTAT_LASTERR st p
  else
    let was := c.portOn p
    let set (c : Chip) : Chip := (((c.put F.mac_CFG_MODE (wbits w 34 31) p).put F.mac_CFG_MAXLEN (wbits w 30 16) p).put
      F.mac_CFG_EN (wbits w 35 35) p).refreshCut p
    let c := if wbit w 35 then (if was then c else (set c).iff c.live (Chip.acquire p))
      else if was then (c.portDisable p).refreshCut p else set c
    c.powerLanes (c.mode == Md.ECO)

/-- The Flush of the forwarding plane: every frame discarded, queues and deficits emptied, enabled shapers full
(R339, R358, R381). -/
def Chip.flushForward (c : Chip) : Chip :=
  let c := forRange 64 (fun p c => c.endPortTx p) c
  let c := c.flume.frames.foldl (fun c x => c.dropFrame x.1 St.DISCARDED) c
  let c := c.flume.queues.foldl (fun c x => c.setQueue x.1 []) c
  let c := c.modFlume (fun x => { x with
    waiting := [], queues := [], portRounds := [], tenRounds := [], toHost := [], asm := [],
    tx := [], rx := x.rx.map (fun y => (y.1, { y.2 with frame := none })) })
  let fill (k : TokKind) (i : Nat) (c : Chip) : Chip :=
    match c.bucket k i with | some (b, _) => c.setTokens k i ((b * 10000000 : Nat) : Int) | none => c
  c.flume.toks.foldl (fun c x =>
    if x.1 < 65536 then fill .port x.1 c else if x.1 < 131072 then fill .tenant (x.1 - 65536) c
    else if x.1 < 196608 then fill .service (x.1 - 131072) c else c) c

end Sys2Proof.Machine
end

