-- ==== Sys2Proof/Machine/Host.lean ====
section
/-! DEFINITION. The host link and its sixteen descriptor rings (R430 to R449): the checks of a descriptor, the four
kinds of work, completion in ring order, messages and their moderation, RECOVERY and Function Level Reset. What the
host's memory holds arrives with the commands. -/
namespace Sys2Proof.Machine

open Sys2Proof

/-! ## Ring registers (R438, Table 17.6 and after) -/

/-- A ring is enabled (R438). -/
def Chip.ringOn (c : Chip) (r : Nat) : Bool := c.flag F.hostdma_R_CFG_EN r

/-- TYPE of a ring: 1 TX, 2 RX, 3 COPY, 4 CAPTURE. -/
def Chip.ringType (c : Chip) (r : Nat) : Nat := c.fld F.hostdma_R_CFG_TYPE r

/-- The domain of a ring is recovering (R22, R439). -/
def Chip.ringRec (c : Chip) (r : Nat) : Bool := if c.flag F.hostdma_R_CFG_DOMAIN r then c.chanRec else c.fwdRec

/-- A ring may fetch: enabled, HEAD behind TAIL, its domain not recovering, and the function in D0 (R431, R438,
R439).
[DEDUCED, log entry 137: unsafe] -/
def Chip.ringFetches (c : Chip) (r : Nat) : Bool :=
  c.ringOn r && !c.ringRec r && !(c.ring r).discarded && !(c.ring r).closed && c.dev.pcieUp && !c.dev.d3hot
    && (c.ring r).next != c.fld F.hostdma_R_TAIL_TAIL r

/-- A write of R.CFG (R438): enabling sets HEAD and TAIL to 0; descriptors fetched before complete on their own.
[DEDUCED, log entry 76: unsafe] -/
def Chip.writeRingCfg (q : Requester) (r : Nat) (w : Word) (c : Chip) : Chip :=
  let was := c.ringOn r
  let ty := wbits w 34 32
  let st := St.pick [
    St.when (wbit w 35 && !was && (ty == 0 || decide (4 < ty))) St.RANGE,
    St.when (was && decide (wbits w 34 23 ≠ wbits (c.rd .hostdma_R_CFG r) 34 23)) St.BUSY]
  if st ≠ St.OK then c.errq q F.hostdma_REQSTAT_LASTERR st
  else
    let c := c.wr .hostdma_R_CFG (wput w 10 0 0) r
    if wbit w 35 && !was then
      ((c.put F.hostdma_R_HEAD_HEAD 0 r).put F.hostdma_R_TAIL_TAIL 0 r).modRing r (fun x => { x with
        next := 0, closed := false, fetched := x.fetched.map (fun d => { d with stale := true }) })
    else c

/-- A write of R.TAIL (R438): at or above SIZE ignored with RANGE. Advanced onto HEAD, the ring reads as empty.
[DEDUCED, log entry 137: unsafe] -/
def Chip.writeRingTail (q : Requester) (r : Nat) (w : Word) (c : Chip) : Chip :=
  let v := wbits w 15 0
  if c.fld F.hostdma_R_SIZE_ENTRIES r ≤ v then c.errq q F.hostdma_REQSTAT_LASTERR St.RANGE
  else (c.put F.hostdma_R_TAIL_TAIL v r).modRing r (fun x => { x with closed := decide (v = c.fld F.hostdma_R_HEAD_HEAD r) })

/-- A write of BASELO, BASEHI or SIZE: a change while EN = 1 is ignored with BUSY, a SIZE above 65,536 with RANGE. -/
def Chip.writeHostRing (q : Requester) (f : Fld) (r : Nat) (w : Word) (c : Chip) : Chip :=
  let v := wbits w f.hi f.lo
  let st := St.pick [
    St.when (decide (f.reg = .hostdma_R_SIZE) && decide (65536 < v)) St.RANGE,
    St.when (c.ringOn r && decide (v ≠ c.fld f r)) St.BUSY]
  if st ≠ St.OK then c.errq q F.hostdma_REQSTAT_LASTERR st else c.put f v r

/-- The host address of a ring's descriptor (R438). -/
def Chip.descHost (c : Chip) (r i : Nat) : Nat :=
  c.fld F.hostdma_R_BASEHI_ADDR r * 2 ^ 36 + c.fld F.hostdma_R_BASELO_ADDR r * 32 + 32 * i

/-! ## Messages (R446, R448) -/

/-- A ring's completion with IRQ = 1: its message, or one at the end of the moderation interval. -/
def Chip.ringMsg (r : Nat) (c : Chip) : Chip :=
  let us := c.fld F.hostdma_R_CFG_MODUS r
  let held := match (c.ring r).lastMsg with | some n => decide (c.count < n + us * 1250) | none => false
  if held then c.modRing r (fun x => { x with msgHeld := true })
  else (c.sendMsix (c.fld F.hostdma_R_CFG_VEC r)).modRing r (fun x => { x with lastMsg := some c.count, msgHeld := false })

/-- MSIX_MODERATION_EXPIRY: one message for the completions held in the interval. -/
def Chip.moderationEnd (r : Nat) (c : Chip) : Chip := c.iff (c.ring r).msgHeld (Chip.ringMsg r)

/-- MSIX_UNMASK: a vector's mask, or the function's, is cleared; messages pending then are sent. -/
def Chip.unmask (fn : Bool) (v : Nat) (c : Chip) : Chip :=
  let c := c.modHost (fun h => if fn then { h with funcMask := false } else { h with unmasked := h.unmasked ||| 2 ^ v })
  if c.host.funcMask || c.dev.d3hot then c
  else forRange 256 (fun i c =>
    if c.host.msixPending.testBit i && c.host.unmasked.testBit i then
      (c.modHost (fun h => { h with msixPending := h.msixPending - 2 ^ i })).emit (.msix i)
    else c) c

/-! ## Descriptors (R440, R441) -/

/-- Fields of qword 1 (Table 17.2). -/
def qLen (q1 : Nat) : Nat := nbits q1 31 0
/-- OP. -/
def qOp (q1 : Nat) : Nat := nbits q1 35 32
/-- MAP. -/
def qMap (q1 : Nat) : Nat := nbits q1 38 36
/-- IRQ. -/
def qIrq (q1 : Nat) : Bool := q1.testBit 39

/-- HADDR is not aligned for its mapping.
[DEDUCED, log entry 73: unsafe] -/
def haddrBad (map q0 : Nat) : Bool :=
  decide ((map = 0 ∧ q0 % 8 ≠ 0) ∨ ((map = 1 ∨ map = 3) ∧ q0 % 4 ≠ 0))

/-- A range of DRAM words meets the channel descriptor table (R80). -/
def Chip.inDescTable (c : Chip) (a n : Nat) : Bool :=
  let b := c.fld F.chan_DESCBASE_BASE
  decide (0 < n ∧ a < (b + 2 * c.fld F.chan_CFG_SLOTS) * 16 ∧ b * 16 < a + n)

/-- A range of DRAM words meets the flow table (R325). -/
def Chip.inFlowTable (c : Chip) (a n : Nat) : Bool :=
  let b := c.fld F.flume_FTBASE_BASE
  decide (0 < n ∧ a < (b + 2 * 2 ^ c.fld F.flume_FTSIZE_K) * 16 ∧ b * 16 < a + n)

/-- The checks of a descriptor, by the ring's type (Table 17.2); OK for one whose work is zero.
[DEDUCED, log entry 73: unsafe] -/
def Chip.descStatus (c : Chip) (ty q0 q1 q2 : Nat) : Nat :=
  let len := qLen q1
  if ty = 1 then
    let port := c.svcPort (nbits q2 50 36)
    St.pick [St.when (nbits q1 63 41 ≠ 0 ∨ nbits q2 63 53 ≠ 0) St.FORMAT,
      St.when (16384 < len ∨ nbits q1 38 32 ≠ 0 ∨ 64 < port) St.RANGE]
  else if ty = 2 then
    St.pick [St.when (nbits q1 63 40 ≠ 0) St.FORMAT, St.when (nbits q1 38 32 ≠ 0) St.RANGE]
  else if ty = 3 then
    let a := nbits q2 37 0
    St.pick [St.when (nbits q1 63 40 ≠ 0 ∨ nbits q2 63 38 ≠ 0) St.FORMAT,
      St.when (16777216 < len ∨ (qOp q1 ≠ 1 ∧ qOp q1 ≠ 2) ∨ 1 < qMap q1 ∨ haddrBad (qMap q1) q0
        ∨ c.dramBursts * 16 < a + len ∨ c.inDescTable a len ∨ c.inFlowTable a len) St.RANGE]
  else
    let nblk := nbits q1 46 44
    St.pick [St.when (nbits q1 63 49 ≠ 0 ∨ q1.testBit 40 ∨ nbits q2 63 59 ≠ 0) St.FORMAT,
      St.when (len ≠ 0 ∨ qOp q1 ≠ 3 ∨ 3 < qMap q1 ∨ haddrBad (qMap q1) q0 ∨ nblk = 0 ∨ nblk = 7
        ∨ balerS (nbits q1 43 41) = 0) St.RANGE]

/-- The ring's next descriptor is fetched.
[DEDUCED, log entry 74: safe] -/
def Chip.fetchDesc (r q0 q1 q2 : Nat) (done : Option (Nat × Option Nat × Nat)) (c : Chip) : Chip :=
  let size := max 1 (c.fld F.hostdma_R_SIZE_ENTRIES r)
  c.modRing r (fun x => { x with
    next := (x.next + 1) % size, tags := x.tags + 1
    fetched := x.fetched ++ [{ idx := x.next, tag := x.tags, q0 := q0, q1 := q1, q2 := q2, done := done }] })

/-- Outcome words of a descriptor: status, qword 2 where it is written, and the low part of qword 3. -/
def descDone (st : Nat) (count : Nat := 0) (q2 : Option Nat := none) : Option (Nat × Option Nat × Nat) :=
  some (st, q2, count)

/-- The qwords that a completion writes (R440): qword 3, and before it qword 2 but for TX and COPY. -/
def completionOctets (ty q2 st : Nat) (w2 : Option Nat) (low : Nat) : List Octet :=
  let q3 := leOctets 8 (2 ^ 63 + st * 2 ^ 57 + low)
  if ty = 1 ∨ ty = 3 then q3 else leOctets 8 (w2.getD q2) ++ q3

/-- The oldest fetched descriptor of a ring completes, if its work has ended (R440). -/
def Chip.completeOne (r : Nat) (c : Chip) : Chip :=
  match (c.ring r).fetched with
  | [] => c
  | d :: rest => match d.done with
    | none => c
    | some (st, w2, low) =>
      let ty := c.ringType r
      let at_ := c.descHost r d.idx + (if ty = 1 ∨ ty = 3 then 24 else 16)
      let c := c.emit (.hostWrite at_ (completionOctets ty d.q2 st w2 low))
      let c := c.modRing r (fun x => { x with fetched := rest })
      let size := max 1 (c.fld F.hostdma_R_SIZE_ENTRIES r)
      let c := c.iff (!d.stale) (Chip.put F.hostdma_R_HEAD_HEAD ((d.idx + 1) % size) r)
      c.iff (qIrq d.q1) (Chip.ringMsg r)

/-- Frames of a transmit ring that have ended give their descriptors their outcome (R442). -/
def Chip.settleTx (r : Nat) (c : Chip) : Chip :=
  let mine := c.flume.txDone.filter (fun x => x.1 == r)
  let c := c.modFlume (fun x => { x with txDone := x.txDone.filter (fun y => y.1 != r) })
  c.modRing r (fun x => { x with fetched := x.fetched.map (fun d =>
    match mine.find? (fun y => y.2.1 == d.tag) with
    | some y => if d.done.isSome then d
        else { d with done := descDone y.2.2 (if y.2.2 = St.OK then qLen d.q1 else 0) }
    | none => d) })

/-- DESCRIPTOR_COMPLETE: the oldest fetched descriptor completes where its work has ended. While RECOVERY has
discarded a ring's descriptors, none completes (R449). -/
def Chip.descComplete (r : Nat) (c : Chip) : Chip :=
  if (c.ring r).discarded then c else (c.settleTx r).completeOne r

/-- A host read that fails: counted, and its descriptor ends with UNCORR (R437). -/
def Chip.hostReadFails (r q0 q1 q2 : Nat) (c : Chip) : Chip :=
  (c.bump F.hostdma_CNT_COUNT 1 3).fetchDesc r q0 q1 q2 (descDone St.UNCORR)

/-- HOST_READ_TIMEOUT: the descriptor that a ring fetches next, or its data, is not answered.
[DEDUCED, log entry 74: safe] -/
def Chip.hostTimeout (r q0 q1 q2 : Nat) (c : Chip) : Chip :=
  if c.ringFetches r then (c.emit (.hostRead (c.descHost r (c.ring r).next) 32)).hostReadFails r q0 q1 q2 else c

/-- The fetch of a ring's next descriptor, with its checks (R441): a refused one, and one of no work, ends at once; any
other is worked on. A descriptor of LEN 0 passes the other checks first.
[DEDUCED, log entry 133: unsafe] -/
def Chip.withDesc (r ty q0 q1 q2 : Nat) (empty : Bool) (work : Chip → Chip) (c : Chip) : Chip :=
  if !c.ringFetches r || c.ringType r != ty then c
  else
    let c := c.emit (.hostRead (c.descHost r (c.ring r).next) 32)
    let st := c.descStatus ty q0 q1 q2
    if st ≠ St.OK then c.fetchDesc r q0 q1 q2 (descDone st)
    else if empty then c.fetchDesc r q0 q1 q2 (descDone St.OK)
    else work c

/-- RING_TX: a frame read from host memory enters the Flume from port 66 (R442), where its ingress has room (R439).
[DEDUCED, log entry 74: safe] -/
def Chip.ringTx (r q0 q1 q2 : Nat) (octets : List Octet) (c : Chip) : Chip :=
  let len := qLen q1
  if c.fullFor len && c.descStatus 1 q0 q1 q2 == St.OK then c
  else c.withDesc r 1 q0 q1 q2 (len == 0) (fun c =>
    let c := c.emit (.hostRead q0 len)
    if octets.length < len then c.hostReadFails r q0 q1 q2
    else
      let i := (c.ring r).tags
      let launch := if q1.testBit 40 then some (nbits q2 35 0) else none
      (c.fetchDesc r q0 q1 q2 none).internalFrame 66 (octets.take len) (nbits q2 50 36) (nbits q2 52 51) launch
        (some (r, i)))

/-- The first usable descriptor of a receive ring among those it fetches: refused and empty ones end at once.
[DEDUCED, log entry 75: unsafe] -/
def Chip.fetchRx (r : Nat) : List (Nat × Nat) → Chip → Option (Nat × Nat) × Chip
  | [], c => (none, c)
  | (q0, q1) :: rest, c =>
    if !c.ringFetches r then (none, c)
    else
      let c := c.emit (.hostRead (c.descHost r (c.ring r).next) 32)
      let st := c.descStatus 2 q0 q1 0
      if st ≠ St.OK ∨ qLen q1 = 0 then Chip.fetchRx r rest (c.fetchDesc r q0 q1 0 (descDone st 0 (some 0)))
      else (some (q0, q1), c)

/-- RING_RX_FRAME: the oldest frame selected at port 66 is written to its ring's descriptor, or dropped (R443).
[DEDUCED, log entry 75: unsafe] -/
def Chip.ringRx (descs : List (Nat × Nat)) (c : Chip) : Chip :=
  match c.flume.toHost with
  | [] => c
  | d :: rest =>
    let c := c.modFlume (fun x => { x with toHost := rest })
    let r := if 64 ≤ d.src then c.fld F.hostdma_CFG_DEFRX else d.dest % 16
    if !c.ringOn r || c.ringType r != 2 then c.bump F.hostdma_CNT_COUNT 1 2
    else
      let x := c.fetchRx r descs
      match x.1 with
      | none => x.2.bump F.hostdma_R_DROPS_FRAMES 1 r
      | some (q0, q1) =>
        let n := d.octets.length
        let c := x.2.emit (.hostWrite q0 (d.octets.take (qLen q1)))
        let w2 := b2n (decide (qLen q1 < n)) * 2 ^ 43 + d.src * 2 ^ 36 + launchForm d.inTime
        c.fetchDesc r q0 q1 0 (descDone St.OK n (some w2))

/-- Octets that `n` words take in host memory, by MAP: W64 or PACK. -/
def mapOctets (map n : Nat) : Nat := if map = 0 then 8 * n else ceilDiv n 8 * 36

/-- Words before the first burst of a range that is not answered with data. -/
def Chip.readable (c : Chip) (a n : Nat) : Nat :=
  match (List.range n).find? (fun i => !c.burstOk ((a + i) / 16)) with
  | some i => i
  | none => n

/-- RING_COPY: words between host memory and DRAM, in ascending order (R444).
[DEDUCED, log entry 74: safe] -/
def Chip.ringCopy (r q0 q1 q2 : Nat) (octets : List Octet) (c : Chip) : Chip :=
  let len := qLen q1
  let map := qMap q1
  let a := nbits q2 37 0
  c.withDesc r 3 q0 q1 q2 (len == 0) (fun c =>
    if qOp q1 = 1 then
      let n := mapOctets map len
      let c := c.emit (.hostRead q0 n)
      if octets.length < n then c.hostReadFails r q0 q1 q2
      else
        let ws := if map = 0 then w64In (octets.take n) else packIn len (octets.take n)
        (c.putWords a ws Src.HOSTDMA).fetchDesc r q0 q1 q2 (descDone St.OK len)
    else
      let n := c.readable a len
      let ws := c.words a n
      let c := c.iff (decide (n < len)) (Chip.readLog Src.HOSTDMA (a + n) 1)
      let c := c.emit (.hostWrite q0 (if map = 0 then w64Out ws else packOut ws))
      c.fetchDesc r q0 q1 q2 (descDone (if n < len then St.UNCORR else St.OK) n))

/-- A capture record's blocks decoded as a DECOMPRESS host job decodes them (R223, R445). -/
def captureJob (size blocks : Nat) (ws : List Word) : JobEnd :=
  let s := balerS size
  unpack { size := size, bound := 0, space := 6 * 64 * 64, badIn := [], badOut := [], mismatch := none } none false 0
    (groupsOf s blocks (ws.take (blocks * s))) none {}

/-- RING_CAPTURE: a capture record is read out where its Baler unit has an entry and staging free (R439); `changed` tells that its word 2 differed at the second read
(R445).
[DEDUCED, log entry 28: unsafe] [DEDUCED, log entry 158: unsafe] -/
def Chip.ringCapture (r q0 q1 q2 : Nat) (changed : Bool) (c : Chip) : Chip :=
  let size := nbits q1 43 41
  let nblk := nbits q1 46 44
  let bu := nbits q1 48 47
  let rb := recBursts nblk size
  let a := (nbits q2 33 0 + 1 + nbits q2 58 34 * rb) * 16
  let n := 4 + nblk * balerS size
  let pcm := decide (2 ≤ qMap q1)
  if (pcm && !c.flag F.baler_U_CTRL_EN bu) || decide (880 ≤ c.fld F.baler_U_OCC_SHARED bu ∨
      65536 < c.fld F.baler_U_OCC_STAGE bu + nblk * balerS size) then c
  else c.withDesc r 4 q0 q1 q2 false (fun c =>
    let c := c.readLog Src.HOSTDMA a n
    if !c.rangeOk a n then c.fetchDesc r q0 q1 q2 (descDone St.UNCORR 0 (some q2))
    else
      let ws := c.words a n
      let w1 := ws.getD 1 0
      let job := if pcm then captureJob size (min nblk (wbits w1 28 26)) (ws.drop 4) else {}
      let c := c.iff pcm (Chip.countJob bu job)
      let octets := if qMap q1 = 0 then w64Out ws else if qMap q1 = 1 then packOut ws
        else if qMap q1 = 2 then pcm24Out job.out else pcm32Out job.out
      let count := if pcm then job.out.length else n
      let st := St.pick [if changed then St.BUSY else St.OK, job.status]
      let low := b2n (wbit w1 29) * 2 ^ 56 + wbits w1 35 30 * 2 ^ 50 + count % 512 * 2 ^ 41 + (ws.getD 0 0).toNat
      (c.emit (.hostWrite q0 octets)).fetchDesc r q0 q1 q2 (descDone st low (some q2)))

/-! ## RECOVERY and reset (R431, R449) -/

/-- RECOVERY of a domain: its rings' descriptors fetched and not completed are discarded (R449). -/
def Chip.recoverRings (chan : Bool) (c : Chip) : Chip :=
  forRange 16 (fun r c =>
    if c.flag F.hostdma_R_CFG_DOMAIN r = chan ∧ !(c.ring r).fetched.isEmpty then
      c.modRing r (fun x => { x with discarded := true })
    else c) c

/-- Every discarded descriptor of a ring completes with DISCARDED and a count of 0, in ring order. -/
def Chip.completeAll (r : Nat) : Nat → Chip → Chip
  | 0, c => c
  | n + 1, c => Chip.completeAll r n (c.completeOne r)

/-- RECOVERY of a domain has completed: the DISCARDED completions of its rings (R449). -/
def Chip.resumeRings (chan : Bool) (c : Chip) : Chip :=
  forRange 16 (fun r c =>
    if c.flag F.hostdma_R_CFG_DOMAIN r = chan ∧ (c.ring r).discarded then
      let n := (c.ring r).fetched.length
      let c := c.modRing r (fun x => { x with
        discarded := false
        fetched := x.fetched.map (fun d => { d with done := descDone St.DISCARDED }) })
      c.completeAll r n
    else c) c

/-- A Function Level Reset (R431): HOSTDMA and what the PCIe link holds return to their reset values; descriptors
fetched and not completed are abandoned.
[PRESUMED, log entry 77: unsafe] [DEDUCED, log entry 127: unsafe] -/
def Chip.flr (c : Chip) : Chip :=
  let e := c.rd .hostdma_EPOCH
  let lo := RegName.addr .hostdma_CFG 0 0 / 8
  let c := { c with
    regs := c.regs.filter (fun p => decide (p.1 < lo ∨ lo + 131072 ≤ p.1))
    preqs := c.preqs.filter (fun p => decide (p.1 % 8 ≠ Requester.idx .pcie ∧ (p.1 / 8 < lo ∨ lo + 131072 ≤ p.1 / 8)))
    sqs := Cells.erase (Requester.idx .pcie) c.sqs }
  let c := c.wr .hostdma_EPOCH e
  let c := c.modHost (fun h => { h with
    held := Cells.erase (Requester.idx .pcie) h.held, highLatch := none, held2 := none, highLatch2 := none
    rings := [], unmasked := 0, msixPending := 0, funcMask := false })
  let c := c.modFlume (fun x => { x with
    txDone := [], frames := x.frames.map (fun p => (p.1, { p.2 with host := none })) })
  c.modDev (fun d => { d with d3hot := false })

/-- PERST_N falls: after release it has the effects of a Function Level Reset (R458).
[DEDUCED, log entry 72: safe] -/
def Chip.perstFall (c : Chip) : Chip :=
  let c := c.modDev (fun d => { d with perstN := false, pcieUp := false })
  c.iff c.live Chip.flr

/-- PERST_N rises: the link trains, in every mode but OFF and HELD (R458).
[DEDUCED, log entry 72: safe] -/
def Chip.perstRise (c : Chip) : Chip :=
  c.modDev (fun d => { d with perstN := true, pcieUp := decide (c.mode ≠ Md.OFF ∧ c.mode ≠ Md.HELD) })

/-- The function enters D3hot, or returns to D0 (R431).
[DEDUCED, log entry 78: unsafe] -/
def Chip.setD3 (on : Bool) (c : Chip) : Chip := c.iff c.dev.pcieUp (Chip.modDev (fun d => { d with d3hot := on }))

/-- A configuration request of the host: none while the link is down; answered with Configuration Request Retry Status in
FUSE, LOAD and TRAIN (Table 1.6); else it has its effect. -/
def Chip.config (f : Chip → Chip) (c : Chip) : Chip :=
  if !c.dev.pcieUp then c
  else if decide (c.mode = Md.FUSE ∨ c.mode = Md.LOAD ∨ c.mode = Md.TRAIN) then c.emit .configRetry
  else f c

end Sys2Proof.Machine
end

