-- ==== Sys2Proof/Machine/G722.lean ====
section
/-! DEFINITION. G.722 in mode 1 (R186, R190): the sub-band coder of ITU-T G.722, whose tables and arithmetic are not in the
spec and are taken from the standard. -/
namespace Sys2Proof.Machine

open Sys2Proof

namespace G722

/-- A value saturated to 16 bits. -/
def sat (x : Int) : Int := satN 16 x

/-- An entry of a table. -/
def tab (l : List Int) (i : Nat) : Int := l.getD i 0

/-- Decision levels of the lower sub-band quantizer. -/
def q6 : List Int := [0, 35, 72, 110, 150, 190, 233, 276, 323, 370, 422, 473, 530, 587, 650, 714,
  786, 858, 940, 1023, 1121, 1219, 1339, 1458, 1612, 1765, 1980, 2195, 2557, 2919]

/-- Output codes of the lower sub-band for a negative difference. -/
def iln (i : Nat) : Nat := if i = 1 then 63 else if i = 2 then 62 else 34 - i

/-- Output codes of the lower sub-band for a difference of 0 or above. -/
def ilp (i : Nat) : Nat := 62 - i

/-- Quantizer outputs of the lower sub-band with 4 bits. -/
def qm4 : List Int := [0, -20456, -12896, -8968, -6288, -4240, -2584, -1200,
  20456, 12896, 8968, 6288, 4240, 2584, 1200, 0]

/-- Quantizer outputs of the lower sub-band with 6 bits. -/
def qm6 : List Int := [-136, -136, -136, -136, -24808, -21904, -19008, -16704, -14984, -13512, -12280, -11192, -10232,
  -9360, -8576, -7856, -7192, -6576, -6000, -5456, -4944, -4464, -4008, -3576, -3168, -2776, -2400, -2032, -1688, -1360,
  -1040, -728, 24808, 21904, 19008, 16704, 14984, 13512, 12280, 11192, 10232, 9360, 8576, 7856, 7192, 6576, 6000, 5456,
  4944, 4464, 4008, 3576, 3168, 2776, 2400, 2032, 1688, 1360, 1040, 728, 432, 136, -432, -136]

/-- Quantizer outputs of the higher sub-band. -/
def qm2 : List Int := [-7408, -1616, 7408, 1616]

/-- Log multipliers of the lower sub-band, by its 4-bit code. -/
def wl (code : Nat) : Int :=
  tab [-60, -30, 58, 172, 334, 538, 1198, 3042] ([0, 7, 6, 5, 4, 3, 2, 1, 7, 6, 5, 4, 3, 2, 1, 0].getD code 0)

/-- Log multipliers of the higher sub-band, by its 2-bit code. -/
def wh (code : Nat) : Int := if code % 2 = 0 then 798 else -214

/-- The antilog table. -/
def ilb : List Int := [2048, 2093, 2139, 2186, 2233, 2282, 2332, 2383, 2435, 2489, 2543, 2599, 2656, 2714, 2774, 2834,
  2896, 2960, 3025, 3091, 3158, 3228, 3298, 3371, 3444, 3520, 3597, 3676, 3756, 3838, 3922, 4008]

/-- Coefficients of the quadrature mirror filters, every second one. -/
def qmf : List Int := [3, -11, 12, 32, -210, 951, 3876, -805, 362, -156, 53, -11]

/-- The scale factor of a sub-band from its log: `base` is 8 for the lower one and 10 for the higher one. -/
def scale (base nb : Int) : Int :=
  let m := tab ilb (nb / 64 % 32).toNat
  let sh := base - nb / 2048
  4 * (if sh < 0 then m * 2 ^ (-sh).toNat else m / 2 ^ sh.toNat)

/-- Two values are both negative, or neither is. -/
def alike (x y : Int) : Bool := decide (x < 0) == decide (y < 0)

/-- A value bounded to an interval. -/
def bound (lo hi x : Int) : Int := max lo (min hi x)

/-- A sub-band after the difference d and the new log of its scale factor: predictor coefficients adapted, delay lines moved
on, and the next prediction. -/
def step (base : Int) (nb d : Int) (s : G722Band) : G722Band :=
  let r0 := sat (s.s + d)
  let p0 := sat (s.sz + d)
  let w1 := sat (4 * s.a1)
  let w2 := min 32767 (if alike p0 s.p1 then -w1 else w1)
  let a2 := bound (-12288) 12288 (w2 / 128 + (if alike p0 s.p2 then 128 else -128) + s.a2 * 32512 / 32768)
  let top := sat (15360 - a2)
  let a1 := bound (-top) top (sat ((if alike p0 s.p1 then 192 else -192) + s.a1 * 32640 / 32768))
  let g : Int := if d = 0 then 0 else 128
  let b := (s.b.zip s.d).map (fun x => sat ((if alike x.2 d then g else -g) + x.1 * 32640 / 32768))
  let ds := (d :: s.d).take 6
  let sp := sat (a1 * sat (2 * r0) / 32768 + a2 * sat (2 * s.r1) / 32768)
  let sz := sat ((b.zip ds).foldl (fun t x => t + x.1 * sat (2 * x.2) / 32768) 0)
  { s := sat (sp + sz), sz := sz, r1 := r0, p1 := p0, p2 := s.p1, a1 := a1, a2 := a2, b := b, d := ds,
    nb := nb, det := scale base nb }

/-- The lower sub-band adapts to its 4-bit code. -/
def lower (code : Nat) (s : G722Band) : G722Band :=
  step 8 (bound 0 18432 (s.nb * 127 / 128 + wl code)) (s.det * tab qm4 code / 32768) s

/-- The higher sub-band adapts to its 2-bit code. -/
def higher (code : Nat) (s : G722Band) : G722Band :=
  step 10 (bound 0 22528 (s.nb * 127 / 128 + wh code)) (s.det * tab qm2 code / 32768) s

/-- The two sums of the quadrature mirror filters over the last 24 values, oldest first: over the even places, and over the
odd places with the coefficients in reverse. -/
def sums (x : List Int) : Int × Int :=
  (List.range 12).foldl (fun t i => (t.1 + tab x (2 * i) * tab qmf i, t.2 + tab x (2 * i + 1) * tab qmf (11 - i))) (0, 0)

/-- Two values enter a filter's delay line. -/
def shift (x : List Int) (a b : Int) : List Int := x.drop 2 ++ [a, b]

/-- One octet decoded: two 16-bit values. -/
def decode (o : Nat) (s : G722St) : Int × Int × G722St :=
  let low := o % 64
  let high := o / 64 % 4
  let rl := bound (-16384) 16383 (s.lo.s + s.lo.det * tab qm6 low / 32768)
  let rh := bound (-16384) 16383 (s.hi.s + s.hi.det * tab qm2 high / 32768)
  let x := shift s.x (rl + rh) (rl - rh)
  let (e, o) := sums x
  (sat (o / 2048), sat (e / 2048), { lo := lower (low / 4) s.lo, hi := higher high s.hi, x := x })

/-- The first decision level above a magnitude, from 1 to 30. -/
def level (det m : Int) : Nat :=
  ((List.range 29).find? (fun i => decide (m < tab q6 (i + 1) * det / 4096))).elim 30 (· + 1)

/-- Two 16-bit values encoded in an octet. -/
def encode (a b : Int) (s : G722St) : Nat × G722St :=
  let x := shift s.x a b
  let (odd, even) := sums x
  let el := sat ((even + odd) / 16384 - s.lo.s)
  let i := level s.lo.det (if 0 ≤ el then el else -(el + 1))
  let low := if el < 0 then iln i else ilp i
  let eh := sat ((even - odd) / 16384 - s.hi.s)
  let big := decide (564 * s.hi.det / 4096 ≤ if 0 ≤ eh then eh else -(eh + 1))
  let high := if eh < 0 then (if big then 0 else 1) else (if big then 2 else 3)
  (high * 64 + low, { lo := lower (low / 4) s.lo, hi := higher high s.hi, x := x })

/-- Octets decoded in order: 14-bit values, the 16-bit ones without their last two bits.
[PRESUMED, log entry 151: unsafe] -/
def decodeAll : List Nat → G722St → List Int × G722St
  | [], s => ([], s)
  | o :: r, s =>
    let (a, b, s) := decode o s
    let (l, s) := decodeAll r s
    (a / 4 :: b / 4 :: l, s)

/-- 14-bit values encoded in pairs.
[PRESUMED, log entry 151: unsafe] -/
def encodeAll : List Int → G722St → List Octet × G722St
  | a :: b :: r, s =>
    let (o, s) := encode (4 * a) (4 * b) s
    let (l, s) := encodeAll r s
    (BitVec.ofNat 8 o :: l, s)
  | _, s => ([], s)

end G722

end Sys2Proof.Machine
end

