-- ==== Sys2Proof/Machine/Jitter.lean ====
section
/-! DEFINITION. Jitter buffers and playout (R109 to R126, R134): received streams, the receive parameter block,
cells, the judging of arrivals, resyncs, depth, slips and concealment. -/
namespace Sys2Proof.Machine

open Sys2Proof

/-- Word `w` of a channel's descriptor in DRAM (R78). -/
def Chip.descWord (c : Chip) (ch w : Nat) : Word := c.word (c.fld F.chan_DESCBASE_BASE * 16 + 32 * ch + w)

/-- The 32 words of a channel's descriptor. -/
def Chip.desc (c : Chip) (ch : Nat) : List Word := (List.range 32).map (fun w => c.descWord ch w)

/-- Bits of a word of a descriptor. -/
def dbits (d : List Word) (w hi lo : Nat) : Nat := wbits (d.getD w 0) hi lo

/-- SOURCE of a descriptor (Table 3.1). -/
def dSource (d : List Word) : Nat := dbits d 1 27 24
/-- DECODER. -/
def dDecoder (d : List Word) : Nat := dbits d 1 23 20
/-- ENCODER. -/
def dEncoder (d : List Word) : Nat := dbits d 1 19 16
/-- A FUNC bit (Table 3.4). -/
def dFunc (d : List Word) (bit : Nat) : Bool := wbit (d.getD 1 0) bit
/-- PROCRATE in Hz. -/
def dProc (d : List Word) : Nat := rate3 (dbits d 1 29 28)
/-- Blocks per frame (Table 3.1, PERIOD). -/
def dBlocks (d : List Word) : Nat := 2 ^ dbits d 1 32 30
/-- PHASE. -/
def dPhase (d : List Word) : Nat := dbits d 0 18 16
/-- DEPTH in samples: (v + 1) x 24. -/
def dDepth (d : List Word) : Nat := (dbits d 5 34 25 + 1) * 24
/-- ADAPTIVE. -/
def dAdaptive (d : List Word) : Bool := wbit (d.getD 5 0) 35
/-- JBSIZE in bursts. -/
def dJbSize (d : List Word) : Nat := dbits d 5 24 0
/-- JBPTR, a burst address. -/
def dJbPtr (d : List Word) : Nat := dbits d 4 33 0

/-- The stream rate of a codec (Table 3.3); 0 where there is none. -/
def streamRate (codec : Nat) : Nat :=
  if codec = 3 ∨ codec = 4 then 8000 else if codec = 5 then 16000
  else if 1 ≤ codec ∧ codec ≤ 8 then 48000 else 0

/-- The RTP clock of a codec (Table 4.1). -/
def rtpClock (codec : Nat) : Nat := if codec = 3 ∨ codec = 4 ∨ codec = 5 then 8000 else 48000

/-- SPP48 of a PTIME code for a codec (Table 4.1); none where the table marks it. -/
def spp48 (codec ptime : Nat) : Option Nat :=
  if codec = 1 ∨ codec = 2 then [48, 6, 12, 16, 192][ptime]?
  else if codec = 3 ∨ codec = 4 then [960, 480, 1440, 240][ptime]?
  else if codec = 5 then [960, 480, 1440][ptime]?
  else if codec = 6 ∨ codec = 7 then [480, 120, 240, 960][ptime]?
  else if codec = 8 ∧ ptime < 15 then some (64 * (ptime + 1))
  else none

/-- MAXOCT: the payload octets of one channel at a packet time (R114). -/
def maxOct (codec spp : Nat) : Nat :=
  if codec = 1 then 2 * spp else if codec = 2 then 3 * spp
  else if codec = 3 ∨ codec = 4 then spp / 6
  else if codec = 5 then spp / 6
  else if codec = 6 ∨ codec = 7 then 1276
  else 4 + 144 * (spp / 64)

/-- PT of an RXP (Table 4.2). -/
def rxPt (x : List Word) : Nat := dbits x 0 35 29
/-- TSMODE FREE. -/
def rxFree (x : List Word) : Bool := wbit (x.getD 0 0) 28
/-- FOLLOW. -/
def rxFollow (x : List Word) : Bool := wbit (x.getD 0 0) 27
/-- SSRCCHK. -/
def rxSsrcChk (x : List Word) : Bool := wbit (x.getD 0 0) 26
/-- PTIME. -/
def rxPtime (x : List Word) : Nat := dbits x 0 25 22
/-- CHANS: the number of audio channels. -/
def rxChans (x : List Word) : Nat := dbits x 0 21 19 + 1
/-- CONCEAL. -/
def rxConceal (x : List Word) : Nat := dbits x 0 18 17
/-- LOSSTGT. -/
def rxLoss (x : List Word) : Nat := dbits x 0 16 15
/-- SSRC. -/
def rxSsrc (x : List Word) : Nat := dbits x 1 35 4
/-- RTPOFF. -/
def rxOff (x : List Word) : Nat := dbits x 2 35 4
/-- DMIN in samples. -/
def rxDmin (x : List Word) : Nat := (dbits x 3 35 26 + 1) * 24

/-- The checks of an RXP against a descriptor (R110 to R112). -/
def rxpBad (d x : List Word) : Bool :=
  (spp48 (dDecoder d) (rxPtime x)).isNone || rxConceal x == 3 ||
  decide (dbits d 5 34 25 < dbits x 3 35 26) ||
  (decide (rxChans x ≠ 1) && !(dDecoder d == 1 || dDecoder d == 2 || dDecoder d == 8))

/-- The packet time in 48 kHz samples of a channel's RXP. -/
def rxSpp (d x : List Word) : Nat := (spp48 (dDecoder d) (rxPtime x)).getD 1

/-- CELLBURSTS (R114). -/
def cellBursts (d x : List Word) : Nat := ceilDiv (8 + 8 * ceilDiv (maxOct (dDecoder d) (rxSpp d x)) 36) 16

/-- NCELLS (R114). -/
def nCells (d x : List Word) : Nat := if dJbSize d = 0 then 0 else (dJbSize d - 1) / cellBursts d x

/-- The word address of a cell. -/
def cellAddr (d x : List Word) (i : Nat) : Nat := (dJbPtr d + 1 + i * cellBursts d x) * 16

/-- 48,000 / R of a channel's stream rate: u of R121. -/
def slipUnit (d : List Word) : Nat := let r := streamRate (dDecoder d); if r = 0 then 1 else 48000 / r

/-- A number of samples rounded up to a multiple of u. -/
def upTo (u n : Nat) : Nat := ceilDiv n u * u

/-- The read position at MT t (R116): it holds after an increase inside a concealed stretch (R121). -/
def JbSt.readPos (j : JbSt) (t : Nat) : Int := (max t j.holdEnd : Nat) - (j.dcur : Int)

/-- Depth and target at activation, restart and resync (R119, R120). -/
def JbSt.startDepth (d : List Word) (j : JbSt) : JbSt :=
  let n := if dAdaptive d ∧ dSource d = 1 then rxDmin j.rxp else dDepth d
  { j with dcur := n, target := n, depth0 := n, slips := [], holdEnd := 0 }

/-- Every cell's VALID cleared: the header words of the ring's cells. -/
def Chip.clearCells (d x : List Word) (c : Chip) : Chip :=
  if dSource d ≠ 1 then c
  else forRange (nCells d x) (fun i c => c.putWord (cellAddr d x i) (wput (c.word (cellAddr d x i)) 35 35 0) Src.INGRESS) c

/-- A jitter buffer at activation or on entry into RESTARTING (R90, R111, R120, R126): cells cleared, depth, target,
reference, latched SSRC and statistics at their first values. -/
def Chip.resetJb (ch : Nat) (d : List Word) (rxp : List Word) (tmpl : List Word) (c : Chip) : Chip :=
  let j : JbSt := { rxp := rxp, rtpoff := rxOff rxp, tmpl := tmpl }
  let c := { c with jbs := Cells.insert ch (j.startDepth d) c.jbs }
  c.clearCells d rxp

/-- A flush (R111, R118): cells cleared, reference and latched SSRC cleared; depth as at activation. -/
def Chip.flushJb (ch : Nat) (d : List Word) (c : Chip) : Chip :=
  let c := c.modJb ch (fun j => { (j.startDepth d) with ref := none, ssrc := none, newRun := 0, jumpRun := 0 })
  c.clearCells d (c.jb ch).rxp

/-- An RTP packet's fields (R109). -/
structure Rtp where
  ver : Nat
  pt : Nat
  seq : Nat
  ts : Nat
  ssrc : Nat
  pay : List Octet
  /-- The header, extension and padding fit the packet. -/
  whole : Bool
  deriving DecidableEq, Repr

/-- The number of a field of octets in network order. -/
def beAt (l : List Octet) (i n : Nat) : Nat := ofBeOctets ((l.drop i).take n)

/-- The RTP header of a UDP payload (RFC 3550): CSRC entries, header extension and padding removed. -/
def parseRtp (l : List Octet) : Rtp :=
  let b0 := beAt l 0 1
  let cc := b0 % 16
  let ext := b0 / 16 % 2
  let pad := b0 / 32 % 2
  let h := 12 + 4 * cc
  let h := if ext = 1 then h + 4 + 4 * beAt l (h + 2) 2 else h
  let p := if pad = 1 then beAt l (l.length - 1) 1 else 0
  { ver := b0 / 64, pt := beAt l 1 1 % 128, seq := beAt l 2 2, ts := beAt l 4 4, ssrc := beAt l 8 4,
    pay := (l.take (l.length - p)).drop h,
    whole := decide (12 ≤ l.length ∧ h + p ≤ l.length ∧ (pad = 1 → 1 ≤ p)) }

/-- The frame duration in 48 kHz samples of an Opus configuration 16 to 31 (RFC 6716). -/
def celtDur (conf : Nat) : Nat := 120 * 2 ^ (conf % 4)

/-- The total duration of an Opus packet, none where it is malformed (R191). -/
def opusDur (p : List Octet) : Option Nat :=
  let toc := beAt p 0 1
  let code := toc % 4
  let n := if code = 0 then 1 else if code = 3 then beAt p 1 1 % 64 else 2
  if p.isEmpty ∨ toc / 8 < 16 ∨ (code = 3 ∧ (p.length < 2 ∨ n = 0)) then none else some (n * celtDur (toc / 8))

/-- The octets of one coded block of size S words. -/
def blockOcts (s : Nat) : Nat := s * 36 / 8

/-- The words of coded blocks from octets, most significant bit first (R134). -/
def octWords (n : Nat) (l : List Octet) : List Word :=
  let v := ofBeOctets l
  (List.range n).map (fun i => wofNat (v / 2 ^ ((n - 1 - i) * 36)))

/-- The octets of words, most significant bit first (R134). -/
def wordOcts (ws : List Word) : List Octet :=
  beOctets (ws.length * 36 / 8) (ws.foldl (fun a w => a * 2 ^ 36 + w.toNat) 0)

/-- The coded blocks of a Baler-audio payload, each as words. -/
def audioBlocks (pay : List Octet) : List (List Word) :=
  let s := balerS (beAt pay 1 1 / 32)
  let n := beAt pay 3 1
  (List.range n).map (fun i => octWords s ((pay.drop (4 + i * blockOcts s)).take (blockOcts s)))

/-- A coded block is a run block (Table 8.4). -/
def isRun (b : List Word) : Bool := wbits (b.getD 0 0) 35 34 == 1

/-- Positions a coded block covers (R134): REPEAT for a run block, one for any other.
[DEDUCED, log entry 156: unsafe] -/
def blockSpan (b : List Word) : Nat := if wbits (b.getD 0 0) 35 34 = 1 then wbits (b.getD 0 0) 30 15 else 1

/-- The blocks of each audio channel of a payload (R134): each takes exactly NB positions and does not begin with
a run block; none where the division fails.
[DEDUCED, log entry 156: unsafe] -/
def divideBlocks (nb : Nat) : Nat → List (List Word) → Option (List (List (List Word)))
  | 0, [] => some []
  | 0, _ :: _ => none
  | k + 1, l =>
    let rec take (acc : List (List Word)) (got : Nat) : List (List Word) → Option (List (List Word) × List (List Word))
      | [] => if got = nb then some (acc, []) else none
      | b :: r =>
        -- a run block of no positions begins no channel: it stays with the one before
        if got = nb then if isRun b ∧ blockSpan b = 0 then take (acc ++ [b]) got r else some (acc, b :: r)
        else if nb < got + blockSpan b ∨ (acc.isEmpty ∧ isRun b) then none
        else take (acc ++ [b]) (got + blockSpan b) r
    match take [] 0 l with
    | none => none
    | some (mine, rest) => (divideBlocks nb k rest).map (fun x => mine :: x)

/-- The ingress checks of a Baler-audio payload (R134), with the blocks of each channel; NB of 0 gives none. -/
def audioCheck (chans nbWant : Nat) (pay : List Octet) : Option (List (List (List Word))) :=
  let o0 := beAt pay 0 1; let o1 := beAt pay 1 1; let o2 := beAt pay 2 1
  let nb := o0 % 16
  let size := o1 / 32
  if pay.length < 4 ∨ o0 / 16 ≠ 0 ∨ balerS size = 0 ∨ o1 / 8 % 2 ≠ 0 ∨ o2 % 16 ≠ 0 ∨ o1 % 8 + 1 ≠ chans
      ∨ (nb ≠ 0 ∧ nb ≠ nbWant) ∨ pay.length ≠ 4 + beAt pay 3 1 * blockOcts (balerS size) then none
  else if nb = 0 then (if beAt pay 3 1 = 0 then some [] else none)
  else divideBlocks nb chans (audioBlocks pay)

/-- The payload length and form that R109 and Table 4.1 require. -/
def payOk (d x : List Word) (pay : List Octet) : Bool :=
  let spp := rxSpp d x
  let codec := dDecoder d
  if codec = 1 then pay.length == 2 * spp * rxChans x
  else if codec = 2 then pay.length == 3 * spp * rxChans x
  else if codec = 3 ∨ codec = 4 ∨ codec = 5 then pay.length == spp / 6
  else if codec = 6 ∨ codec = 7 then decide (1 ≤ pay.length ∧ pay.length ≤ 1276) && opusDur pay == some spp
  else (audioCheck (rxChans x) (spp / 64) pay).isSome

/-- The share of audio channel `k` of a payload, as its cell holds it (R113, R134). -/
def payShare (d x : List Word) (pay : List Octet) (k : Nat) : List Octet :=
  let codec := dDecoder d
  if rxChans x = 1 then pay
  else if codec = 8 then
    match audioCheck (rxChans x) (rxSpp d x / 64) pay with
    | some l => pay.take 4 ++ ((l.getD k []).flatMap wordOcts)
    | none => []
  else
    let w := if codec = 1 then 2 else 3
    ((groupsOf w pay.length pay).zipIdx.filter (fun p => p.2 % rxChans x == k)).flatMap (fun p => p.1)

/-- A discard recorded in JBSTAT (Table 4.5); 0 records no reason. -/
def JbSt.discard (reason : Nat) (j : JbSt) : JbSt := { j with reason := reason, discards := min 1023 (j.discards + 1) }

/-- m_s of a packet (R115), for a timestamp, near a read position. FREE takes the distance of a timestamp from the first as the
nearest of its 32 bits, so that it holds up to 2^31 ticks of the RTP clock.
[DEDUCED, log entry 147: unsafe] -/
def senderMt (d : List Word) (j : JbSt) (ts : Nat) (pos : Int) : Int :=
  let r := rtpClock (dDecoder d)
  if rxFree j.rxp then
    match j.ref with
    | none => pos
    | some (m, t0) => m + halfDist 32 ts t0 * (48000 / r : Nat)
  else
    let near := (pos * r) / 48000
    let x := near + halfDist 32 ((ts + 2 ^ 32 - j.rtpoff) % 2 ^ 32) (unsignedOf 32 near)
    x * (48000 / r : Nat)

/-- The cell index of a sender MT (R114). -/
def cellIndex (d x : List Word) (m : Int) : Nat := (m / (rxSpp d x : Nat) % (nCells d x : Nat)).toNat

/-- A cell's header (Table 4.3): VALID, TS and OCTETS. -/
def Chip.cellHead (c : Chip) (d x : List Word) (i : Nat) : Bool × Nat × Nat :=
  let a := cellAddr d x i
  (wbit (c.word a) 35, wbits (c.word a) 31 0, wbits (c.word (a + 2)) 27 16)

/-- A packet's payload stored in its cell; false where a DRAM write is answered with an error (Table 4.4, row 6). -/
def Chip.storeCell (d x : List Word) (i ts a seq : Nat) (pay : List Octet) (c : Chip) : Bool × Chip :=
  let n := 8 * ceilDiv pay.length 36
  let head := [wofNat (2 ^ 35 + ts), wofNat a, wofNat (pay.length % 4096 * 65536 + seq), 0, 0, 0, 0, 0]
  let ws := head ++ packIn n (pay ++ List.replicate (n / 8 * 36 - pay.length) 0)
  let addr := cellAddr d x i
  if c.writeOk addr ws.length then (true, c.putWords addr ws Src.INGRESS)
  else (false, c.putWord addr (wput (c.word addr) 35 35 0) Src.INGRESS)

/-- The window's statistics after a packet's transit in 1/16 samples (R120, R122). -/
def JbSt.transit (t : Int) (late : Bool) (j : JbSt) : JbSt :=
  { j with transits := (((sortInts (t :: j.transits)).reverse)).take 16, winN := j.winN + 1,
           winLate := j.winLate || late, tmin := some (match j.tmin with | none => t | some m => min m t) }

/-- The raise on a late packet (R120). -/
def JbSt.raise (d : List Word) (t : Int) (j : JbSt) : JbSt :=
  if dAdaptive d then
    let u := slipUnit d
    let need := (-((-t) / 16)).toNat + 12
    { j with target := min (dDepth d) (max (max j.target j.dcur) (upTo u need)) }
  else j

/-- The judging of a packet by Table 4.4: `m` its sender MT, `a` its ingress sub-tick. -/
def Chip.judge (ch : Nat) (d : List Word) (p : Rtp) (m : Int) (a : Nat) (pay : List Octet) (c : Chip) : Chip :=
  let j := c.jb ch
  let x := j.rxp
  let pos := j.readPos (a / 16)
  let spp := rxSpp d x
  let reach := pos + (nCells d x * spp : Nat)
  let t : Int := a - 16 * m
  if nCells d x = 0 then c.modJb ch (JbSt.discard 3)
  else if m < pos - 48000 ∨ reach + 48000 < m then
    c.modJb ch (fun j => (j.discard 7))
  else
    let c := c.modJb ch (fun j => { j with jumpRun := 0 })
    if m < pos then
      c.modJb ch (fun j => { ((j.transit t true).raise d t) with late := min (2 ^ 21 - 1) (j.late + 1) })
    else
      let c := c.modJb ch (fun j => j.transit t false)
      if reach < m + spp then c.modJb ch (JbSt.discard 2)
      else
        let i := cellIndex d x m
        let (valid, ts, _) := c.cellHead d x i
        if valid ∧ ts = p.ts then c.modJb ch (JbSt.discard 1)
        else if valid then c.modJb ch (JbSt.discard 3)
        else
          let (ok, c) := c.storeCell d x i p.ts (a % 2 ^ 36) p.seq pay
          if ok then c else c.modJb ch (JbSt.discard 9)

/-- An out-of-window packet counted toward a timestamp jump (R118): the run after it. Timestamps advance by SPP in units of the
RTP clock, which for G.722 is 8 kHz.
[DEDUCED, log entry 146: unsafe] -/
def JbSt.jump (d : List Word) (p : Rtp) (j : JbSt) : JbSt :=
  let step := rxSpp d j.rxp * rtpClock (dDecoder d) / 48000
  let goes := j.jumpRun ≠ 0 ∧ p.seq = (j.jumpSeq + 1) % 65536 ∧ p.ts = (j.jumpTs + step) % 2 ^ 32
  { j with jumpRun := if goes then j.jumpRun + 1 else 1, jumpSeq := p.seq, jumpTs := p.ts }

/-- RESYNCS + 1. -/
def JbSt.resync (j : JbSt) : JbSt := { j with resyncs := min 15 (j.resyncs + 1) }

/-- The reference of FREE mode set on a packet (R115). -/
def JbSt.setRef (d : List Word) (ts a : Nat) (j : JbSt) : JbSt :=
  { j with ref := some ((a / 16 : Nat) - (rxSpp d j.rxp : Int), ts), moves := [] }

/-- The flush of a resync: cells cleared, a hold of the read position ended, and an adaptive depth starts again at DMIN
(R118, R120); a fixed depth goes on to its target (R119). -/
def Chip.resyncFlush (ch : Nat) (d : List Word) (c : Chip) : Chip :=
  let now := c.mt
  let c := c.modJb ch (fun j =>
    let j := { j.resync with jumpRun := 0, holdEnd := 0, slips := j.slips.map (fun s => { s with hold := min s.hold now }) }
    if dAdaptive d then
      let n := rxDmin j.rxp
      { j with dcur := n, target := n, slips := j.slips ++ [{ mt := now, depth := n, kind := 0 }] }
    else j)
  c.clearCells d (c.jb ch).rxp

/-- The fourth out-of-window packet of a jump (R118). -/
def Chip.takeJump (ch : Nat) (d : List Word) (p : Rtp) (a : Nat) (pay : List Octet) (c : Chip) : Chip :=
  let j := c.jb ch
  if rxFree j.rxp then
    let c := (c.resyncFlush ch d).modJb ch (JbSt.setRef d p.ts a)
    c.judge ch d p ((a / 16 : Nat) - (rxSpp d j.rxp : Int)) a pay
  else if rxFollow j.rxp then
    let c := c.resyncFlush ch d
    let r := rtpClock (dDecoder d)
    let unit := 48000 / r
    -- the least multiple of 48,000 / R at or above a / 16 - D_cur
    let m : Int := -((-((a : Int) - 16 * ((c.jb ch).dcur : Int))) / (16 * unit : Nat)) * (unit : Nat)
    let off := unsignedOf 32 ((p.ts : Int) - m / (unit : Nat))
    (c.modJb ch (fun j => { j with rtpoff := off })).judge ch d p m a pay
  else c.modJb ch (JbSt.discard 7)

/-- A packet of the latched or accepted SSRC, judged, with timestamp jumps recognised (R115 to R118).
[DEDUCED, log entry 121: unsafe] -/
def Chip.judgeJump (ch : Nat) (d : List Word) (p : Rtp) (a : Nat) (pay : List Octet) (c : Chip) : Chip :=
  let j := c.jb ch
  if nCells d j.rxp = 0 then c.modJb ch (JbSt.discard 3)
  else
  let c := c.iff (rxFree j.rxp && j.ref.isNone) (Chip.modJb ch (JbSt.setRef d p.ts a))
  let j := c.jb ch
  let pos := j.readPos (a / 16)
  let m := senderMt d j p.ts pos
  let reach := pos + (nCells d j.rxp * rxSpp d j.rxp : Nat)
  if m < pos - 48000 ∨ reach + 48000 < m then
    let c := c.modJb ch (JbSt.jump d p)
    if (c.jb ch).jumpRun = 4 then
      if rxFree j.rxp ∨ rxFollow j.rxp then c.takeJump ch d p a pay
      else c.modJb ch (fun j => { (j.discard 7) with jumpRun := 3 })
    else c.modJb ch (JbSt.discard 7)
  else c.judge ch d p m a pay

/-- A packet's receive statistics for the report block (RFC 3550, R135): extended sequence, count, jitter in 1/16.
[PRESUMED, log entry 18: unsafe] -/
def JbSt.rtcp (d : List Word) (p : Rtp) (a : Nat) (j : JbSt) : JbSt :=
  let r := rtpClock (dDecoder d)
  let arr : Int := (a * r / 768000 : Nat)
  let tr := halfDist 32 (unsignedOf 32 arr) p.ts
  let ext := match j.rxBase with | none => p.seq | some _ => extendHalf 16 p.seq j.rxHighest
  let jit := match j.rxLastTransit with
    | none => j.rxJitter
    | some l => ((j.rxJitter : Int) + ((tr - l).natAbs : Int) - ((j.rxJitter : Int) + 8) / 16).toNat
  { j with rxBase := some (j.rxBase.getD p.seq), rxHighest := max j.rxHighest ext, rxCount := j.rxCount + 1,
           rxJitter := jit, rxLastTransit := some tr }

/-- The receive statistics of the report block start anew: they are those of one source (R135, RFC 3550). -/
def JbSt.freshRtcp (j : JbSt) : JbSt :=
  { j with rxHighest := 0, rxBase := none, rxCount := 0, rxJitter := 0, rxLastTransit := none, rxPriorExp := 0, rxPriorCount := 0 }

/-- The SSRC checks of R118, for base channel `ch`: whether the packet goes on.
[DEDUCED, log entry 121: unsafe] -/
def Chip.checkSsrc (ch : Nat) (d : List Word) (p : Rtp) (a : Nat) (c : Chip) : Bool × Chip :=
  let j := c.jb ch
  if rxSsrcChk j.rxp then
    if p.ssrc = rxSsrc j.rxp then (true, c) else (false, c.modJb ch (JbSt.discard 5))
  else match j.ssrc with
    | none => (true, c.modJb ch (fun j => { j with ssrc := some p.ssrc, newRun := 0 }))
    | some s =>
      if p.ssrc = s then (true, c.modJb ch (fun j => { j with newRun := 0 }))
      else
        let run := if j.newRun ≠ 0 ∧ j.newSsrc = p.ssrc then j.newRun + 1 else 1
        if run = 4 then
          let c := (c.resyncFlush ch d).modJb ch (fun j => { j.freshRtcp with ssrc := some p.ssrc, newRun := 0 })
          (true, c.iff (rxFree j.rxp) (Chip.modJb ch (JbSt.setRef d p.ts a)))
        else (false, c.modJb ch (fun j => { (j.discard 5) with newSsrc := p.ssrc, newRun := run }))

/-- A channel takes packets: PENDING, ACTIVE or RESTARTING, with SOURCE 0x1 (R27). -/
def Chip.takesPackets (c : Chip) (ch : Nat) (d : List Word) : Bool :=
  match Cells.find? ch c.chans with
  | none => false
  | some s => dSource d == 1 && s.life ≠ 4

/-- The share of audio channel k of a stream whose base is `ch` (R113). -/
def Chip.fanout (ch k : Nat) (d : List Word) (p : Rtp) (a : Nat) (pay : List Octet) (c : Chip) : Chip :=
  let n := ch + k
  let dn := c.desc n
  if c.fld F.chan_CFG_SLOTS ≤ n ∨ ¬ c.takesPackets n dn ∨ dDecoder dn ≠ dDecoder d then
    c.modJb ch (JbSt.discard 8)
  else c.judgeJump n dn p a pay

/-- A packet terminated to a channel (R27, R109, R113, R116 to R118, R134): `rtp` is the UDP payload and `a` the
ingress timestamp in sub-ticks. -/
def Chip.ingressRtp (ch : Nat) (rtp : List Octet) (a : Nat) (c : Chip) : Chip :=
  let d := c.desc ch
  if c.chanRec then c
  else if ¬ c.takesPackets ch d then c.bump F.chan_INGDISC_FRAMES
  else
    let p := parseRtp rtp
    let x := (c.jb ch).rxp
    if p.ver ≠ 2 ∨ ¬ p.whole then c.modJb ch (JbSt.discard 6)
    else if p.pt ≠ rxPt x then c.modJb ch (JbSt.discard 4)
    else if ¬ payOk d x p.pay then c.modJb ch (JbSt.discard 6)
    else
      let (go, c) := c.checkSsrc ch d p a
      if ¬ go then c
      else
        let c := c.modJb ch (JbSt.rtcp d p a)
        if dDecoder d = 8 ∧ beAt p.pay 0 1 % 16 = 0 then c
        else
          let c := c.judgeJump ch d p a (payShare d x p.pay 0)
          (List.range (rxChans x - 1)).foldl (fun c k => c.fanout ch (k + 1) d p a (payShare d x p.pay (k + 1))) c

/-- A sample at sender position m is held by an unread cell: the cell's index and the packet's m_s. A packet stored before
the FREE reference moved stands at the index of its m_s of then (R114, R122). -/
def Chip.cellOf (c : Chip) (ch : Nat) (d : List Word) (m : Int) : Option (Nat × Int) :=
  let j := c.jb ch
  let spp := rxSpp d j.rxp
  if nCells d j.rxp = 0 then none
  else
    let look (q : Int) : Option (Nat × Int) := (0 :: j.moves).findSome? (fun δ =>
      let i := cellIndex d j.rxp (q - δ)
      let (valid, ts, _) := c.cellHead d j.rxp i
      let ms := senderMt d j ts q
      if valid ∧ ms ≤ m ∧ m < ms + spp then some (i, ms) else none)
    (look m).or (look (m - (spp - 1 : Nat)))

/-- The read position lies in a concealed stretch. -/
def Chip.concealedAt (c : Chip) (ch : Nat) (d : List Word) (t : Nat) : Bool :=
  decide (t < (c.jb ch).holdEnd) || (c.cellOf ch d ((c.jb ch).readPos t)).isNone

/-- One slip at block boundary `b` toward the target (R121).
[DEDUCED, log entry 109: unsafe] -/
def Chip.slip (ch b : Nat) (c : Chip) : Chip :=
  let d := c.desc ch
  let j := c.jb ch
  let u := slipUnit d
  if dSource d ≠ 1 ∨ j.target = j.dcur then c
  else if j.dcur < j.target then
    if c.concealedAt ch d b then
      let up := j.target - j.dcur
      let till := max b j.holdEnd + up
      c.modJb ch (fun j => { j with
        dcur := j.target
        holdEnd := till
        slips := j.slips ++ [{ mt := b, depth := j.target, kind := 3, hold := till }] })
    else c.modJb ch (fun j => { j with
        dcur := j.dcur + u
        slips := j.slips ++ [{ mt := b, depth := j.dcur + u, kind := 1 }] })
  else c.modJb ch (fun j => { j with
        dcur := j.dcur - u
        slips := j.slips ++ [{ mt := b, depth := j.dcur - u, kind := 2 }] })

/-- L of LOSSTGT applied to N packets: floor(L x N) (Table 4.2). -/
def lossShare (code n : Nat) : Nat :=
  if code = 0 then n / 1000 else if code = 1 then n / 10000 else if code = 2 then n / 100000 else 0

/-- A window end of R120 and R122 for one channel. -/
def Chip.windowEnd (ch : Nat) (c : Chip) : Chip :=
  let d := c.desc ch
  let j := c.jb ch
  let u := slipUnit d
  if dSource d ≠ 1 then c
  else
    let c := c.iff (dAdaptive d && decide (j.winN ≠ 0) && !j.winLate) (Chip.modJb ch (fun j =>
      let k := min 15 (lossShare (rxLoss j.rxp) j.winN)
      let q := j.transits.getD k 0
      let need := upTo u (max (rxDmin j.rxp) ((-((-q) / 16)).toNat + 12))
      if need < j.target then { j with target := upTo u (j.target - max 1 ((j.target - need) / 2)) } else j))
    let c := c.iff (rxFree j.rxp && decide (j.winN ≠ 0)) (Chip.modJb ch (fun j =>
      match j.tmin, j.ref with
      | some t, some (m, ts) =>
        let δ := max (-12) (min 12 (t / 16 - (rxSpp d j.rxp : Int)))
        let δ := (δ.tdiv (u : Int)) * (u : Int)
        let n := nCells d j.rxp * rxSpp d j.rxp / 48000 + 3
        { j with ref := some (m + δ, ts), target := (j.target + δ).toNat, moves := (δ :: j.moves.map (· + δ)).take n }
      | _, _ => j))
    c.modJb ch (fun j => { j with transits := [], winN := 0, winLate := false, tmin := none })

/-- JBSTAT, descriptor words 30 and 31 (Table 4.5). -/
def jbStat (j : JbSt) : Word × Word :=
  (wofNat (j.dcur % 2 ^ 15 * 2 ^ 21 + j.late),
   wofNat (min 16383 (j.concealed / 48) * 2 ^ 22 + j.reason * 2 ^ 18 + j.resyncs * 2 ^ 14 + j.discards * 16 + j.txdrops))

end Sys2Proof.Machine
end

