-- ==== Sys2Proof/Machine/Codec.lean ====
section
/-! DEFINITION. Codecs (R183 to R193), levels, and playout: the samples that a frame plays out of its jitter
buffer or local ring, slips and concealment included (R121, R123, R124). -/
namespace Sys2Proof.Machine

open Sys2Proof

/-- A G.711 A-law octet as a 16-bit linear value (R189).
[PRESUMED, log entry 17: unsafe] -/
def alawExpand (o : Nat) : Int :=
  let a := o ^^^ 0x55
  let m := a % 16 * 16
  let seg := a / 16 % 8
  let v := if seg = 0 then m + 8 else (m + 0x108) * 2 ^ (seg - 1)
  if a.testBit 7 then (v : Int) else -(v : Int)

/-- A G.711 mu-law octet as a 16-bit linear value (R189).
[PRESUMED, log entry 17: unsafe] -/
def ulawExpand (o : Nat) : Int :=
  let u := 255 - o % 256
  let v := (u % 16 * 8 + 0x84) * 2 ^ (u / 16 % 8) - 0x84
  if u.testBit 7 then -(v : Int) else (v : Int)

/-- The number of the segment whose end is first at or above a value. -/
def segOf (ends : List Nat) (v : Nat) : Nat := (ends.findIdx (fun e => decide (v ≤ e)))

/-- A 16-bit linear value compressed by G.711 A-law (R186, R189).
[PRESUMED, log entry 17: unsafe] -/
def alawCompress (l : Int) : Nat :=
  let p := l / 8
  let m := if 0 ≤ p then p.toNat else (-p - 1).toNat
  let seg := segOf [0x1F, 0x3F, 0x7F, 0xFF, 0x1FF, 0x3FF, 0x7FF, 0xFFF] m
  let v := seg * 16 + (if seg < 2 then m / 2 % 16 else m / 2 ^ seg % 16)
  v ^^^ (if 0 ≤ p then 0xD5 else 0x55)

/-- A 16-bit linear value compressed by G.711 mu-law (R186, R189).
[PRESUMED, log entry 17: unsafe] -/
def ulawCompress (l : Int) : Nat :=
  let m := min 8159 (l.natAbs / 4) + 33
  let seg := segOf [0x3F, 0x7F, 0xFF, 0x1FF, 0x3FF, 0x7FF, 0xFFF, 0x1FFF] m
  let v := if 8 ≤ seg then 0x7F else seg * 16 + m / 2 ^ (seg + 1) % 16
  v ^^^ (if 0 ≤ l then 0xFF else 0x7F)

/-- A sample rounded to `bits` bits below full scale and saturated (Table 7.2). -/
def toWidth (bits : Nat) (x : Int) : Int := satN bits (roundShift (33 - bits) x)

/-- Samples encoded with a codec whose coding is exact: PCM L16, L24 and G.711 (Table 7.2). -/
def encodeExact (codec : Nat) (xs : List Int) : List Octet :=
  xs.flatMap (fun x =>
    if codec = 1 then beOctets 2 (unsignedOf 16 (toWidth 16 x))
    else if codec = 2 then beOctets 3 (unsignedOf 24 (toWidth 24 x))
    else [BitVec.ofNat 8 (if codec = 3 then alawCompress (toWidth 16 x) else ulawCompress (toWidth 16 x))])

/-- Octets decoded with a codec whose decoding is exact (Table 7.2). -/
def decodeExact (codec : Nat) (l : List Octet) : List Int :=
  if codec = 1 then (groupsOf 2 l.length l).map (fun g => signed 16 (ofBeOctets g) * 2 ^ 17)
  else if codec = 2 then (groupsOf 3 l.length l).map (fun g => signed 24 (ofBeOctets g) * 2 ^ 9)
  else l.map (fun o => (if codec = 3 then alawExpand o.toNat else ulawExpand o.toNat) * 2 ^ 17)

/-- The samples of one channel's Baler-audio blocks (R193): a block that does not decode OK, or not to 64 words,
leaves its positions absent. Block `bad`, if any, ends with UNCORR.
[DEDUCED, log entry 156: unsafe] -/
def decodeAudio (size : Nat) : Nat → Option (List Word) → List (List Word) → List (Option Int)
  | _, _, [] => []
  | bad, prev, b :: r =>
    let gone := List.replicate (64 * blockSpan b) none ++ decodeAudio size (bad - 1) none r
    if bad = 1 then gone
    else match decodeBlock size b, prev with
    | .words ws _, _ =>
      if ws.length = 64 then ws.map (fun w => some (sval w)) ++ decodeAudio size (bad - 1) (some ws) r else gone
    | .run k, some ws => (List.replicate k (ws.map (fun w => some (sval w)))).flatten ++ decodeAudio size (bad - 1) (some ws) r
    | .run _, none => gone
    | .format, _ => gone

/-- EGRESS.BU of a descriptor (Table 4.6). -/
def dBu (d : List Word) : Nat := dbits d 20 4 3

/-- The receive signal of an Opus packet (R191): DECODER 0x6 takes a mono packet, or (L + R) / 2 of a stereo one; DECODER 0x7
takes L, R or (L + R) / 2 by DOWNMIX, L = R in a mono packet. -/
def opusMix (d : List Word) (stereo : Bool) (l r : Int) : Int :=
  if !stereo then l
  else
    let mix := if dDecoder d = 7 then dbits d 15 10 9 else 0
    if mix = 1 then l else if mix = 2 then r else sat36 (roundDiv (l + r) 2)

/-- A packet of a cell decoded: its samples at the stream rate, absent ones as none (R186, R190, R191, R193). What the Opus
decoder gives for L and R is free, and so is a block of Baler-audio whose job ends with UNCORR. `reset` says that a concealed stretch goes before it (R123).
[DESIGN CHOICE, log entry 19: safe] [DESIGN CHOICE, log entry 31: safe] [PRESUMED, log entry 151: unsafe] -/
def Chip.decodeCell (ch : Nat) (d : List Word) (i : Nat) (reset : Bool) (c : Chip) : List (Option Int) × Chip :=
  let x := (c.jb ch).rxp
  let a := cellAddr d x i
  let (_, _, n) := c.cellHead d x i
  let ws := c.words (a + 8) (8 * ceilDiv n 36)
  let spp := rxSpp d x * streamRate (dDecoder d) / 48000
  if ¬ c.rangeOk (a + 8) ws.length then (List.replicate spp none, c.readLog Src.CORES (a + 8) ws.length)
  else
    let pay := (packOut ws).take n
    let codec := dDecoder d
    if codec = 5 then
      let (xs, s) := G722.decodeAll (pay.map (·.toNat)) (if reset then {} else (c.jb ch).dec722)
      (xs.map (fun v => some (v * 2 ^ 19)), c.modJb ch (fun j => { j with dec722 := s }))
    else if codec = 6 ∨ codec = 7 then
      let stereo := beAt pay 0 1 / 4 % 2 == 1
      let (l, c) := c.drawSamples spp
      let (r, c) := if stereo then c.drawSamples spp else (l, c)
      ((l.zip r).map (fun x => some (opusMix d stereo x.1 x.2)), c)
    else if codec = 8 then
      let u := dBu d
      let blocks := (groupsOf (blockOcts (balerS (beAt pay 1 1 / 32))) pay.length (pay.drop 4)).map
        (fun g => octWords (balerS (beAt pay 1 1 / 32)) g)
      let (k, c) := c.drawNat
      let (n, c) := c.drawNat
      let bad := n % (blocks.length + 1)
      let xs := if c.flag F.baler_U_CTRL_EN u then decodeAudio (beAt pay 1 1 / 32) bad none blocks
        else List.replicate spp none
      let c := c.iff (c.flag F.baler_U_CTRL_EN u) (fun c =>
        (c.bump F.baler_U_JOBS_COUNT (k + 1) u).iff (decide (bad ≠ 0)) (Chip.bump F.baler_UNCORR_JOBS))
      let c := c.iff (xs.any (·.isNone)) (Chip.modJb ch (fun j => { j with reason := 6 }))
      (xs, c)
    else ((decodeExact codec pay).map some, c)

/-- What playout holds of the packet last decoded: its cell and TS, and its samples; the cells it read, by index and m_s; and
whether the sample before is absent. -/
structure Reader where
  cell : Option (Nat × Nat) := none
  xs : List (Option Int) := []
  seen : List (Nat × Int) := []
  gap : Bool := false
  deriving DecidableEq, Repr

/-- The stream sample at sender position m (R116): none where its packet is absent. -/
def Chip.readAt (ch : Nat) (d : List Word) (m : Int) (r : Reader) (c : Chip) : Option Int × Reader × Chip :=
  match c.cellOf ch d m with
  | none => (none, { r with gap := true }, c)
  | some (i, ms) =>
    let ts := (c.cellHead d (c.jb ch).rxp i).2.1
    let r := if r.seen.any (·.1 == i) then r else { r with seen := (i, ms) :: r.seen }
    let (r, c) := if r.cell = some (i, ts) then (r, c)
      else
        let (xs, c) := c.decodeCell ch d i r.gap
        ({ r with cell := some (i, ts), xs := xs }, c.modJb ch (fun j => { j with packet := some (i, ts, xs) }))
    let x := r.xs.getD ((m - ms) / (slipUnit d : Nat)).toNat none
    (x, { r with gap := x.isNone }, c)

/-- Stream samples at consecutive sender positions. -/
def Chip.readRun (ch : Nat) (d : List Word) (step : Int) : Nat → Int → Reader → Chip → List (Option Int) × Reader × Chip
  | 0, _, r, c => ([], r, c)
  | n + 1, m, r, c =>
    let (x, r, c) := c.readAt ch d m r
    let (l, r, c) := Chip.readRun ch d step n (m + step) r c
    (x :: l, r, c)

/-- How a block is formed from its inputs (R121). -/
inductive Shape where
  | plain | stretch | shrink
  deriving DecidableEq, Repr

/-- The inputs of block `b` and its shape, with the depth after it (R121). -/
def Chip.blockInputs (ch : Nat) (d : List Word) (b : Nat) (r : Reader) (c : Chip) :
    List (Option Int) × Shape × Reader × Chip :=
  let j := c.jb ch
  let u := slipUnit d
  let bs := c.blockB / u
  let before := match (j.slips.filter (fun s => decide (s.mt < b))).getLast? with
    | some s => s.depth | none => j.depth0
  let here := (j.slips.filter (fun s => decide (s.mt = b ∧ s.kind ≠ 0))).getLast?
  let held := (j.slips.filter (fun s => decide (s.mt ≤ b))).foldl (fun h s => max h s.hold) 0
  match here with
  | some s =>
    if s.kind = 1 then
      let (l, r, c) := c.readRun ch d u (bs - 1) ((b : Int) - before) r
      (l, .stretch, r, c)
    else if s.kind = 2 then
      -- a hold that still runs takes the block's place before the sample that is dropped
      let k := (held - b) / u
      let (l, r, c) := c.readRun ch d u (bs + 1 - min bs k) ((b + k * u : Nat) - (before : Int)) { r with gap := r.gap || k ≠ 0 }
      (List.replicate (min bs k) none ++ l, .shrink, r, c)
    else
      let k := min bs ((s.hold - b) / u)
      let (l, r, c) := c.readRun ch d u (bs - k) ((b + k * u : Nat) - (s.depth : Int)) { r with gap := r.gap || k ≠ 0 }
      (List.replicate k none ++ l, .plain, r, c)
  | none =>
    let k := min bs ((held - b) / u)
    let (l, r, c) := c.readRun ch d u (bs - k) ((b + k * u : Nat) - (before : Int)) { r with gap := r.gap || k ≠ 0 }
    (List.replicate k none ++ l, .plain, r, c)

/-- A block's outputs from its inputs (R121): a repeat or a discard where a block is one sample. -/
def shapeBlock (last : Int) (sh : Shape) (bs : Nat) (xs : List Int) : List Int :=
  let lin (num den : Nat) : Int :=
    let k := num / den
    let a := xs.getD k 0
    sat36 (roundDiv (a * den + (xs.getD (k + 1) a - a) * (num % den : Nat)) den)
  match sh with
  | .plain => xs
  | .stretch => if bs = 1 then [last] else (List.range bs).map (fun i => lin (i * (bs - 2)) (bs - 1))
  | .shrink => if bs = 1 then [xs.getD 1 0] else (List.range bs).map (fun i => lin (i * bs) (bs - 1))

/-- The concealment signal's sample `n` of a stretch at rate R (R123). -/
def concealSample (mode rate n : Nat) (rep : List Int) : Int :=
  let len := rate / 100
  if mode = 1 ∨ rep.isEmpty ∨ len ≤ n then 0
  else roundDiv (rep.getD (n % rep.length) 0 * (len - (n + 1) : Nat)) len

/-- One sample through concealment (R123): `mode` 1 where absent samples play as zero. `plc` is the sample that the
Opus concealment gives, where it runs. -/
def JbSt.conceal (mode rate : Nat) (opus : Bool) (plc : Int) (x : Option Int) (j : JbSt) : Int × JbSt :=
  let fade := rate / 1000
  let sig (n : Nat) (rep : List Int) : Int :=
    if opus ∧ mode = 2 ∧ n < rate / 100 then plc else concealSample (if mode = 1 then 1 else 0) rate n rep
  let keep (y : Int) (j : JbSt) : Int × JbSt := (y, { j with lastPlayed := (j.lastPlayed ++ [y]).drop (j.lastPlayed.length + 1 - rate / 200) })
  match x with
  | none =>
    let j := if j.concealing = 0 ∨ j.fadeLeft ≠ 0 then { j with concealing := 0, fadeLeft := 0, rep := j.lastPlayed } else j
    keep (sig j.concealing j.rep) { j with concealing := j.concealing + 1, concealed := j.concealed + 48000 / rate }
  | some v =>
    if j.concealing = 0 then keep v j
    else
      let left := if j.fadeLeft = 0 then fade else j.fadeLeft
      let i := fade - left
      let y := sat36 (roundDiv (sig j.concealing j.rep * (fade - (i + 1) : Nat) + v * (i + 1 : Nat)) fade)
      if left ≤ 1 then keep y { j with concealing := 0, fadeLeft := 0 }
      else keep y { j with concealing := j.concealing + 1, fadeLeft := left - 1 }

/-- Samples through concealment in order. -/
def JbSt.concealAll (mode rate : Nat) (opus : Bool) (plc : Nat → Int) : Nat → List (Option Int) → JbSt → List Int × JbSt
  | _, [], j => ([], j)
  | k, x :: r, j =>
    let (y, j) := j.conceal mode rate opus (plc k) x
    let (l, j) := JbSt.concealAll mode rate opus plc (k + 1) r j
    (y :: l, j)

/-- The blocks of a frame played in order (R121, R123). -/
def Chip.playBlocks (ch : Nat) (d : List Word) : Nat → Nat → Reader → Chip → List Int × Reader × Chip
  | 0, _, r, c => ([], r, c)
  | n + 1, b, r, c =>
    let (ins, sh, r, c) := c.blockInputs ch d b r
    let rate := streamRate (dDecoder d)
    let opus := dDecoder d == 6 || dDecoder d == 7
    let (free, c) := c.drawSamples ins.length
    let last := (c.jb ch).lastPlayed.getLastD 0
    let (xs, j) := (c.jb ch).concealAll (rxConceal (c.jb ch).rxp) rate opus (fun k => free.getD k 0) 0 ins
    let c := c.modJb ch (fun _ => j)
    let (rest, r, c) := Chip.playBlocks ch d n (b + c.blockB) r c
    (shapeBlock last sh (c.blockB / slipUnit d) xs ++ rest, r, c)

/-- The samples that a packet channel plays in the frame [f, f + len), at its stream rate; the packets read whole
are cleared (R116, R121, R123). -/
def Chip.playPackets (ch : Nat) (d : List Word) (f len : Nat) (c : Chip) : List Int × Chip :=
  let j := c.jb ch
  let (xs, r, c) := c.playBlocks ch d (len / c.blockB) f {
    cell := j.packet.map (fun p => (p.1, p.2.1))
    xs := (j.packet.map (fun p => p.2.2)).getD []
    gap := j.concealing ≠ 0 && j.fadeLeft == 0 }
  let j := c.jb ch
  let done := j.slips.filter (fun s => decide (s.mt < f + len))
  let depth : Nat := match done.getLast? with | some s => s.depth | none => j.depth0
  let stop : Int := ((f + len : Nat) : Int) - (depth : Int)
  let c := r.seen.foldl (fun c p =>
    if p.2 + rxSpp d j.rxp ≤ stop then
      let a := cellAddr d j.rxp p.1
      c.putWord a (wput (c.word a) 35 35 0) Src.CORES
    else c) c
  (xs, c.modJb ch (fun j => { j with depth0 := depth, slips := j.slips.filterMap (fun s =>
    if f + len ≤ s.mt then some s else if f + len < s.hold then some { s with depth := depth } else none) }))

/-- Words of a local source's ring (R124). -/
def ringWords (d : List Word) : Nat := (dJbSize d - 1) * 16

/-- The word address of MT t in a local source's ring (R124). -/
def ringAddr (d : List Word) (t : Nat) : Nat := (dJbPtr d + 1) * 16 + t % ringWords d

/-- A port's input sample written into a local source's ring (R124, R383). -/
def Chip.ringWrite (ch : Nat) (d : List Word) (t : Nat) (w : Word) (c : Chip) : Chip :=
  if ringWords d = 0 then c
  else (c.putWord (ringAddr d t) w Src.CORES).modJb ch (fun j => { j with ring := Cells.insert (t % ringWords d) t j.ring })

/-- The sample a local source plays at MT t (R124); none where it was never written. -/
def Chip.ringRead (c : Chip) (ch : Nat) (d : List Word) (t : Nat) : Option Int :=
  if ringWords d = 0 ∨ t < dDepth d then none
  else
    let p := t - dDepth d
    if Cells.find? (p % ringWords d) (c.jb ch).ring = some p ∧ c.burstOk (ringAddr d p / 16) then
      some (sval (c.word (ringAddr d p)))
    else none

/-- The samples that a local source plays in a frame, at 48 kHz (R124). -/
def Chip.playLocal (ch : Nat) (d : List Word) (f len : Nat) (c : Chip) : List Int × Chip :=
  let ins := (List.range len).map (fun i => c.ringRead ch d (f + i))
  let (xs, j) := (c.jb ch).concealAll 1 48000 false (fun _ => 0) 0 ins
  let c := c.iff (ringWords d ≠ 0 && dDepth d ≤ f) (Chip.readLog Src.CORES (ringAddr d (f - dDepth d)) len)
  (xs, c.modJb ch (fun _ => j))

/-- The largest n with 10^n at or below num / den, in units of 1 / k of a decade of the ratio raised to k, from a
base up: floor(k * log10(num / den)), for a ratio between 10^-30 and 10^30. -/
def logFloor (k num den : Nat) : Int :=
  if num = 0 then -(30 * k : Nat)
  else
    let p := num ^ k
    let q := den ^ k
    (bisect (fun n => decide (10 ^ n * q ≤ p * 10 ^ (30 * k))) 17 0 : Int) - (30 * k : Nat)

/-- A level of a meter in units of 0.01 dB: a floor, or one above it by a free rounding bit (R107).
[DESIGN CHOICE, log entry 27: safe] -/
def Chip.level (k num den : Nat) (c : Chip) : Int × Chip :=
  if num = 0 then (-15000, c)
  else
    let v := logFloor k num den
    let (up, c) := c.drawBit
    let v := if up then v + 1 else v
    (if v < -15000 then -15000 else v, c)

/-- A meter word over a frame (R107).
[DESIGN CHOICE, log entry 27: safe] -/
def Chip.meter (xs : List Int) (c : Chip) : Word × Chip :=
  let peak := xs.foldl (fun m x => max m x.natAbs) 0
  let sq := xs.foldl (fun m x => m + x.natAbs * x.natAbs) 0
  let (p, c) := c.level 2000 peak (2 ^ 32)
  let (r, c) := c.level 1000 (2 * sq) (max 1 xs.length * 2 ^ 64)
  (wofNat (unsignedOf 18 p * 2 ^ 18 + unsignedOf 18 r), c)

/-- The meter word of a channel without meters, or of silence: -150.00 dB in both fields (R107). -/
def meterOff : Word := wofNat (unsignedOf 18 (-15000) * 2 ^ 18 + unsignedOf 18 (-15000))

end Sys2Proof.Machine
end

