-- ==== Sys2Proof/Machine/Audio.lean ====
section
/-! DEFINITION. TDM and MADI ports, output entries, local samples, GPIO and MDIO (R382 to R387, R397 to R405). -/
namespace Sys2Proof.Machine

open Sys2Proof

/-- The local audio ports changed. -/
def Chip.modAudio (f : AudioSt → AudioSt) (c : Chip) : Chip := { c with audio := f c.audio }

/-! ## Local samples -/

/-- A counter raised once for each channel that a sample for MT `m` misses; the sample is written into the ring of
every channel that names the input and is not IDLE (R382, R383). Nothing is written while the channel domain is
recovering (R405). -/
def Chip.writeLocal (src unit node idx m : Nat) (w : Word) (late : Chip → Chip) (c : Chip) : Chip :=
  if c.chanRec then c
  else c.chans.foldl (fun c x =>
    let d := c.desc x.1
    if dSource d = src ∧ dbits d 2 17 13 = unit ∧ dbits d 2 7 0 = idx ∧ (src ≠ 2 ∨ dbits d 2 12 8 = node) then
      if c.mt < m + dDepth d ∧ m + dDepth d < c.mt + ringWords d then c.ringWrite x.1 d m w else late c
    else c) c

/-- A received word of `w` bits as an S36 sample (R386). -/
def rxSample (w v : Nat) : Word := wofInt (signed 32 (v % 2 ^ w * 2 ^ (32 - w)))

/-- A sample as a word of `w` bits to send (R386). -/
def txSample (w : Nat) (x : Int) : Nat := pcmSat (wofInt x) / 2 ^ (32 - w)

/-! ## Output entries (R385) -/

/-- The status of enabling a reader of bus b whose distance is r. -/
def Chip.readerStatus (c : Chip) (b r : Nat) : Nat :=
  if !c.busOn b then St.NOTREADY
  else St.pick [St.when (c.fld F.chan_BUS_RATE b != 2) St.RANGE,
    St.when (decide (c.busWin b < 4 * (r + c.blockB))) St.RANGE]

/-- A write of an output entry of a TDM or MADI port (Table 15.17). -/
def Chip.writeOut (q : Requester) (r : RegName) (u s : Nat) (w : Word) (c : Chip) : Chip :=
  let old := c.rd r u s
  let b := wbits w 34 23
  let keep := wofNat (wbits w 35 23 * 2 ^ 23)
  if wbit old 35 then
    if b ≠ wbits old 34 23 then
      c.errq q F.audioio_REQSTAT_LASTERR (St.pick [if wbit w 35 then c.readerStatus b c.blockB else St.OK, St.BUSY])
    else if wbit w 35 then c
    else (c.wr r keep u s).subFrom F.chan_BUSGAIN_READERS 1 b
  else if wbit w 35 then
    let st := c.readerStatus b c.blockB
    if st ≠ St.OK then c.errq q F.audioio_REQSTAT_LASTERR st
    else (c.wr r keep u s).addTo F.chan_BUSGAIN_READERS 1 b
  else c.wr r keep u s

/-- The bus signal that an output entry carries: 0 while it is disabled or before the epoch (R384, R385). -/
def Chip.entryRead (entry : Word) (s : Int) (c : Chip) : Int × Chip :=
  if wbit entry 35 ∧ 0 ≤ s then c.mixRead (wbits entry 34 23) s.toNat else (0, c)

/-! ## Lock (R399) -/

/-- A quarter sample, 5.2 µs, in 2^-16 ns. -/
def lockTol : Nat := 5200 * 65536

/-- A frame start at an instant, on a port of `rate` frames a second: the state after, whether the port is locked
and whether lock was lost.
[DEDUCED, log entry 165: unsafe] -/
def LockSt.frame (l : LockSt) (rate mt now : Nat) (locked : Bool) : LockSt × Bool × Bool :=
  match l.ref with
  | none => ({ ref := some (mt, now) }, false, false)
  | some (t0, start) =>
    let d := now - start
    let j := (2 * d * rate + tSec) / (2 * tSec)
    let at_ := j * tSec / rate
    let within := decide (l.k < j ∧ d ≤ at_ + lockTol ∧ at_ ≤ d + lockTol)
    let miss := j - l.k - 1
    let bad := l.bad + miss + (if within then 0 else 1)
    if 4 ≤ bad then ({ ref := some (mt, now) }, false, locked)
    else if within then
      let good := if l.bad + miss = 0 then l.good + 1 else 1
      ({ ref := some (t0, start), k := j, good := good, bad := 0 }, locked || decide (48 ≤ good), false)
    else ({ ref := some (t0, start), k := max l.k j, good := 0, bad := bad }, locked, false)

/-- Frames that were due by an instant and have not come: lock is lost when there are four in a row. -/
def LockSt.silent (l : LockSt) (rate now : Nat) : Bool :=
  match l.ref with
  | none => false
  | some (_, start) => decide (4 ≤ l.bad + ((now - start - lockTol) * rate / tSec - l.k))

/-- MT of the last frame of a port of `rate` frames a second. -/
def LockSt.mt (l : LockSt) (rate : Nat) : Nat :=
  match l.ref with | some (t0, _) => t0 + l.k * 48000 / rate | none => 0

/-! ## Fixed converters (R384) -/

/-- A converter takes a sample.
[DESIGN CHOICE, log entry 22: safe] -/
def Chip.feed (key : Nat) (x : Int) (c : Chip) : Chip :=
  c.modAudio (fun a => { a with conv := Cells.insert key ((x :: Cells.get [] key a.conv).take 64) a.conv })

/-- What a converter gives of the samples that it holds; they are fewer than its filter takes after it has been cleared, and
those missing count as 0.
[DESIGN CHOICE, log entry 22: safe] -/
def Chip.converted (c : Chip) (key kind phase : Nat) : Int :=
  sat36 (Config.converter kind phase (Cells.get [] key c.audio.conv))

/-- The converters from key `a` up to `b` are cleared. -/
def Chip.clearConv (a b : Nat) (c : Chip) : Chip := c.modAudio (fun x => { x with conv := Cells.clear a b x.conv })

/-- The converters of a TDM slot: of its input, and of its output from 256 on. -/
def tdmKey (u s : Nat) : Nat := 32 * u + s

/-- The converter of an upstream stream. -/
def upKey (n node idx : Nat) : Nat := 512 + (32 * n + node) * 32 + idx

/-- The converter of a downstream stream. -/
def downKey (n i : Nat) : Nat := 32768 + 24 * n + i

/-! ## TDM -/

/-- Frames a second of a TDM port. -/
def Chip.tdmRate (c : Chip) (u : Nat) : Nat := if c.flag F.audioio_TDM_CFG_RATE96 u then 96000 else 48000

/-- A write of TDM.CFG (R400, Table 15.14).
[DEDUCED, log entry 42: unsafe] -/
def Chip.writeTdmCfg (q : Requester) (u : Nat) (w : Word) (c : Chip) : Chip :=
  let old := c.rd .audioio_TDM_CFG u
  let keep := wput w 6 0 0
  let reset (c : Chip) : Chip := ((c.modAudio (fun a => { a with tdm := Cells.set {} u {} a.tdm })).clearConv
    (tdmKey u 0) (tdmKey u 32)).clearConv (256 + tdmKey u 0) (256 + tdmKey u 32)
  let fmt := wbits w 33 32
  let slots := wbits w 30 26 + 1
  let bad := wbit w 35 && decide (fmt = 3 ∨ wbits w 25 24 = 3 ∨ (fmt = 0 ∧ slots ≠ 2) ∨ (wbit w 31 ∧ 16 < slots) ∨
    20832 < wbits w 21 7)
  let st := St.pick [St.when bad St.RANGE, St.when (wbit old 35 && wbits w 34 7 != wbits old 34 7) St.BUSY]
  if st ≠ St.OK then c.errq q F.audioio_REQSTAT_LASTERR st
  else if wbit w 35 then
    if wbit old 35 then c
    else (reset (c.wr .audioio_TDM_CFG keep u)).put F.audioio_TDM_STAT_LOCKED (wbits w 34 34) u
  else (reset (c.wr .audioio_TDM_CFG keep u)).put F.audioio_TDM_STAT_LOCKED 0 u

/-- The MT of a master's frame that starts now, and whether it is the second of its sample (R398). -/
def Chip.masterFrame (c : Chip) (phase : Nat) : Nat × Bool :=
  let p := 2 * c.now + c.halfStep - 2 * phase * 65536
  (p * 48000 / (2 * tSec), (p * 96000 / (2 * tSec)) % 2 == 1)

/-- A frame start of a slave port counts for its lock (R399). -/
def Chip.tdmLock (u : Nat) (c : Chip) : Chip :=
  let r := (Cells.get {} u c.audio.tdm).frame (c.tdmRate u) c.mt c.now (c.flag F.audioio_TDM_STAT_LOCKED u)
  let c := c.modAudio (fun a => { a with tdm := Cells.set {} u r.1 a.tdm })
  (c.put F.audioio_TDM_STAT_LOCKED (b2n r.2.1) u).iff r.2.2 (Chip.bump F.audioio_TDM_STAT_UNLOCKS 1 u)

/-- TDM_FRAME: a frame starts; its input words are written and its output words sent (R384, R386, R397 to R399). At
96 kHz the converter of a slot takes both frames of a sample and gives, for MT t - 16, one; that of an output entry takes the
bus sample out(t - B - 8) and gives both, 16 samples later. -/
def Chip.tdmFrame (u : Nat) (ins : List Nat) (c : Chip) : Chip :=
  if !(c.live && c.flag F.audioio_TDM_CFG_EN u) then c
  else
    let master := c.flag F.audioio_TDM_CFG_MASTER u
    let c := if master then c else c.tdmLock u
    let l := Cells.get {} u c.audio.tdm
    let rate := c.tdmRate u
    let mf := c.masterFrame (c.fld F.audioio_TDM_CFG_PHASE u)
    let t := if master then mf.1 else l.mt rate
    let second := if master then mf.2 else l.k % 2 == 1
    let locked := c.flag F.audioio_TDM_STAT_LOCKED u
    let wide := rate == 96000
    let n := c.fld F.audioio_TDM_CFG_SLOTS u + 1
    let bits := if c.fld F.audioio_TDM_CFG_WIDTH u = 0 then 16 else if c.fld F.audioio_TDM_CFG_WIDTH u = 1 then 24 else 32
    let late := Chip.bump F.audioio_TDM_STAT_LATE 1 u
    let c := if !locked then c
      else forRange n (fun s c =>
        let w := rxSample bits (ins.getD s 0)
        if wide then
          let c := c.feed (tdmKey u s) (sval w)
          if second then c else c.writeLocal 3 u 0 s (t - 16) (wofInt (c.converted (tdmKey u s) 0 0)) late
        else c.writeLocal 3 u 0 s t w late) c
    let outs := (List.range n).foldl (fun (r : List Nat × Chip) s =>
      let e := r.2.rd .audioio_TDM_OUT u s
      let x := if wide && second then (0, r.2) else r.2.entryRead e ((t : Int) - (c.blockB : Nat) - 8)
      let k := 256 + tdmKey u s
      let c := if wide && !second then x.2.feed k x.1 else x.2
      let y := if !locked || !wbit e 35 then 0 else if wide then c.converted k 1 (b2n second) else x.1
      (r.1 ++ [txSample bits y], c)) ([], c)
    outs.2.emit (.audioOut false u outs.1)

/-! ## MADI -/

/-- A write of MADI.CFG (Table 15.15). -/
def Chip.writeMadiCfg (q : Requester) (u : Nat) (w : Word) (c : Chip) : Chip :=
  let old := c.rd .audioio_MADI_CFG u
  let keep := wput w 18 0 0
  let reset (c : Chip) : Chip :=
    (c.modAudio (fun a => { a with madi := Cells.set {} u {} a.madi })).put F.audioio_MADI_STAT_LOCKED 0 u
  let st := St.pick [St.when (wbit w 35 && decide (20832 < wbits w 33 19)) St.RANGE,
    St.when (wbit old 35 && wbits w 34 19 != wbits old 34 19) St.BUSY]
  if st ≠ St.OK then c.errq q F.audioio_REQSTAT_LASTERR st
  else if wbit w 35 && wbit old 35 then c
  else reset (c.wr .audioio_MADI_CFG keep u)

/-- Channels of a MADI port. -/
def Chip.madiChans (c : Chip) (u : Nat) : Nat := if c.flag F.audioio_MADI_CFG_CH56 u then 56 else 64

/-- MADI_FRAME_RECEIVED: the active bit, a parity error and the 24 audio bits of each channel (R386, R399, R402). -/
def Chip.madiReceive (u : Nat) (ins : List (Bool × Bool × Nat)) (c : Chip) : Chip :=
  if !(c.live && c.flag F.audioio_MADI_CFG_EN u) then c
  else
    let r := (Cells.get {} u c.audio.madi).frame 48000 c.mt c.now (c.flag F.audioio_MADI_STAT_LOCKED u)
    let c := c.modAudio (fun a => { a with madi := Cells.set {} u r.1 a.madi })
    let c := (c.put F.audioio_MADI_STAT_LOCKED (b2n r.2.1) u).iff r.2.2 (Chip.bump F.audioio_MADI_STAT_UNLOCKS 1 u)
    let t := r.1.mt 48000
    ((ins.take (c.madiChans u)).zipIdx).foldl (fun c x =>
      if !x.1.1 then c
      else
        let c := c.iff x.1.2.1 (Chip.bump F.audioio_MADI_STAT_PARITY 1 u)
        if !r.2.1 then c
        else c.writeLocal 4 u 0 x.2 t (if x.1.2.1 then 0 else rxSample 24 x.1.2.2)
          (Chip.bump F.audioio_MADI_STAT_LATE 1 u)) c

/-- CRC of AES3's channel status: x^8 + x^4 + x^3 + x^2 + 1 from all ones over bits 0 to 183, the first bit sent first. -/
def statusCrc : List Bool → Nat → Nat
  | [], r => r
  | b :: l, r =>
    let fb := b != r.testBit 7
    statusCrc l (if fb then (2 * r % 256) ^^^ 0x1D else 2 * r % 256)

/-- A bit of the channel-status block before its CRC: the professional form, linear PCM and 48 kHz; the others are free. -/
def statusBit (i : Nat) : Bool :=
  if i = 0 ∨ i = 7 then true else if i = 1 ∨ i = 6 then false else Config.channelStatus i

/-- C of the frame `i` of a block (R401).
[DESIGN CHOICE, log entry 105: safe] -/
def statusAt (i : Nat) : Bool :=
  if i < 184 then statusBit i else (statusCrc ((List.range 184).map statusBit) 255).testBit (191 - i)

/-- A MADI subframe: the channel 0 flag, the active bit, the second channel of a pair, the start of a block, 24 audio bits, V and
U of 0, a bit of the channel status and even parity over bits 4 to 31 (R401). A channel's block starts with the frame 0.
[DESIGN CHOICE, log entry 105: safe] -/
def madiSub (chan audio frame : Nat) : Nat :=
  let v := b2n (chan == 0) + 2 + chan % 2 * 4 + b2n (frame == 0) * 8 + audio % 2 ^ 24 * 16 + b2n (statusAt frame) * 2 ^ 30
  v + popcount 28 (v / 16) % 2 * 2 ^ 31

/-- MADI_FRAME_TRANSMIT: the frame of MT t, that began TXPHASE ns after tick t, carries the entries' buses (R384,
R386, R401), and the bit of the channel-status block that the MT falls on.
[DESIGN CHOICE, log entry 105: safe] -/
def Chip.madiTransmit (u : Nat) (c : Chip) : Chip :=
  if !(c.live && c.flag F.audioio_MADI_CFG_EN u) then c
  else
    let t := (c.masterFrame (c.fld F.audioio_MADI_CFG_TXPHASE u)).1
    let outs := (List.range (c.madiChans u)).foldl (fun (r : List Nat × Chip) ch =>
      let x := r.2.entryRead (r.2.rd .audioio_MADI_OUT u ch) ((t : Int) - (c.blockB : Nat) - 8)
      (r.1 ++ [madiSub ch (txSample 24 x.1) ((t + Config.statusStart) % 192)], x.2)) ([], c)
    outs.2.emit (.audioOut true u outs.1)

/-- Slave ports whose frames have stopped lose lock (R399). -/
def Chip.settleLocks (c : Chip) : Chip :=
  let c := forRange 8 (fun u c =>
    if c.flag F.audioio_TDM_CFG_EN u && !c.flag F.audioio_TDM_CFG_MASTER u && c.flag F.audioio_TDM_STAT_LOCKED u &&
        (Cells.get {} u c.audio.tdm).silent (c.tdmRate u) c.now then
      ((c.put F.audioio_TDM_STAT_LOCKED 0 u).bump F.audioio_TDM_STAT_UNLOCKS 1 u).modAudio
        (fun a => { a with tdm := Cells.set {} u {} a.tdm })
    else c) c
  forRange 4 (fun u c =>
    if c.flag F.audioio_MADI_CFG_EN u && c.flag F.audioio_MADI_STAT_LOCKED u &&
        (Cells.get {} u c.audio.madi).silent 48000 c.now then
      ((c.put F.audioio_MADI_STAT_LOCKED 0 u).bump F.audioio_MADI_STAT_UNLOCKS 1 u).modAudio
        (fun a => { a with madi := Cells.set {} u {} a.madi })
    else c) c

/-! ## GPIO (R403, R404) -/

/-- GPIO state changed. -/
def Chip.modGpio (f : GpioSt → GpioSt) (c : Chip) : Chip := c.modAudio (fun a => { a with gpio := f a.gpio })

/-- A number with one bit set to a level. -/
def setBit (n i : Nat) (b : Bool) : Nat :=
  if b then n ||| 2 ^ i else if n.testBit i then n - 2 ^ i else n

/-- The level of a GPIO changes: the next sample tick sees it.
[DEDUCED, log entry 121: unsafe] -/
def Chip.setLevel (g : Nat) (b : Bool) (c : Chip) : Chip :=
  let v := setBit (c.fld F.audioio_GPIO_LEVEL_LEVEL) g b
  let old := c.mt - 2048
  let keep (l : List (Nat × Nat)) : List (Nat × Nat) := l.filter (fun x => decide (old < x.1)) ++
    (l.filter (fun x => decide (x.1 ≤ old))).take 1
  (c.put F.audioio_GPIO_LEVEL_LEVEL v).modGpio (fun s => { s with past := (c.mt + 1, v) :: keep s.past })

/-- The accepted levels at sample tick `m`; older than the history, those of the oldest tick held (R403).
[DEDUCED, log entry 121: unsafe] -/
def Chip.gpioAt (c : Chip) (m : Nat) : Nat :=
  let m := max m (c.mt - 2047)
  match List.find? (fun x => decide (x.1 ≤ m)) c.audio.gpio.past with
  | some x => x.2
  | none => 0

/-- A new level of an input is accepted, dated exactly at its edge (R403).
[DESIGN CHOICE, log entry 138: unsafe] -/
def Chip.gpioAccept (g : Nat) (b : Bool) (t : Nat) (c : Chip) : Chip :=
  let c := (c.modGpio (fun s => { s with fresh := Cells.erase g s.fresh })).setLevel g b
  let st := c.fld F.audioio_GPIO_CFG_STAMP g
  if (b && st.testBit 0) || (!b && st.testBit 1) then c.stampEvt 3 g b 0 0 0 t else c

/-- An input pin stands at a level that may be new: accepted at once without debounce, else from its edge on. -/
def Chip.gpioSense (g : Nat) (c : Chip) : Chip :=
  let b := c.audio.gpio.pins.testBit g
  if c.flag F.audioio_GPIO_CFG_DIR g ∨ !c.live then c
  else if b = (c.fld F.audioio_GPIO_LEVEL_LEVEL).testBit g then
    c.modGpio (fun s => { s with fresh := Cells.erase g s.fresh })
  else if c.fld F.audioio_GPIO_CFG_DEBOUNCE g = 0 then c.gpioAccept g b c.now
  else c.modGpio (fun s => { s with fresh := Cells.insert g (c.count, c.now) s.fresh })

/-- GPIO_DEBOUNCE_EXPIRY: a new level has stood for DEBOUNCE µs. -/
def Chip.gpioExpiry (g : Nat) (c : Chip) : Chip :=
  match Cells.find? g c.audio.gpio.fresh with
  | none => c
  | some (n, t) =>
    if n + 1250 * c.fld F.audioio_GPIO_CFG_DEBOUNCE g ≤ c.count && !c.flag F.audioio_GPIO_CFG_DIR g then
      c.gpioAccept g (c.audio.gpio.pins.testBit g) t
    else c

/-- GPIO_INPUT_EDGE: the level at a pin changes; one that has stood for DEBOUNCE µs before is accepted first. -/
def Chip.gpioEdge (g : Nat) (b : Bool) (c : Chip) : Chip :=
  if c.audio.gpio.pins.testBit g = b then c
  else ((c.gpioExpiry g).modGpio (fun s => { s with pins := setBit s.pins g b })).gpioSense g

/-- An output pin takes its OUT bit; until release it is high-impedance (R405). -/
def Chip.gpioDrive (g : Nat) (c : Chip) : Chip :=
  let b := (c.fld F.audioio_GPIO_OUT_OUT).testBit g
  if c.flag F.audioio_GPIO_CFG_DIR g then
    let c := if b = (c.fld F.audioio_GPIO_LEVEL_LEVEL).testBit g then c else c.setLevel g b
    c.iff c.live (Chip.emit (.pin "GPIO" g b))
  else c

/-- A write of GPIO.OUT (R404). -/
def Chip.writeGpioOut (w : Word) (c : Chip) : Chip :=
  let old := c.fld F.audioio_GPIO_OUT_OUT
  let c := c.put F.audioio_GPIO_OUT_OUT (wbits w 31 0)
  forRange 32 (fun g c => if old.testBit g = (wbits w 31 0).testBit g then c else c.gpioDrive g) c

/-- A write of GPIO.CFG (Table 15.18, R404). -/
def Chip.writeGpioCfg (g : Nat) (w : Word) (c : Chip) : Chip :=
  let was := c.flag F.audioio_GPIO_CFG_DIR g
  let c := c.wr .audioio_GPIO_CFG (wput w 21 0 0) g
  if wbit w 35 then (if was then c else c.gpioDrive g) else if was then c.gpioSense g else c

/-- One OUT bit set by a timed change. -/
def Chip.setOutBit (g : Nat) (b : Bool) (c : Chip) : Chip :=
  (c.put F.audioio_GPIO_OUT_OUT (setBit (c.fld F.audioio_GPIO_OUT_OUT) g b)).gpioDrive g

/-- A write of GPIO.TGO (R404): queued, applied at once where its instant is past, or refused with BUSY. -/
def Chip.writeTgo (q : Requester) (w : Word) (c : Chip) : Chip :=
  if !wbit w 35 then c
  else
    let d := halfDist 36 (c.rdq q .audioio_GPIO_TSET).toNat c.mt
    if d ≤ 0 then c.setOutBit (wbits w 4 0) (wbit w 5)
    else if 64 ≤ c.audio.gpio.timed.length then c.errq q F.audioio_REQSTAT_LASTERR St.BUSY
    else c.modGpio (fun s => { s with timed := s.timed ++ [(((c.mt : Int) + d).toNat, wbits w 4 0, wbit w 5)] })

/-- GPIO_TIMED_APPLY: the earliest timed change that is due is applied (R404).
[DEDUCED, log entry 6: safe] -/
def Chip.timedApply (c : Chip) : Chip :=
  let l := c.audio.gpio.timed.zipIdx.filter (fun x => decide (x.1.1 ≤ c.mt))
  match l.foldl (fun (b : Option ((Nat × Nat × Bool) × Nat)) x =>
      match b with | none => some x | some y => if x.1.1 < y.1.1 then some x else some y) none with
  | none => c
  | some x => (c.modGpio (fun s => { s with timed := s.timed.eraseIdx x.2 })).setOutBit x.1.2.1 x.1.2.2

/-- At release each GPIO starts as its registers direct: an output is driven, an input is sensed (R405).
[DEDUCED, log entry 149: unsafe] -/
def Chip.startGpio (c : Chip) : Chip := forRange 32 (fun g c => (c.gpioDrive g).gpioSense g) c

/-! ## MDIO (R387) -/

/-- BUSY of HEDGE.MDIO as every requester reads it. -/
def Chip.mdioBusy (b : Bool) (c : Chip) : Chip :=
  [Requester.pcie, .kc0, .kc1, .kc2, .kc3].foldl (fun c q => c.putq q F.hedge_MDIO_BUSY (b2n b)) c

/-- The requester of a place. -/
def requesterAt (i : Nat) : Requester :=
  if i = 0 then .pcie else if i = 1 then .kc0 else if i = 2 then .kc1 else if i = 3 then .kc2
  else if i = 4 then .kc3 else .loader

/-- A write of HEDGE.MDIO (Table 15.13). A refused GO is reported by the segment that PHYAD names.
[DEDUCED, log entry 106: unsafe] -/
def Chip.writeMdio (q : Requester) (w : Word) (c : Chip) : Chip :=
  let op := wbits w 33 32
  let phy := wbits w 31 27
  let refuse (st : Nat) (c : Chip) : Chip := if phy < 24 then c.put F.hedge_SEG_STAT_LASTERR st phy else c
  let store (c : Chip) : Chip :=
    (((c.putq q F.hedge_MDIO_OP op).putq q F.hedge_MDIO_PHYAD phy).putq q F.hedge_MDIO_REGAD (wbits w 26 22)).putq q
      F.hedge_MDIO_DATA (wbits w 15 0)
  if !wbit w 35 then store c
  else if op ≠ 1 ∧ op ≠ 2 then refuse St.RANGE c
  else if 24 ≤ phy then c
  else if c.audio.mdio.isSome then refuse St.BUSY c
  else
    let c := ((store c).modAudio (fun a => { a with mdio := some (q.idx, op == 1, phy, wbits w 26 22) })).mdioBusy true
    c.emit (.mdio (op == 1) phy (wbits w 26 22) (wbits w 15 0))

/-- MDIO_COMPLETE: the access ends; a read returns the PHY's data.
[DEDUCED, log entry 106: unsafe] -/
def Chip.mdioComplete (data : Nat) (c : Chip) : Chip :=
  match c.audio.mdio with
  | none => c
  | some (i, write, _, _) =>
    let c := (c.modAudio (fun a => { a with mdio := none })).mdioBusy false
    if write then c else c.putq (requesterAt i) F.hedge_MDIO_DATA data

end Sys2Proof.Machine
end

