-- ==== Sys2Proof/Machine/Chan.lean ====
section
/-! DEFINITION. The CHAN block (R78 to R103, R198 to R205, R274, R282): the checks of a descriptor, costs, admission,
the commands, updates and the life cycle of a channel. -/
namespace Sys2Proof.Machine

open Sys2Proof

/-- Bits that Table 3.1 and the tables it names call reserved, by descriptor word, as (word, hi, lo).
[DEDUCED, log entry 120: unsafe] -/
def descReserved : List (Nat × Nat × Nat) :=
  [(0, 19, 19), (1, 35, 33), (1, 15, 11), (2, 35, 18), (6, 21, 14), (7, 1, 0), (8, 26, 0), (10, 1, 0),
   (11, 10, 0), (12, 10, 0), (13, 10, 0), (14, 10, 0), (15, 1, 0), (18, 35, 34), (19, 14, 0), (20, 2, 0), (23, 35, 8)]

/-- A staged word that the command writes has a reserved bit set (R82). -/
def reservedSet (ws : List Word) (mask : Nat) : Bool :=
  descReserved.any (fun r => mask.testBit r.1 && wbits (ws.getD r.1 0) r.2.1 r.2.2 ≠ 0)

/-- P in samples (R87). -/
def Chip.period (c : Chip) (d : List Word) : Nat := c.blockB * dBlocks d

/-- The first frame boundary at or after MT m (R87). -/
def Chip.nextBoundary (c : Chip) (d : List Word) (m : Nat) : Nat :=
  let p := c.period d
  let o := dPhase d * c.blockB % p
  if m ≤ o then o else o + ceilDiv (m - o) p * p

/-- The start of the frame that holds MT m (R87). -/
def Chip.frameStartOf (c : Chip) (d : List Word) (m : Nat) : Nat :=
  let p := c.period d
  let o := dPhase d * c.blockB % p
  if m < o then 0 else o + (m - o) / p * p

/-- A word of a tone set: set 0 has no detectors; none where the set is not loaded (R175). -/
def Chip.toneset (c : Chip) (n : Nat) : Option (List Word) :=
  if n = 0 then some [] else Cells.find? n c.tonesets

/-- FREQ of detector d of a tone set, in 0.1 Hz; 0 where it is absent (Table 6.8). -/
def detFreq (ts : List Word) (d : Nat) : Nat := dbits ts (1 + 2 * d) 34 18

/-- The highest centre frequency a channel may enable, in 0.1 Hz (R177). -/
def detLimit (rate : Nat) : Nat := if rate = 8000 then 36000 else if rate = 16000 then 72000 else 80000

/-- Detector d is absent from a set, or above the rate limit. -/
def detBad (ts : List Word) (rate d : Nat) : Bool := detFreq ts d == 0 || decide (detLimit rate < detFreq ts d)

/-- The enabled MIXIN words of a descriptor, by index (R199). -/
def mixins (d : List Word) : List (Nat × Word) :=
  (List.range 4).filterMap (fun i => if wbit (d.getD (11 + i) 0) 23 then some (i, d.getD (11 + i) 0) else none)

/-- The buses a descriptor names as inputs (R199). -/
def dInputs (d : List Word) : List Nat := (mixins d).map (fun m => wbits m.2 35 24)

/-- The buses a descriptor reads, each once (R203 to R205). -/
def dReaders (d : List Word) : List Nat :=
  (if dFunc d 6 then [dbits d 16 35 24, dbits d 16 23 12]
   else if dEncoder d ≠ 0 then
     dbits d 15 35 24 :: (if dEncoder d = 7 ∧ wbit (d.getD 15 0) 11 then [dbits d 15 23 12] else [])
   else []).eraseDups

/-- The rate at which the receive stream arrives: DECODER's, or 48 kHz of a local source; 0 for none. -/
def rxRate (d : List Word) : Nat := if 2 ≤ dSource d then 48000 else streamRate (dDecoder d)

/-- The receive path runs the core integer rate change (Table 3.5, step 4). -/
def rxChanges (d : List Word) : Bool := !dFunc d 0 && rxRate d ≠ 0 && rxRate d ≠ dProc d

/-- The send path runs the core integer rate change (Table 3.5, step 12). -/
def txChanges (d : List Word) : Bool := dEncoder d ≠ 0 && streamRate (dEncoder d) ≠ dProc d

/-- Cost of a codec, decode and encode, in 1/400 LU, and its state words (Table 3.9). -/
def codecCost (codec : Nat) (enc : Bool) : Nat × Nat :=
  if codec = 0 then (0, 0)
  else if codec ≤ 4 then (20, 0)
  else if codec = 5 then (if enc then 560 else 360, 24)
  else if codec = 6 then (if enc then (16800, 2400) else (7200, 1200))
  else if codec = 7 then (if enc then (30240, 4320) else (12960, 2160))
  else (40, 16)

/-- The echo-canceller factor in tenths (Table 3.10). -/
def ecFactor (block : Nat) : Nat := if block = 6 then 20 else if block = 12 then 15 else if block = 24 then 12 else 10

/-- One of three values by PROCRATE. -/
def byRate (rate a b c : Nat) : Nat := if rate = 8000 then a else if rate = 16000 then b else c

/-- The charge of a descriptor in 1/400 LU and its STATEWORDS (R94, Table 3.9). -/
def Chip.cost (c : Chip) (d : List Word) : Nat × Nat :=
  let r := dProc d
  let add (b : Bool) (x : Nat × Nat) (y : Nat × Nat) : Nat × Nat := if b then (y.1 + x.1, y.2 + x.2) else y
  let cust := match Cells.find? (dbits d 23 5 0) c.customs with | some x => (x.cost, x.state) | none => (0, 0)
  add true (ceilDiv 3456 (c.period d), 32)
  (add (dSource d == 1) (60, 48)
  (add (decide (2 ≤ dSource d)) (20, 48)
  (add true (codecCost (dDecoder d) false)
  (add true (codecCost (dEncoder d) true)
  (add (rxChanges d) (48, 24)
  (add (txChanges d) (48, 24)
  (add (dFunc d 0) (8, 0)
  (add (dFunc d 1) (byRate r 640 800 3800 * ecFactor c.blockB / 10, byRate r 6000 6000 7680)
  (add (dFunc d 3) (byRate r 80 140 244, 40)
  (add (dFunc d 5) (20, 16)
  (add true (8 * (mixins d).length, 0)
  (add (dFunc d 6) (byRate r 56 100 272, 8)
  (add (dFunc d 8) (20, 8)
  (add (dEncoder d ≠ 0) (60, 32)
  (add (dFunc d 7) (40, 16)
  (add (dFunc d 9) cust (0, 0)))))))))))))))))

/-- The DRAM load of a channel in kB/s (R96). -/
def Chip.dramLoad (c : Chip) (d : List Word) (sw : Nat) : Nat := ceilDiv (432 * sw) (c.period d)

/-- The RANGE checks of a descriptor that need no table (R82 to R86, R112, R159 to R161, R173, R199, R203, R205). -/
def Chip.fieldBad (c : Chip) (d : List Word) : Bool :=
  let src := dSource d; let dec := dDecoder d; let enc := dEncoder d
  let unit := dbits d 2 17 13; let node := dbits d 2 12 8; let idx := dbits d 2 7 0
  let ecLimit := if dFunc d 2 then 32 else byRate (dProc d) 128 64 64
  let ts := c.toneset (dbits d 9 35 30)
  let gen := dbits d 10 16 15
  decide ((0xC ≤ dbits d 0 23 20 ∧ dbits d 0 23 20 ≤ 0xE)
    ∨ 4 ≤ dbits d 1 32 30 ∨ dBlocks d ≤ dPhase d ∨ dbits d 1 29 28 = 3
    ∨ 5 ≤ src ∨ 9 ≤ dec ∨ 9 ≤ enc
    ∨ (dFunc d 2 ∧ ¬ dFunc d 1) ∨ (dFunc d 4 ∧ ¬ dFunc d 3)
    ∨ (dFunc d 10 ∧ src ≠ 1 ∧ enc = 0)
    ∨ (src = 0 ∧ enc = 0) ∨ (src = 1 ∧ dec = 0) ∨ (2 ≤ src ∧ dec ≠ 0)
    ∨ (src ≠ 2 ∧ node ≠ 0) ∨ (src = 2 ∧ (23 < unit ∨ node = 0 ∨ 23 < idx))
    ∨ (src = 3 ∧ (7 < unit ∨ 31 < idx)) ∨ (src = 4 ∧ (3 < unit ∨ 63 < idx))
    ∨ (src ≠ 0 ∧ 1000 ≤ dbits d 5 34 25)
    ∨ (dFunc d 1 ∧ (enc = 0 ∨ ecLimit < dbits d 7 35 28 + dbits d 7 27 20 ∨ dbits d 7 7 6 = 3
        ∨ dbits d 7 5 4 = 3 ∨ dbits d 7 3 2 = 3)))
  || ((dFunc d 3 || (dFunc d 8 && gen == 2)) && ts.isNone)
  || (dFunc d 3 && (List.range 16).any (fun k => (dbits d 9 29 14).testBit k && detBad (ts.getD []) (dProc d) k))
  || (dFunc d 8 && (gen == 3 || dbits d 10 3 2 == 3 || (gen == 2 && detBad (ts.getD []) (dProc d) (dbits d 10 14 11))))
  || (mixins d).any (fun m => gainBad (wbits m.2 22 12))
  || decide ((dInputs d).eraseDups.length ≠ (dInputs d).length)
  || decide ((enc ≠ 0 ∨ dec = 7) ∧ ((dec = 7 ∧ dbits d 15 10 9 = 3) ∨ (dec ≠ 7 ∧ dbits d 15 10 9 ≠ 0)
        ∨ ((enc = 6 ∨ enc = 7) ∧ 62 ≤ dbits d 15 8 3)))
  || decide (dFunc d 6 ∧ (enc = 0 ∨ (1 ≤ dbits d 16 11 6 ∧ dbits d 16 11 6 ≤ 5) ∨ 40 < dbits d 16 11 6
        ∨ dbits d 16 5 4 = 3 ∨ (wbit (d.getD 17 0) 1 ∧ enc ≠ 7)))
  || decide (enc ≠ 0 ∧ enc < 9 ∧ ((spp48 enc (dbits d 19 35 32)).isNone ∨ balerS (dbits d 20 11 9) = 0
        ∨ (enc = 8 ∧ dbits d 20 8 5 = 0) ∨ boundBad (dbits d 20 11 9) (dbits d 20 8 5)))
  || decide (dFunc d 7 ∧ (dbits d 22 35 34 = 3 ∨ balerS (dbits d 22 33 31) = 0
        ∨ boundBad (dbits d 22 33 31) (dbits d 22 30 27)))
  || (dFunc d 9 && (match Cells.find? (dbits d 23 5 0) c.customs with
        | none => true | some x => !x.mask.testBit (dbits d 23 7 6)))

/-- The checks of cost and state (R95, Table 3.1 word 6). -/
def Chip.costBad (c : Chip) (d : List Word) : Bool :=
  let (ch, sw) := c.cost d
  decide (540000 < ch ∨ 8192 < sw ∨ dbits d 6 35 22 * 16 < sw - 32)

/-- EGRESS fields: TMPLPTR. -/
def dTmpl (d : List Word) : Nat := dbits d 18 33 0

/-- The packet time of the send path in 48 kHz samples. -/
def txSpp (d : List Word) : Nat := (spp48 (dEncoder d) (dbits d 19 35 32)).getD 1

/-- Header octets of a template (Table 4.7). -/
def tmplOcts (t : List Word) : List Octet := (packOut ((t.drop 8).take 24)).take 108

/-- The checks of a header template (R129). -/
def tmplBad (d t : List Word) : Bool :=
  let h := tmplOcts t
  let hdr := dbits t 0 21 15; let ver := dbits t 0 14 13; let l3 := dbits t 0 12 6
  let o (i : Nat) : Nat := beAt h i 1
  decide (hdr < 14 ∨ 108 < hdr ∨ ver = 0 ∨ ver = 3
    ∨ (ver = 1 ∧ (o l3 % 16 < 5 ∨ o (l3 + 9) ≠ 17 ∨ l3 + 4 * (o l3 % 16) + 8 ≠ hdr))
    ∨ (ver = 2 ∧ (o (l3 + 6) ≠ 17 ∨ l3 + 48 ≠ hdr))
    ∨ 2048 < hdr + 12 + maxOct (dEncoder d) (txSpp d) + 4)

/-- The RXP that a command copies: its words and its checks (R111). -/
def Chip.readRxp (c : Chip) (d : List Word) : List Word × Nat :=
  if dSource d ≠ 1 then ([], St.OK)
  else
    let x := if dJbSize d = 0 then List.replicate 4 0 else c.words (dJbPtr d * 16) 4
    (x, St.pick [St.when (dJbSize d ≠ 0 ∧ ¬ c.burstOk (dJbPtr d)) St.UNCORR, St.when (rxpBad d x) St.RANGE])

/-- The template that a command copies: its words and its checks (R129). -/
def Chip.readTmpl (c : Chip) (d : List Word) : List Word × Nat :=
  if dEncoder d = 0 then ([], St.OK)
  else
    let t := c.words (dTmpl d * 16) 32
    (t, St.pick [St.when (¬ c.rangeOk (dTmpl d * 16) 32) St.UNCORR, St.when (tmplBad d t) St.RANGE])

/-- Errors met in the reads of the copies are logged (R420). -/
def Chip.logCopies (d : List Word) (c : Chip) : Chip :=
  let c := c.iff (dSource d == 1 && dJbSize d ≠ 0) (Chip.readLog Src.SKIDDER (dJbPtr d * 16) 4)
  c.iff (dEncoder d ≠ 0) (Chip.readLog Src.SKIDDER (dTmpl d * 16) 32)

/-- The checks of a bus that a descriptor names (R86, R198, R200). -/
def Chip.busStatus (c : Chip) (d : List Word) (b : Nat) : Nat :=
  if ¬ c.busOn b then St.NOTREADY
  else
    let r := c.busRate b
    St.when (r ≠ dProc d ∨ c.busWin b < 4 * (c.period d * r / 48000 + c.busBlock b)) St.RANGE

/-- The bus checks of a descriptor over those that the channel holds claims for (R200, R204). -/
def Chip.busesStatus (c : Chip) (held : List (List Word)) (d : List Word) : Nat :=
  let fresh := (dInputs d).filter (fun b => !(held.flatMap dInputs).contains b)
  St.pick ((dInputs d ++ dReaders d).map (c.busStatus d) ++
    fresh.map (fun b => St.when (64 ≤ c.fld F.chan_BUSGAIN_INPUTS b) St.QUOTA) ++
    [St.when (65536 < c.fld F.chan_MIXINPUTS_INPUTS + fresh.length) St.QUOTA])

/-- The rates of the Kerf lane of a descriptor as codes: Fi and Fo (R137). -/
def dKerfRates (d : List Word) : Nat × Nat := (kerfInCode (rxRate d), kerfOutCode (dProc d))

/-- The checks of a claim of a Kerf lane (R97, R137, R138, R143, R144). -/
def Chip.kerfClaimStatus (c : Chip) (d : List Word) : Nat :=
  let l := dbits d 6 13 0
  let (fi, fo) := dKerfRates d
  St.pick [c.laneStatus l (kerfIn fi) (kerfOut fo) true, St.when (c.owner l ≠ 0) St.BUSY]

/-- Claims of inputs and readers made, or given up (R200, R204). -/
def Chip.claimBuses (up : Bool) (ins rds : List Nat) (c : Chip) : Chip :=
  let c := ins.foldl (fun c b => if up then (c.addTo F.chan_BUSGAIN_INPUTS 1 b).addTo F.chan_MIXINPUTS_INPUTS 1
    else (c.subFrom F.chan_BUSGAIN_INPUTS 1 b).subFrom F.chan_MIXINPUTS_INPUTS 1) c
  rds.foldl (fun c b => if up then c.addTo F.chan_BUSGAIN_READERS 1 b else c.subFrom F.chan_BUSGAIN_READERS 1 b) c

/-- Charge and load counted or released (R89, R93). -/
def Chip.useCharge (up : Bool) (cl charge load : Nat) (c : Chip) : Chip :=
  if up then ((c.addTo F.chan_LUUSE_USE charge).addTo F.chan_CLUSE_USE charge cl).addTo F.chan_DRAMUSE_KBPS load
  else ((c.subFrom F.chan_LUUSE_USE charge).subFrom F.chan_CLUSE_USE charge cl).subFrom F.chan_DRAMUSE_KBPS load

/-- The cluster a channel is placed in (R97, R98): none where no cluster fits. -/
def Chip.placeCluster (c : Chip) (want charge : Nat) : Option Nat :=
  let fits (k : Nat) : Bool := decide (c.fld F.chan_CLUSE_USE k + charge ≤ c.fld F.chan_CLCEIL_CEIL)
  if want = 0xF then
    ((List.range 12).filter fits).foldl (fun b k => match b with
      | none => some k
      | some j => if c.fld F.chan_CLUSE_USE k < c.fld F.chan_CLUSE_USE j then some k else some j) none
  else if fits want then some want else none

/-- Descriptor word 25 of a channel (Table 3.1). -/
def ChanSt.word25 (s : ChanSt) (life : Nat) : Word :=
  wofNat (life * 2 ^ 32 + s.lastStatus * 2 ^ 26 + s.restarts * 65536 + min 65535 s.lag)

/-- The word address of a descriptor (R78). -/
def Chip.descAddr (c : Chip) (ch : Nat) : Nat := c.fld F.chan_DESCBASE_BASE * 16 + 32 * ch

/-- Descriptor words 25 to 27 as the CHAN block writes them for a channel that is in a life-cycle state (Table 3.1). -/
def ChanSt.tail (s : ChanSt) (life : Nat) : List Word :=
  [s.word25 life, wofNat s.lateFrames, wofNat (s.discards * 65536 + min 65535 s.maxLag)]

/-- A command's status stored, with its channel (Table 3.24). -/
def Chip.cmdDone (q : Requester) (ch st : Nat) (c : Chip) : Chip :=
  ((c.putq q F.chan_CMDSTAT_BUSY 0).putq q F.chan_CMDSTAT_STATUS st).putq q F.chan_CMDSTAT_CHANNEL ch

/-- The checks that every command makes (R102, Table 3.23). -/
def Chip.cmdStatus (c : Chip) (ch : Nat) (read : Bool) : Nat :=
  St.pick [St.when (c.fld F.chan_CFG_SLOTS ≤ ch) St.RANGE, St.when (¬ read ∧ c.chanRec) St.NOTREADY]

/-- The status of an ACTIVATE (R82, R92, R95, R97, R101, R102). -/
def Chip.activateStatus (c : Chip) (ch : Nat) (d : List Word) : Nat :=
  let (charge, sw) := c.cost d
  St.pick [c.cmdStatus ch false,
    (c.readRxp d).2, (c.readTmpl d).2,
    St.when (reservedSet d 0xFFFFFF) St.FORMAT,
    St.when (c.fieldBad d ∨ c.costBad d) St.RANGE,
    c.busesStatus [] d,
    if dFunc d 0 then c.kerfClaimStatus d else St.OK,
    St.when (c.base ≠ Md.RUN ∧ c.base ≠ Md.ECO) St.NOTREADY,
    St.when (c.fld F.chan_TQUOTA_CHANNELS (dbits d 0 35 24) < c.fld F.chan_TUSE_CHANNELS (dbits d 0 35 24) + 1
      ∨ c.fld F.chan_LUEFF_CEIL < c.fld F.chan_LUUSE_USE + charge
      ∨ (c.placeCluster (dbits d 0 23 20) charge).isNone
      ∨ c.fld F.chan_DRAMBUDGET_KBPS < c.fld F.chan_DRAMUSE_KBPS + c.dramLoad d sw) St.QUOTA,
    St.when (Cells.find? ch c.chans).isSome St.BUSY]

/-- The staged words of a requester. -/
def Chip.staged (c : Chip) (q : Requester) : List Word := (List.range 24).map (fun w => c.rdq q .chan_STAGE w)

/-- A cluster that receives a charge runs at OPP 0x0, less what the cap and the throttle have lowered it by (R495). -/
def Chip.wakeCluster (cl : Nat) (c : Chip) : Chip :=
  let c := c.ungate cl
  let p := Cells.get 0 cl c.ranger.thrSteps + Cells.get 0 cl c.ranger.capSteps
  (c.put F.ranger_OPP_OPP p cl).modRanger (fun r => { r with
    changing := Cells.erase cl r.changing, idleSince := Cells.erase cl r.idleSince })

/-- An accepted ACTIVATE (Table 3.7, R98, R111, R129, R137, R200, R230). -/
def Chip.admitChannel (ch : Nat) (d : List Word) (c : Chip) : Chip :=
  let (charge, sw) := c.cost d
  let load := c.dramLoad d sw
  let cl := (c.placeCluster (dbits d 0 23 20) charge).getD 0
  let first := c.nextBoundary d (c.mt + c.blockB)
  let s : ChanSt := { life := 1, charge := charge, load := load, tenant := dbits d 0 35 24, cluster := cl, first := first,
                      frame := first, frameLen := c.period d }
  let d0 := d.set 0 (wput (d.getD 0 0) 23 20 cl)
  let (rxp, _) := c.readRxp d
  let (tmpl, _) := c.readTmpl d
  let c := c.resetJb ch d rxp tmpl
  let (j30, j31) := jbStat (c.jb ch)
  let c := c.putWords (c.descAddr ch) (d0.take 24 ++ [wofNat (sw * 2 ^ 22 + charge), s.word25 1, 0, 0, meterOff, meterOff, j30, j31])
  let c := { c with chans := Cells.insert ch s c.chans, fns := Cells.set {} ch {} c.fns }
  let c := ((c.useCharge true cl charge load).addTo F.chan_TUSE_CHANNELS 1 s.tenant).addTo F.chan_ACTIVE_COUNT 1
  let c := c.claimBuses true (dInputs d) (dReaders d)
  let (fi, fo) := dKerfRates d
  let c := c.iff (dFunc d 0) (Chip.ownLane (dbits d 6 13 0) 1 fi fo)
  let c := c.iff (dFunc d 7 && decide (1 ≤ dbits d 22 24 0)) (Chip.putWords (dbits d 21 33 0 * 16) [0, 0, 0, 0])
  c.wakeCluster cl

/-- ACTIVATE (Table 3.8). -/
def Chip.activate (q : Requester) (ch : Nat) (c : Chip) : Chip :=
  let d := c.staged q
  let st := c.activateStatus ch d
  ((c.iff (st == St.UNCORR) (Chip.logCopies d)).iff (st == St.OK) (Chip.admitChannel ch d)).cmdDone q ch st

/-- The staged words of an UPDATE put into a descriptor. -/
def UpdSt.into (d : List Word) (u : UpdSt) : List Word := u.words.foldl (fun d p => d.set p.1 p.2) d

/-- A descriptor, and what each of the waiting UPDATEs will make of it, in order. -/
def descsAfter (d : List Word) : List UpdSt → List (List Word)
  | [] => [d]
  | u :: r => d :: descsAfter (u.into d) r

/-- The descriptors that a channel holds claims for: the stored one, and what each accepted UPDATE will make of it
(R93, R200). A Kerf lane, a mix input and a reader are claimed once for all of them. -/
def Chip.heldDescs (c : Chip) (ch : Nat) : List (List Word) :=
  match Cells.find? ch c.chans with
  | none => []
  | some s => descsAfter (c.desc ch) s.update

/-- The descriptor as the last accepted command leaves it: the stored one with every accepted UPDATE. -/
def Chip.latestDesc (c : Chip) (ch : Nat) : List Word :=
  match Cells.find? ch c.chans with
  | none => c.desc ch
  | some s => s.update.foldl UpdSt.into (c.desc ch)

/-- Fields that UPDATE must not change, as (word, hi, lo) (R93). -/
def fixedFields : List (Nat × Nat × Nat) :=
  [(0, 35, 24), (0, 23, 20), (0, 18, 16), (1, 32, 30), (1, 29, 28), (1, 27, 24), (2, 17, 13), (2, 12, 8), (2, 7, 0),
   (3, 33, 0), (4, 33, 0), (6, 35, 22), (6, 13, 0)]

/-- The words of a staged UPDATE, by index. -/
def pickWords (mask : Nat) (ws : List Word) : List (Nat × Word) := (ws.zipIdx).filterMap (fun p =>
  if mask.testBit p.2 then some (p.2, p.1) else none)

/-- The RXP is copied by this UPDATE (R111). -/
def copiesRxp (d : List Word) (mask : Nat) : Bool := dSource d == 1 && (mask.testBit 1 || mask.testBit 5)

/-- The template is copied by this UPDATE (R129). -/
def copiesTmpl (d : List Word) (mask : Nat) : Bool :=
  dEncoder d ≠ 0 && (mask.testBit 1 || mask.testBit 18 || mask.testBit 19 || mask.testBit 20)

/-- The checks of a Kerf lane by an UPDATE (R93, R97, R137, R143): a claim where the channel holds none; where it holds
the lane, its rates, which a change of DECODER may have moved.
[DEDUCED, log entry 145: unsafe] -/
def Chip.kerfUpdateStatus (c : Chip) (held : List (List Word)) (d : List Word) : Nat :=
  if !dFunc d 0 then St.OK
  else if !held.any (dFunc · 0) then c.kerfClaimStatus d
  else
    let (fi, fo) := dKerfRates d
    c.laneStatus (dbits d 6 13 0) (kerfIn fi) (kerfOut fo) true

/-- The status of an UPDATE (R82, R92, R93, R97, R102, R200): the checks of its words come before NOTREADY (R39). An UPDATE that
gives DECODER another stream rate while FUNC.KERF stays 1 is checked with the lane's new rates as a claim is.
[DEDUCED, log entry 145: unsafe] -/
def Chip.updateStatus (c : Chip) (ch : Nat) (ws : List Word) (mask : Nat) : Nat :=
  let s? := (Cells.find? ch c.chans).filter (fun s => s.life ≠ 4)
  let old := c.latestDesc ch
  let held := c.heldDescs ch
  let d := (pickWords mask ws).foldl (fun d p => d.set p.1 p.2) old
  let (q0, w0) := c.cost old
  let (q1, w1) := c.cost d
  let l0 := c.dramLoad old w0; let l1 := c.dramLoad d w1
  if mask = 0 then St.pick [c.cmdStatus ch false, St.when s?.isNone St.NOTREADY]
  else St.pick [c.cmdStatus ch false,
    if copiesRxp d mask then (c.readRxp d).2 else St.OK,
    if copiesTmpl d mask then (c.readTmpl d).2 else St.OK,
    St.when (reservedSet ws mask) St.FORMAT,
    St.when (c.fieldBad d ∨ c.costBad d) St.RANGE,
    St.when (fixedFields.any (fun f => dbits d f.1 f.2.1 f.2.2 ≠ dbits old f.1 f.2.1 f.2.2)) St.RANGE,
    c.busesStatus held d,
    c.kerfUpdateStatus held d,
    match s? with
    | none => St.NOTREADY
    | some s => St.when ((q0 < q1 ∧ (c.fld F.chan_LUEFF_CEIL < c.fld F.chan_LUUSE_USE + (q1 - q0)
            ∨ c.fld F.chan_CLCEIL_CEIL < c.fld F.chan_CLUSE_USE s.cluster + (q1 - q0)))
          ∨ (l0 < l1 ∧ c.fld F.chan_DRAMBUDGET_KBPS < c.fld F.chan_DRAMUSE_KBPS + (l1 - l0))) St.QUOTA]

/-- A flush that the copy of an RXP brings (R111). -/
def flushes (old d : List Word) (x0 x1 : List Word) : Bool :=
  decide (rxPtime x0 ≠ rxPtime x1 ∨ rxChans x0 ≠ rxChans x1 ∨ rxFree x0 ≠ rxFree x1 ∨ rxOff x0 ≠ rxOff x1
    ∨ rxSsrcChk x0 ≠ rxSsrcChk x1 ∨ rxSsrc x0 ≠ rxSsrc x1 ∨ dDecoder old ≠ dDecoder d ∨ dJbSize old ≠ dJbSize d)

/-- The RXP in force after the accepted UPDATEs. -/
def Chip.latestRxp (c : Chip) (ch : Nat) : List Word :=
  match Cells.find? ch c.chans with
  | none => (c.jb ch).rxp
  | some s => s.update.foldl (fun x u => match u.rxp with | some (y, _) => y | none => x) (c.jb ch).rxp

/-- An accepted UPDATE (R93, R111, R129, R136, R200): raises and claims at once, the rest at the boundary.
[DEDUCED, log entry 107: unsafe] [DEDUCED, log entry 120: unsafe] -/
def Chip.takeUpdate (ch : Nat) (ws : List Word) (mask : Nat) (c : Chip) : Chip :=
  match Cells.find? ch c.chans with
  | none => c
  | some s =>
    let old := c.latestDesc ch
    let held := c.heldDescs ch
    let picked := pickWords mask ws
    let d := picked.foldl (fun d p => d.set p.1 p.2) old
    let (q0, w0) := c.cost old
    let (q1, w1) := c.cost d
    let l0 := c.dramLoad old w0; let l1 := c.dramLoad d w1
    let b := if s.life = 1 then s.first else c.nextBoundary d (c.mt + 1)
    let (x1, _) := c.readRxp d
    let rxp := if copiesRxp d mask then some (x1, flushes old d (c.latestRxp ch) x1) else none
    let tmpl := if copiesTmpl d mask then some (c.readTmpl d).1 else none
    let u : UpdSt := { words := picked, at_ := b, stateWords := w1, charge := q1, dropCharge := q0 - q1, dropLoad := l0 - l1, rxp := rxp, tmpl := tmpl }
    let c := (c.useCharge true s.cluster (q1 - q0) (l1 - l0)).modChan ch (fun s =>
      { s with update := s.update ++ [u], charge := s.charge + (q1 - q0), load := s.load + (l1 - l0) })
    let c := c.claimBuses true ((dInputs d).filter (fun x => !(held.flatMap dInputs).contains x))
      ((dReaders d).filter (fun x => !(held.flatMap dReaders).contains x))
    let (fi, fo) := dKerfRates d
    c.iff (dFunc d 0 && !held.any (dFunc · 0)) (Chip.ownLane (dbits d 6 13 0) 1 fi fo)

/-- UPDATE (Table 3.8).
[DEDUCED, log entry 120: unsafe] -/
def Chip.update (q : Requester) (ch : Nat) (c : Chip) : Chip :=
  let mask := c.fldq q F.chan_STAGEMASK_WORDS
  let ws := c.staged q
  let st := c.updateStatus ch ws mask
  let c := c.iff (st == St.UNCORR) (Chip.logCopies ((c.latestDesc ch).zipIdx.map (fun p =>
    if mask.testBit p.2 then ws.getD p.2 p.1 else p.1)))
  (c.iff (st == St.OK && mask ≠ 0) (Chip.takeUpdate ch ws mask)).cmdDone q ch st

/-- CHAN.ACTIVE fell: FAULT.EVENT.DRAINED sets in DRAIN when it reaches 0 (R479). -/
def Chip.checkDrained (c : Chip) : Chip :=
  c.iff (c.base == Md.DRAIN && c.fld F.chan_ACTIVE_COUNT == 0) (Chip.faultEvent F.fault_EVENT_DRAINED)

/-- A channel becomes IDLE (Table 3.7): charge, load, tenant use, Kerf lane, inputs and readers released. -/
def Chip.idle (ch : Nat) (c : Chip) : Chip :=
  match Cells.find? ch c.chans with
  | none => c
  | some s =>
    let held := c.heldDescs ch
    let lane := dbits (c.desc ch) 6 13 0
    let c := (c.useCharge false s.cluster s.charge s.load).subFrom F.chan_TUSE_CHANNELS 1 s.tenant
    let c := c.claimBuses false (held.flatMap dInputs).eraseDups (held.flatMap dReaders).eraseDups
    let c := c.iff (held.any (dFunc · 0)) (Chip.freeLane lane)
    let c := { c with chans := Cells.erase ch c.chans, jbs := Cells.erase ch c.jbs, fns := Cells.erase ch c.fns }
    (c.subFrom F.chan_ACTIVE_COUNT 1).checkDrained

/-- No further release of a channel's item is made: one that waits is removed, one in flight is the last. -/
def Chip.stopReleases (ch : Nat) (c : Chip) : Chip :=
  match Cells.find? ch c.slots with
  | none => c
  | some s =>
    if s.stage = SlotStage.delayed ∨ s.stage = SlotStage.held then
      (if c.writingBack ch then c.modSlot ch (fun s => { s with stage := .ended, cancelled := true }) else c.freeSlot ch)
    else c.modSlot ch (fun s => { s with cancelled := true })

/-- DEACTIVATE (Tables 3.7 and 3.8). -/
def Chip.deactivate (q : Requester) (ch : Nat) (c : Chip) : Chip :=
  let life := match Cells.find? ch c.chans with | some s => s.life | none => 0
  let st := St.pick [c.cmdStatus ch false, St.when (life = 0 ∨ life = 4) St.NOTREADY]
  let go (c : Chip) : Chip :=
    if life = 2 then
      let last := c.frameStartOf (c.desc ch) c.mt
      c.modChan ch (fun s => { s with life := 4, lastFrame := max last s.frame })
    else
      let c := match Cells.find? ch c.chans with
        | some s => c.putWords (c.descAddr ch + 25) (s.tail 0)
        | none => c
      let c := c.stopReleases ch
      c.idle ch
  (c.iff (st == St.OK) go).cmdDone q ch st

/-- The jitter buffer is reset on entry into RESTARTING (R90, R126). -/
def Chip.enterRestart (ch : Nat) (c : Chip) : Chip :=
  let j := c.jb ch
  c.resetJb ch (c.desc ch) j.rxp j.tmpl

/-- What the item in flight at a RESTART made of the playout and packetise state is reset again when the channel goes on
(R90, R126, R127, R130, R135); cells, depth, reference, SSRC and the counts of arrivals have stood since RESTARTING began. -/
def JbSt.restartWork (j : JbSt) : JbSt :=
  { j with
    concealing := 0, fadeLeft := 0, lastPlayed := [], rep := [], packet := none, concealed := 0, txdrops := 0
    mark := true, txBuf := [], txPkts := 0, txOcts := 0, rxPriorExp := 0, rxPriorCount := 0
    dec722 := {}, enc722 := {} }

/-- RESTART (Tables 3.7 and 3.8): the next item is not released. -/
def Chip.restart (q : Requester) (ch : Nat) (c : Chip) : Chip :=
  let life := match Cells.find? ch c.chans with | some s => s.life | none => 0
  let st := St.pick [c.cmdStatus ch false, St.when (life ≠ 2) St.NOTREADY]
  let go (c : Chip) : Chip :=
    let next := (c.mt / c.blockB + 1) * c.blockB
    let c := c.modChan ch (fun s => { s with life := 3, restarts := min 1023 (s.restarts + 1), first := next })
    let c := c.stopReleases ch
    c.enterRestart ch
  (c.iff (st == St.OK) go).cmdDone q ch st

/-- READ (Table 3.8): the 32 words to the requester's readback.
[DEDUCED, log entry 108: unsafe] -/
def Chip.readDesc (q : Requester) (ch : Nat) (c : Chip) : Chip :=
  let st := St.pick [c.cmdStatus ch true, St.when (¬ c.rangeOk (c.descAddr ch) 32) St.UNCORR]
  let go (c : Chip) : Chip := forRange 32 (fun w c => c.wrq q .chan_READBACK (c.descWord ch w) w) c
  ((c.iff (st == St.UNCORR) (Chip.readLog Src.SKIDDER (c.descAddr ch) 32)).iff (st == St.OK) go).cmdDone q ch st

/-- A write of CHAN.CMD (Table 3.23): the command of OP, or RANGE. -/
def Chip.chanCmd (q : Requester) (v : Word) (c : Chip) : Chip :=
  let ch := wbits v 14 0
  let op := wbits v 35 32
  let c := (c.putq q F.chan_CMD_OP op).putq q F.chan_CMD_CHANNEL ch
  if op = 1 then c.activate q ch else if op = 2 then c.update q ch else if op = 3 then c.deactivate q ch
  else if op = 4 then c.restart q ch else if op = 5 then c.readDesc q ch
  else c.cmdDone q ch St.RANGE

/-- The item of a channel for a frame that begins at f (R87, R274). -/
def Chip.placeChannel (ch f : Nat) (c : Chip) : Chip :=
  match Cells.find? ch c.chans with
  | none => c
  | some s =>
    let p := c.period (c.desc ch)
    c.placeItem ch (wofNat (s.cluster * 2 ^ 32 + Config.chainEntry % 2 ^ 19)) (wofNat (2 ^ 34 + ch))
      (wofNat ((f + 2 * p) * 16)) (wofNat (ch * 2 ^ 20 + 16 * p % 2 ^ 19))

/-- At its first frame boundary a PENDING channel becomes ACTIVE and its state area is initialised, with values the
spec does not lay out (Table 3.7, R91).
[DEDUCED, log entry 120: unsafe] -/
def Chip.firstFrame (ch : Nat) (c : Chip) : Chip :=
  match Cells.find? ch c.chans with
  | none => c
  | some s =>
    if s.life ≠ 1 ∨ c.mt < s.first ∨ c.chanRec ∨ (Cells.find? ch c.slots).isSome then c
    else
      let d := c.desc ch
      let n := dbits d 24 35 22 - 32
      let free := (List.range n).map (fun i => wofNat (Config.freeNat (c.draws + i)))
      let c := { c with draws := c.draws + n }
      let c := c.putWords (dbits d 3 33 0 * 16) free
      let c := c.modChan ch (fun s => { s with life := 2, frame := s.first, frameLen := c.period d, ramp := true })
      c.placeChannel ch s.first

/-- At the next block boundary a RESTARTING channel becomes ACTIVE with reset state (R90). -/
def Chip.resumeRestart (ch : Nat) (c : Chip) : Chip :=
  match Cells.find? ch c.chans with
  | none => c
  | some s =>
    if s.life ≠ 3 ∨ c.mt < s.first ∨ c.chanRec ∨ (Cells.find? ch c.slots).isSome then c
    else
      let d := c.desc ch
      let p := c.period d
      let e := c.nextBoundary d (s.first + 1)
      let c := c.modChan ch (fun s => { s with life := 2, frame := s.first, frameLen := e - s.first, lag := 0, muted := true, ramp := false })
      let frames := (Cells.get {} ch c.fns).frames
      let c := { c with fns := Cells.set {} ch { frames := frames, cleared := true } c.fns }
      let c := c.modJb ch JbSt.restartWork
      let c := c.iff (dFunc d 0) (Chip.clearLane (dbits d 6 13 0))
      c.placeChannel ch (e - p)

/-- The detectors of a tone set whose enable, set or parameters an UPDATE changes restart from idle (R173), and a
function that it enables or disables starts from its initial state (R93). -/
def FnSt.applyUpdate (old d : List Word) (reset : Bool) (f : FnSt) : FnSt :=
  let w (n hi lo : Nat) : Bool := dbits old n hi lo == dbits d n hi lo
  let tones := dFunc old 3 == dFunc d 3
  let sameSet := tones && w 9 35 30
  let f := { f with dets := f.dets.filter (fun p =>
    if p.1 = 0 then tones && (dFunc old 4 == dFunc d 4) && w 10 17 17
    else if p.1 ≤ 16 then sameSet && w 9 (13 + p.1) (13 + p.1)
    else tones && w 9 13 13) }
  let f := if tones && w 9 12 12 && w 9 11 0 && w 10 35 30 then f else { f with silRun := 0, silFrom := 0, silOn := false }
  let ecDue := reset || (dFunc old 1 && dFunc d 1 && (!(w 7 35 28 && w 7 27 20) || dFunc old 2 != dFunc d 2)) || dFunc old 1 != dFunc d 1
  let f := if ecDue then { f with ec := 0, nlpOff := false } else f
  let f := if dFunc old 6 != dFunc d 6 then { f with ifbE := 0, ifbKey := false, ifbCount := 0 } else f
  f

/-- D_cur's target after an UPDATE that changes DEPTH, DMIN or ADAPTIVE (R119). -/
def JbSt.newTarget (d : List Word) (j : JbSt) : JbSt :=
  if dAdaptive d then { j with target := min (dDepth d) (max (rxDmin j.rxp) j.target) }
  else { j with target := dDepth d }

/-- Packetise state after an UPDATE that changes ENCODER (R93, R127): the samples of an unfinished packet are discarded, and
a send path that is enabled or disabled counts from zero. -/
def JbSt.newEncoder (old d : List Word) (j : JbSt) : JbSt :=
  let j := { j with txBuf := [], enc722 := {} }
  if dEncoder old = 0 ∨ dEncoder d = 0 then { j with txPkts := 0, txOcts := 0 } else j

/-- An accepted UPDATE is written into the descriptor at its boundary, after the write-back of the item whose frame
ends there (R93, R111, R119, R129, R136, R171, R173, R200, R282).
[DEDUCED, log entry 107: unsafe] [DEDUCED, log entry 120: unsafe] [DEDUCED, log entry 145: unsafe] -/
def Chip.applyUpdate (ch : Nat) (c : Chip) : Chip :=
  match Cells.find? ch c.chans with
  | none => c
  | some s => match s.update with
    | [] => c
    | u :: rest =>
      if c.mt < u.at_ ∨ s.frame < u.at_ ∨ c.writingBack ch ∨ c.chanRec then c
      else
        let old := c.desc ch
        let d := u.words.foldl (fun d p => d.set p.1 p.2) old
        let c := u.words.foldl (fun c p => c.putWord (c.descAddr ch + p.1) p.2) c
        let c := c.putWord (c.descAddr ch + 24) (wofNat (u.stateWords * 2 ^ 22 + u.charge))
        let c := (c.useCharge false s.cluster u.dropCharge u.dropLoad).modChan ch (fun s =>
          { s with update := rest, charge := s.charge - u.dropCharge, load := s.load - u.dropLoad })
        let left := descsAfter d rest
        let c := c.claimBuses false ((dInputs old).filter (fun b => !(left.flatMap dInputs).contains b))
          ((dReaders old).filter (fun b => !(left.flatMap dReaders).contains b))
        let lane := dbits old 6 13 0
        let rateNew := dFunc d 0 && decide (c.fld F.kerf_LRATE_INRATE lane ≠ (dKerfRates d).1)
        let c := c.iff (dFunc old 0 && !left.any (dFunc · 0)) (Chip.freeLane lane)
        let c := c.iff rateNew (Chip.rateLane lane (dKerfRates d).1)
        let c := c.iff (rateNew || (dFunc d 0 && !dFunc old 0)) (Chip.clearLane lane)
        let x0 := (c.jb ch).rxp
        let c := match u.rxp with
          | none => c
          | some (x, fl) =>
            let c := c.modJb ch (fun j => { j with rxp := x })
            if fl then (c.modJb ch (fun j => { j with rtpoff := rxOff x })).flushJb ch d else c
        let x1 := (c.jb ch).rxp
        let fl := match u.rxp with | some (_, b) => b | none => false
        let deeper := dDepth old ≠ dDepth d ∨ dAdaptive old ≠ dAdaptive d ∨ (dSource d = 1 ∧ rxDmin x0 ≠ rxDmin x1)
        let c := c.iff (!fl && decide deeper && dSource d == 1) (Chip.modJb ch (JbSt.newTarget d))
        let c := c.iff (decide (2 ≤ dSource d)) (Chip.modJb ch (JbSt.startDepth d))
        let c := c.iff (decide (dDecoder old ≠ dDecoder d)) (Chip.modJb ch (fun j => { j with dec722 := {} }))
        let c := c.iff (decide (dEncoder old ≠ dEncoder d)) (Chip.modJb ch (JbSt.newEncoder old d))
        let eg := u.words.any (fun p => p.1 = 18 ∨ p.1 = 19 ∨ p.1 = 20)
        let c := c.modJb ch (fun j => { j with tmpl := u.tmpl.getD j.tmpl, mark := j.mark || eg })
        let reset := u.words.any (fun p => p.1 = 8 ∧ wbit p.2 34)
        { c with fns := Cells.modify {} ch (FnSt.applyUpdate old d reset) c.fns }

/-- RECOVERY of the channel domain begins (Table 3.7, R89, R90): ACTIVE and RESTARTING channels restart, STOPPING
ones become IDLE.
[DEDUCED, log entry 120: unsafe] -/
def Chip.recoverChan (c : Chip) : Chip :=
  c.chans.foldl (fun c p =>
    let ch := p.1
    if p.2.life = 4 then
      let s := { p.2 with discards := min (2 ^ 20 - 1) (p.2.discards + 1), lastStatus := St.DISCARDED }
      (c.putWords (c.descAddr ch + 25) (s.tail 0)).idle ch
    else if p.2.life = 2 ∨ p.2.life = 3 then
      (c.modChan ch (fun s => { s with life := 3, discards := min (2 ^ 20 - 1) (s.discards + 1), lastStatus := St.DISCARDED })).enterRestart ch
    else c) c

/-- RECOVERY of the channel domain completes: RESTARTING channels go on at the first block boundary after it, and a
PENDING one whose boundary has passed at its next frame boundary (R90, Table 3.7).
[DEDUCED, log entry 120: unsafe] -/
def Chip.resumeChan (c : Chip) : Chip :=
  let next := (c.mt / c.blockB + 1) * c.blockB
  c.chans.foldl (fun c p =>
    if p.2.life = 3 then c.modChan p.1 (fun s => { s with first := next })
    else if p.2.life = 1 ∧ p.2.first ≤ c.mt then
      let b := c.nextBoundary (c.desc p.1) (c.mt + 1)
      c.modChan p.1 (fun s => { s with first := b, frame := b })
    else c) c

/-- An uncorrectable error in a channel's state or descriptor, a channel-local fault (Table 3.7, R481): RESTARTING. -/
def Chip.chanUncorr (ch : Nat) (c : Chip) : Chip :=
  match Cells.find? ch c.chans with
  | none => c
  | some s =>
    let c := (c.bump F.fault_CNT_COUNT 1 1).faultEvent F.fault_EVENT_LOCAL
    if s.life = 4 then (c.putWords (c.descAddr ch + 25) (s.tail 0)).idle ch
    else if s.life = 2 then
      let next := (c.mt / c.blockB + 1) * c.blockB
      (c.modChan ch (fun s => { s with life := 3, first := next, discards := min (2 ^ 20 - 1) (s.discards + 1), restarts := min 1023 (s.restarts + 1), lastStatus := St.UNCORR })).enterRestart ch
    else c

end Sys2Proof.Machine
end

