-- ==== Sys2Proof/Machine/Signal.lean ====
section
/-! DEFINITION. Levels in dBFS, sines, and the measures of tones in a window of samples that the canceller, the detectors
and the generator are stated by (R158, R168, R176 to R180). -/
namespace Sys2Proof.Machine

open Sys2Proof

/-! ## Levels: 0 dBFS is the RMS of a sine of peak 2^32, so its power is 2^63 -/

/-- floor(n * 10^(-k / 20)), exactly. -/
def dbFloor (k n : Nat) : Nat := bisect (fun m => decide (m ^ 20 * 10 ^ k ≤ n ^ 20)) (n.log2 + 1) 0

/-- floor(x * 10^(-k / 20)) of an integer, exactly.
[DEDUCED, log entry 30: unsafe] -/
def dbFloorInt (k : Nat) (x : Int) : Int :=
  if 0 ≤ x then dbFloor k x.toNat
  else
    let n := x.natAbs
    let m := dbFloor k n
    if m ^ 20 * 10 ^ k = n ^ 20 then -(m : Int) else -(m + 1 : Nat)

/-- The energy of samples: the sum of their squares. -/
def energy (xs : List Int) : Nat := xs.foldl (fun m x => m + x.natAbs * x.natAbs) 0

/-- The largest magnitude among samples. -/
def peakOf (xs : List Int) : Nat := xs.foldl (fun m x => max m x.natAbs) 0

/-- The RMS level of samples is below -db dBFS, where 0 dBFS is the RMS of a full-scale sine (R179).
[DESIGN CHOICE, log entry 24: unsafe] -/
def belowDb (xs : List Int) (db : Nat) : Bool :=
  decide ((2 * energy xs) ^ 10 * 10 ^ db < (xs.length * 2 ^ 64) ^ 10)

/-- A power is at or above -db dBFS. -/
def atLevel (p db : Nat) : Bool := decide ((2 ^ 63) ^ 10 ≤ p ^ 10 * 10 ^ db)

/-- A power is at least db decibels above another. -/
def aboveBy (p q db : Nat) : Bool := decide (q ^ 10 * 10 ^ db ≤ p ^ 10)

/-- A power is at or below -db dBFS. -/
def upToLevel (p db : Nat) : Bool := decide (p ^ 10 * 10 ^ db ≤ (2 ^ 63) ^ 10)

/-- A power is at most db decibels above another. -/
def upToBy (p q db : Nat) : Bool := decide (p ^ 10 ≤ q ^ 10 * 10 ^ db)

/-- The largest v below 256 for which a power lies at or below -v / 2 dBFS (Table 6.9). -/
def halfDbs (p : Nat) : Nat := bisect (fun v => decide (p ^ 20 * 10 ^ v ≤ (2 ^ 63) ^ 20)) 8 0

/-- The largest v below 256 for which one power is v / 2 dB above another (Table 6.9). -/
def ratioHalfDbs (p q : Nat) : Nat := bisect (fun v => decide (q ^ 20 * 10 ^ v ≤ p ^ 20)) 8 0

/-! ## Sines -/

/-- Pi in units of 2^-60. -/
def piQ : Nat := 3622009729038561421

/-- The series of the sine, from its term k inwards; x2 is the square of the angle and everything is in 2^-60. -/
def sineSeries (x2 : Int) : Nat → Int → Int
  | 0, s => s
  | k + 1, s => sineSeries x2 k (2 ^ 60 - x2 * s / 2 ^ 60 / ((2 * (k + 1)) * (2 * (k + 1) + 1) : Nat))

/-- The sine of an angle from 0 to a quarter turn, both in 2^-60. -/
def sineQuarter (a : Int) : Int := a * sineSeries (a * a / 2 ^ 60) 13 (2 ^ 60) / 2 ^ 60

/-- The sine of num / den turns, in 2^-40. -/
def sinTurn (num den : Nat) : Int :=
  let r := num % den
  let q := 4 * r / den
  let m := 4 * r % den
  let m := if q % 2 = 1 then den - m else m
  let s := roundShift 20 (sineQuarter (m * piQ / (2 * den) : Nat))
  if q < 2 then s else -s

/-- The cosine of num / den turns, in 2^-40. -/
def cosTurn (num den : Nat) : Int := sinTurn (4 * num + den) (4 * den)

/-! ## Tones in a window

A window is weighted by sin^2 over its length, so that the tones of a pair are told apart. -/

/-- The weight of place i of n, in 2^-20. -/
def weight (n i : Nat) : Nat := ((2 ^ 40 - cosTurn (2 * i + 1) (2 * n)) / 2 ^ 21).toNat

/-- A window under its weights, and their sum.
[DESIGN CHOICE, log entry 24: unsafe] -/
def weighted (win : List Int) : List Int × Nat :=
  let w : List Nat := (List.range win.length).map (weight win.length)
  ((win.zip w).map (fun (p : Int × Nat) => p.1 * (p.2 : Int)), max 1 w.sum)

/-- The mean power of a window. -/
def windowPower (win : List Int) : Nat :=
  let y := weighted win
  ((win.zip y.1).foldl (fun (m : Int) p => m + p.1 * p.2) 0).toNat / y.2

/-- The phasor of a weighted window at a frequency in 0.1 Hz, phase counted from sample index n0: the amplitudes of cosine
and sine. -/
def phasor (rate n0 : Nat) (y : List Int × Nat) (f : Nat) : Int × Int :=
  let (c, s) := (y.1.zipIdx).foldl (fun (t : Int × Int) p =>
    (t.1 + p.1 * cosTurn (f * (n0 + p.2)) (10 * rate), t.2 + p.1 * sinTurn (f * (n0 + p.2)) (10 * rate))) (0, 0)
  let d : Int := (y.2 * 2 ^ 39 : Nat)
  (c / d, s / d)

/-- The power of the tone of a frequency in 0.1 Hz in a weighted window. -/
def tonePower (rate : Nat) (y : List Int × Nat) (f : Nat) : Nat :=
  let p := phasor rate 0 y f
  (p.1 * p.1 + p.2 * p.2).toNat / 2

/-- The best of n frequencies a step apart. -/
def bestOf (rate : Nat) (y : List Int × Nat) (lo step n : Nat) : Nat :=
  ((List.range n).foldl (fun (t : Nat × Nat) i =>
    let p := tonePower rate y (lo + i * step)
    if t.2 < p then (lo + i * step, p) else t) (lo, 0)).1

/-- The frequency, in 0.1 Hz from lo to hi, at which a weighted window has the most power: by steps of 10, 1 and 0.1 Hz. -/
def peakTone (rate : Nat) (y : List Int × Nat) (lo hi : Nat) : Nat :=
  let f := bestOf rate y lo 100 ((hi - lo) / 100 + 1)
  let f := bestOf rate y (f - 100) 10 21
  bestOf rate y (f - 10) 1 21

/-- A frequency lies within a distance of another. -/
def within (f f0 d : Nat) : Bool := decide (f ≤ f0 + d ∧ f0 ≤ f + d)

/-- The tone that dominates a window of a channel: its frequency in 0.1 Hz, its power, and that of the rest. -/
def mainTone (rate : Nat) (win : List Int) : Nat × Nat × Nat :=
  let y := weighted win
  let f := peakTone rate y 500 (5 * rate - 500)
  let p := tonePower rate y f
  (f, p, windowPower win - p)

end Sys2Proof.Machine
end

