-- ==== Sys2Proof/Machine/Echo.lean ====
section
/-! DEFINITION. The line echo canceller over a frame (R158 to R172): the filter, double talk, the NLP with its comfort
noise, the tone disabler, and the states of Table 6.3. What the spec gives by limits alone (how the filter adapts, how
bands are split and estimated, the noise itself) are constants of Config, of the samples that they depend on. -/
namespace Sys2Proof.Machine

open Sys2Proof

/-- The state of a channel's functions. -/
def Chip.fn (c : Chip) (ch : Nat) : FnSt := Cells.get {} ch c.fns

/-- A channel's function state changed. -/
def Chip.modFn (ch : Nat) (f : FnSt → FnSt) (c : Chip) : Chip := { c with fns := Cells.modify {} ch f c.fns }

/-- An event of the canceller: the hop end, its type, and INDEX and LEVEL where the spec states them. -/
structure EcEvent where
  at_ : Nat
  ty : Nat
  index : Option Nat := none
  level : Option Nat := none
  deriving DecidableEq, Repr

/-- TAILMS in samples (R158). -/
def ecTail (d : List Word) : Nat := dbits d 7 35 28 * dProc d / 1000

/-- BULKMS in samples (R158). -/
def ecBulk (d : List Word) : Nat := dbits d 7 27 20 * dProc d / 1000

/-! ## Reference and error (R158) -/

/-- ref at a sample index at PROCRATE: zero before the first send output and where none has been produced. -/
def EchoSt.refAt (s : EchoSt) (n : Int) : Int :=
  let i := n - ((s.refEnd : Int) - (s.ref.length : Int))
  if 0 ≤ i then s.ref.getD i.toNat 0 else 0

/-- The send signal of a frame joined to the reference, from sample index n on; 330 ms of it are kept, which the longest
window, frame and launch offset need. -/
def EchoSt.addRef (rate n : Nat) (xs : List Int) (s : EchoSt) : EchoSt :=
  let all := (if s.refEnd = n then s.ref else []) ++ xs
  { s with ref := all.drop (all.length - rate * 330 / 1000), refEnd := n + xs.length }

/-- saturate36(x - est(s)) at a sample index (R158, R184). -/
def EchoSt.error (s : EchoSt) (bulk n : Nat) (x : Int) : Int :=
  sat36 (roundShift 32 (x * 2 ^ 32 - ((s.h.zipIdx).map (fun p => p.1 * s.refAt ((n : Int) - (bulk : Int) - (p.2 : Int)))).sum))

/-- The reference over the modelled window of the samples from index n0 to n: all that their estimates read, or with no taps
the reference at BULK.
[DESIGN CHOICE, log entry 23: safe] -/
def EchoSt.window (s : EchoSt) (bulk tail n0 n : Nat) : List Int :=
  (List.range (n - n0 + (tail - 1))).map (fun i => s.refAt ((n0 : Int) - (bulk : Int) - ((tail - 1 : Nat) : Int) + (i : Int)))

/-! ## Figures (R166, R172) -/

/-- A column of Table 6.4: convergence in ms, steady ERLE, level of the residual echo, ERLE loss after double talk, and
recovery in ms. -/
structure EcFigures where
  converge : Nat
  erle : Nat
  residual : Nat
  loss : Nat
  recover : Nat
  deriving DecidableEq, Repr

/-- Table 6.4, and STEP's part in it (R166). -/
def ecFigures (d : List Word) : EcFigures :=
  let t : EcFigures := if dFunc d 2 then ⟨300, 25, 60, 4, 300⟩ else if dProc d = 48000 then ⟨700, 32, 68, 3, 700⟩
    else ⟨500, 35, 68, 3, 500⟩
  match dbits d 7 3 2 with
  | 1 => { t with converge := t.converge * 6 / 10, erle := t.erle - 3 }
  | 2 => { t with converge := t.converge * 2, loss := 1 }
  | _ => t

/-- How far in dB the error lies below the receive signal under the conditions of R172, where they hold: the path loses 6 dB
of the combined loss of 27 dB.
[DESIGN CHOICE, log entry 23: safe] -/
def ecReach (d : List Word) (talk : Nat) (t : Nat × Nat) : Option Nat :=
  let g := ecFigures d
  match t.1 with
  | 1 => if g.converge ≤ 4 * talk then some 21 else none
  | 2 => some g.erle
  | 3 => some (g.erle - g.loss)
  | 4 => if g.recover ≤ t.2 then some (g.erle - 3) else none
  | _ => none

/-- A sample held within a magnitude. -/
def clampTo (b : Nat) (x : Int) : Int := max (-(b : Int)) (min (b : Int) x)

/-! ## NLP and comfort noise (R164, R165, R167) -/

/-- A sample of comfort noise at an MT (R165): none in mode 2. -/
def comfort (ch : Nat) (d : List Word) (m : Nat) (bands : List Int) : Int :=
  let mode := dbits d 7 5 4
  if mode = 2 then 0 else sat36 (Config.comfortNoise ch m mode (signed 6 (dbits d 8 32 27)) bands)

/-- The adaptive NLP on a sample (R164): each of 16 bands attenuated, by at most 40 dB, or 30 dB in acoustic mode, and the
attenuated energy replaced by noise. The last band is what the others leave of the sample.
[DESIGN CHOICE, log entry 23: safe] -/
def EchoSt.nlpBands (s : EchoSt) (d : List Word) (win : List Int) (noise y : Int) : Int :=
  let att (i : Nat) : Nat := min (if dFunc d 2 then 300 else 400) (Config.bandExcess i s.h win s.bands)
  let parts := (List.range 15).map (fun i => Config.bandPart i (s.err ++ [y]))
  let parts := parts ++ [y - parts.sum]
  if (List.range 16).all (fun i => att i == 0) then y
  else sat36 (roundShift 32 ((parts.zipIdx.map (fun p => p.1 * (gainFactor (-(att p.2 : Int)) : Int))).sum + noise * 2 ^ 32))

/-- The share of the NLP in a sample, as a fraction (R164): full within 2 ms of the start of single talk, and released
linearly over 1 ms after its end.
[DESIGN CHOICE, log entry 23: safe] -/
def EchoSt.nlpShare (s : EchoSt) (rate n : Nat) : Nat × Nat :=
  let i := n - s.edge
  let r := 48 * rate / 48000
  if s.single then (if i < 2 * r then (Config.nlpAttack i % (2 ^ 32 + 1), 2 ^ 32) else (1, 1))
  else if i < r then (r - (i + 1), r) else (0, 1)

/-- The signal after the NLP (R164). -/
def FnSt.nlp (ch : Nat) (d : List Word) (n m : Nat) (f : FnSt) (y : Int) : Int :=
  let s := f.echo
  let rate := dProc d
  let mode := dbits d 7 7 6
  let (a, b) := s.nlpShare rate n
  if f.nlpOff ∨ mode = 1 ∨ a = 0 then y
  else
    let win := s.window (ecBulk d) (ecTail d) (n - s.rx.length) (n + 1)
    let noise := comfort ch d m s.bands
    let z := if mode = 2 then noise else s.nlpBands d win noise y
    let out := sat36 (roundDiv (y * ((b : Int) - (a : Int)) + z * (a : Int)) b)
    if mode = 0 ∧ (Config.testSignal ch m).1 = 2 then clampTo (dbFloor (ecFigures d).residual 3037000499) out else out

/-- One receive sample through the canceller (R158, R164, R168): unchanged while DISABLED. -/
def FnSt.ecSample (ch : Nat) (d : List Word) (n m : Nat) (x : Int) (f : FnSt) : Int × FnSt :=
  let s := f.echo
  let y := s.error (ecBulk d) n x
  let y := match ecReach d s.talk (Config.testSignal ch m) with
    | some k => clampTo (dbFloor k x.natAbs) y
    | none => y
  let out := if f.ec = 4 then x else f.nlp ch d n m y
  (out, { f with echo := { s with rx := s.rx ++ [x], err := s.err ++ [y] } })

/-! ## Hops (R162, R163, R168, R169) -/

/-- The tone disabler on the samples of a hop from index n0 to hop end e (R168): 2,100 Hz within 21 Hz at or above -34 dBFS;
one hop without it, in which a reversal lies, does not end the tone.
[DESIGN CHOICE, log entry 23: safe] -/
def ToneWatch.hop (rate n0 e : Nat) (xs : List Int) (w : ToneWatch) : ToneWatch :=
  let y := weighted xs
  let f := peakTone rate y 18000 24000
  let p := tonePower rate y f
  if within f 21000 210 && atLevel p 34 && decide (windowPower xs ≤ 2 * p) then
    let ph := phasor rate n0 y 21000
    let flip := decide (0 < w.run) && decide (ph.1 * w.was.1 + ph.2 * w.was.2 < 0)
    let gap := e - w.since
    { run := w.run + 1 + b2n w.missed, was := ph
      since := if w.run = 0 then e - 192 else if flip then e else w.since
      reversed := w.reversed || (flip && decide (20400 ≤ gap ∧ gap ≤ 22800)) }
  else if 0 < w.run ∧ ¬ w.missed then { w with missed := true }
  else {}

/-- The canceller as the first frame after activation, a restart or a reset finds it (Table 6.3): filter and estimates
zero. -/
def EchoSt.fresh (s : EchoSt) : EchoSt :=
  { ref := s.ref, refEnd := s.refEnd, rx := s.rx, err := s.err, rxTone := s.rxTone, refTone := s.refTone, quiet := s.quiet }

/-- What a hop leaves of double talk, adaptation, background and estimates (R162, R163, R165, R169).
[DESIGN CHOICE, log entry 23: safe] -/
def FnSt.ecJudge (d : List Word) (n : Nat) (f : FnSt) : EchoSt :=
  let s := f.echo
  let win := s.window (ecBulk d) (ecTail d) (n - s.rx.length) n
  let px := energy s.rx
  let pe := energy s.err
  let refOn := decide (win.length * 2 ^ 63 < energy win * 10 ^ 5)
  let dt := decide (peakOf win ^ 20 < peakOf s.rx ^ 20 * 10 ^ dbits d 7 19 14) ||
    (f.ec == 2 && aboveBy pe (Config.residual s.h win) 6)
  let held := dt || decide (0 < s.hang)
  let single := refOn && !held
  let runs := f.ec == 1 || f.ec == 2
  let erle := if single then ((px, pe) :: s.erle).take 25 else s.erle
  let sx := (erle.map (·.1)).sum
  let se := (erle.map (·.2)).sum
  { s with
    h := if single && runs then ((Config.adapt (dbits d 7 3 2) (dFunc d 2) s.h win s.err).take (ecTail d)).map sat36 else s.h
    hang := if dt then dbits d 7 13 8 else s.hang - 1
    single := single
    edge := if single = s.single then s.edge else n
    bands := if refOn || held then s.bands else Config.background s.bands s.err
    erle := erle
    good := if !erle.isEmpty && decide (100 * se ≤ sx) then s.good + 1 else 0
    poor := if !single then s.poor else if sx < 10 * se then s.poor + 1 else 0
    guard := if !runs then 0 else if !single then s.guard else if px ^ 10 * 10 ^ 3 < pe ^ 10 then s.guard + 1 else 0
    talk := s.talk + b2n single
    rx := []
    err := [] }

/-- The transition that a hop's estimates cause (Table 6.3). -/
def FnSt.ecMove (d : List Word) (e : Nat) (f : FnSt) : FnSt × List EcEvent :=
  let s := f.echo
  if (f.ec = 1 ∨ f.ec = 2) ∧ (if dFunc d 2 then 25 else 50) ≤ s.guard then
    ({ f with ec := 0, echo := s.fresh }, [{ at_ := e, ty := 0x0B }])
  else if f.ec = 1 ∧ 25 ≤ s.good then
    ({ f with ec := 2, echo := { s with poor := 0 } },
      [{ at_ := e, ty := 0x09, level := some (ratioHalfDbs (s.erle.map (·.1)).sum (s.erle.map (·.2)).sum) }])
  else if f.ec = 2 ∧ 125 ≤ s.poor then ({ f with ec := 1, echo := { s with good := 0 } }, [{ at_ := e, ty := 0x0A }])
  else (f, [])

/-- The tone disabler at a hop end (R168, Table 6.3), on the receive samples and the reference of the hop from index n0 to
n. -/
def FnSt.ecTones (d : List Word) (n e : Nat) (xs : List Int) (f : FnSt) : FnSt × List EcEvent :=
  let rate := dProc d
  let s := f.echo
  let rs := s.window 0 1 (n - xs.length) n
  let on := dbits d 8 33 33 == 1
  let a := if on then s.rxTone.hop rate (n - xs.length) e xs else {}
  let b := if on then s.refTone.hop rate (n - xs.length) e rs else {}
  let quiet := if belowDb xs 39 && belowDb rs 39 then s.quiet + 1 else 0
  let f := { f with echo := { s with rxTone := a, refTone := b, quiet := quiet } }
  let long (w : ToneWatch) : Bool := decide (100 ≤ w.run)
  let live := decide (1 ≤ f.ec ∧ f.ec ≤ 3)
  if live && ((long a && a.reversed) || (long b && b.reversed)) then
    ({ f with ec := 4, ecHeld := f.ec }, [{ at_ := e, ty := 0x0C, index := some 1 }])
  else if live && !f.nlpOff && (long a || long b) then ({ f with nlpOff := true }, [{ at_ := e, ty := 0x0C, index := some 0 }])
  else if (f.ec = 4 ∨ f.nlpOff) ∧ 63 ≤ quiet then
    ({ f with ec := if f.ec = 4 then f.ecHeld else f.ec, nlpOff := false }, [{ at_ := e, ty := 0x0D }])
  else (f, [])

/-- The canceller at hop end e, before sample index n (R169). -/
def FnSt.ecHop (d : List Word) (n e : Nat) (f : FnSt) : FnSt × List EcEvent :=
  let xs := f.echo.rx
  if xs.isEmpty then (f, [])
  else
    let (f, l) := ({ f with echo := f.ecJudge d n } : FnSt).ecMove d e
    let (f, r) := f.ecTones d n e xs
    (f, l ++ r)

/-- The canceller over the samples of a frame from index n on (R158, R174): their outputs, and the events of the hop ends
among them. -/
def FnSt.ecRun (ch : Nat) (d : List Word) : List Int → Nat → FnSt → List Int × List EcEvent × FnSt
  | [], _, f => ([], [], f)
  | x :: r, n, f =>
    let m := n * 48000 / dProc d
    let (f, l) := if m % 192 = 0 then f.ecHop d n m else (f, [])
    let (y, f) := f.ecSample ch d n m x
    let (ys, es, f) := FnSt.ecRun ch d r (n + 1) f
    (y :: ys, l ++ es, f)

/-- The canceller at the start of a frame: out of RESET, and FREEZE followed (Table 6.3). -/
def FnSt.startEc (d : List Word) (f : FnSt) : FnSt :=
  let frz := dbits d 8 35 35 == 1
  let f := if f.ec = 0 then { f with ec := 1, echo := f.echo.fresh } else f
  if frz ∧ (f.ec = 1 ∨ f.ec = 2) then { f with ec := 3, ecFroze := f.ec }
  else if ¬ frz ∧ f.ec = 3 then { f with ec := f.ecFroze }
  else f

/-- The canceller over the samples of a frame that begins at MT f.
[DESIGN CHOICE, log entry 23: safe] -/
def Chip.cancelEcho (ch : Nat) (d : List Word) (f : Nat) (xs : List Int) (c : Chip) : List Int × List EcEvent × Chip :=
  let (ys, es, s) := ((c.fn ch).startEc d).ecRun ch d xs (f * dProc d / 48000)
  (ys, es, c.modFn ch (fun _ => s))

end Sys2Proof.Machine
end

