-- ==== Sys2Proof/Machine/Tones.lean ====
section
/-! DEFINITION. The tone set over a frame: detectors, line-up check and silence alarm, and the event records of the tone
set and the canceller (R173 to R182). -/
namespace Sys2Proof.Machine

open Sys2Proof

/-- An event of the chain: type, index, level, ONSET and its duration, DECLARED (Table 6.9). -/
structure ChainEvent where
  ty : Nat
  index : Nat
  level : Nat
  onset : Nat
  dur : Nat := 0
  declared : Nat
  deriving DecidableEq, Repr

/-- The system channel address of a channel with a SUB (Table 1.14). -/
def Chip.chanAddr (c : Chip) (ch sub : Nat) : Nat := c.fld F.global_DEVNUM_DEVNUM * 2 ^ 18 + ch * 8 + sub

/-- EVEN acts with FUNC.TONES (R173, R181). -/
def dEven (d : List Word) : Bool := dFunc d 3 && dbits d 10 29 29 == 1

/-- The record of an event pushed into EVCHUTE (R181, Table 6.9). -/
def Chip.pushEvent (ch : Nat) (d : List Word) (e : ChainEvent) (c : Chip) : Chip :=
  if !dEven d then c
  else
    let n := dbits d 10 28 18
    let ws := [wofNat (c.chanAddr ch 4),
      wofNat (e.ty * 2 ^ 30 + e.index % 16 * 2 ^ 26 + e.level % 256 * 2 ^ 18 + min 262143 e.dur),
      wofNat e.onset, wofNat e.declared]
    (ws.zipIdx).foldl (fun c p => c.push n p.1 (p.2 == 3)) c

/-- CLEARED (R182), declared at a hop end of the frame [f, f + len), or at the last one before; its INDEX, LEVEL and ONSET are
not stated.
[DESIGN CHOICE, log entry 26: safe] -/
def Chip.pushCleared (ch : Nat) (d : List Word) (f len : Nat) (c : Chip) : Chip :=
  let (a, c) := c.drawNat
  let (b, c) := c.drawNat
  let (t, c) := c.drawNat
  let first := ceilDiv f 192
  let last := (f + len - 1) / 192
  c.pushEvent ch d { ty := 0x0E, index := a % 16, level := a / 16 % 256, onset := b,
                     declared := (if last < first then last else first + t % (last - first + 1)) * 192 }

/-- A canceller event pushed; what the spec does not state of its INDEX and LEVEL is free.
[DESIGN CHOICE, log entry 26: safe] -/
def Chip.pushEc (ch : Nat) (d : List Word) (e : EcEvent) (c : Chip) : Chip :=
  let (a, c) := c.drawNat
  let (b, c) := c.drawNat
  let lv := match e.level with | some v => min 255 (v + b % 2) | none => b
  c.pushEvent ch d { ty := e.ty, index := e.index.getD a, level := lv, onset := e.at_, declared := e.at_ }

/-! ## Detectors (R174 to R179) -/

/-- A detector's settings: window and minimum duration in 48 kHz samples, off count in hops, and the type of its ON
records. -/
structure DetCfg where
  key : Nat
  w : Nat
  min_ : Nat
  off : Nat
  ty : Nat
  deriving DecidableEq, Repr

/-- The detectors that a descriptor enables, in the order of their events (R176 to R178, R182): 0 DTMF, 1 to 16 the
single-frequency detectors, 17 line-up.
[DESIGN CHOICE, log entry 24: unsafe] -/
def detectors (d ts : List Word) : List DetCfg :=
  let prof := dbits d 10 17 17
  (if dFunc d 4 then [{ key := 0, w := 1152, min_ := if prof = 0 then 1920 else 2400, off := 3, ty := 1 }] else [])
  ++ (List.range 16).filterMap (fun i =>
    if dbits d 9 (14 + i) (14 + i) = 0 then none
    else
      let a := 1 + 2 * i
      let bw := dbits ts a 17 16
      let w := if bw = 0 then 3072 else if bw = 1 then 1536 else 768
      some { key := 1 + i, w := w, min_ := max (dbits ts a 9 0 * 48) w, off := max 1 (ceilDiv (dbits ts (a + 1) 35 26) 4), ty := 3 })
  ++ (if dbits d 9 13 13 = 1 then [{ key := 17, w := 2304, min_ := 23040, off := 3, ty := 5 }] else [])

/-- A window at a hop end: the samples of `all` whose last is at `n`. -/
def windowOf (rate w n : Nat) (all : List Int) : List Int :=
  let k := w * rate / 48000
  (all.take n).drop (n - k)

/-- What a detector finds in a window: whether it must accept (`some true`), must not, or may; its INDEX, where the spec
states one, and the power that LEVEL reports. -/
structure Finding where
  verdict : Option Bool
  index : Option Nat
  power : Nat
  deriving DecidableEq, Repr

/-- The low and high frequencies of the DTMF digits in 0.1 Hz (R176). -/
def dtmfLow : List Nat := [6970, 7700, 8520, 9410]
/-- The high group. -/
def dtmfHigh : List Nat := [12090, 13360, 14770, 16330]

/-- Digit codes by row and column (Table 6.9). -/
def dtmfCode (row col : Nat) : Nat := ([1, 2, 3, 12, 4, 5, 6, 13, 7, 8, 9, 14, 10, 0, 11, 15] : List Nat).getD (4 * row + col) 0

/-- The index of the nearest frequency of a group. -/
def nearest (l : List Nat) (f : Nat) : Nat :=
  (l.zipIdx.foldl (fun (t : Nat × Nat) p => if max f p.1 - min f p.1 < t.2 then (p.2, max f p.1 - min f p.1) else t) (0, 100000)).1

/-- A verdict from the limits at which a window must be accepted and beyond which it must not. -/
def verdictOf (operate reject : Bool) : Option Bool := if reject then some false else if operate then some true else none

/-- A DTMF window against Table 6.6.
[DESIGN CHOICE, log entry 24: unsafe] -/
def dtmfFind (rate : Nat) (win : List Int) : Finding :=
  let y := weighted win
  let f1 := peakTone rate y 6000 10500
  let f2 := peakTone rate y 11000 17500
  let i := nearest dtmfLow f1
  let j := nearest dtmfHigh f2
  let p1 := tonePower rate y f1
  let p2 := tonePower rate y f2
  let rest := windowPower win - (p1 + p2)
  let near (k : Nat) : Bool := within f1 (dtmfLow.getD i 0) (dtmfLow.getD i 0 * k / 1000) &&
    within f2 (dtmfHigh.getD j 0) (dtmfHigh.getD j 0 * k / 1000)
  { verdict := verdictOf
      (near 15 && atLevel (min p1 p2) 39 && upToLevel (max p1 p2) 6 && upToBy p1 p2 8 && upToBy p2 p1 4 &&
        aboveBy (p1 + p2) rest 20 && aboveBy (min p1 p2) rest 12)
      (!near 35 || !atLevel (min p1 p2) 45 || !upToBy p1 p2 10 || !upToBy p2 p1 6 || upToBy (p1 + p2) rest 8)
    index := some (dtmfCode i j)
    power := min p1 p2 }

/-- A window of a single-frequency detector against its record and Table 6.7 (R177).
[DESIGN CHOICE, log entry 24: unsafe] -/
def toneFind (rate : Nat) (ts : List Word) (i : Nat) (win : List Int) : Finding :=
  let a := 1 + 2 * i
  let bw := dbits ts a 17 16
  let lvl := dbits ts a 15 10
  let f0 := detFreq ts i
  let (f, p, rest) := mainTone rate win
  let pure := aboveBy p rest (dbits ts (a + 1) 25 20)
  { verdict := verdictOf (within f f0 (if bw = 0 then 100 else if bw = 1 then 250 else 500) && atLevel p lvl && pure)
      (!within f f0 (if bw = 0 then 300 else if bw = 1 then 600 else 1200) || upToLevel p (lvl + 3) || !pure)
    index := some i
    power := p }

/-- A window of the line-up check (R178).
[DESIGN CHOICE, log entry 24: unsafe] -/
def lineupFind (rate : Nat) (win : List Int) : Finding :=
  let (f, p, rest) := mainTone rate win
  { verdict := some (within f 10000 100 && atLevel p 19 && upToLevel p 17 && aboveBy p rest 40), index := none, power := p }

/-- What a detector finds in a window. -/
def findIn (rate : Nat) (ts : List Word) (k : DetCfg) (win : List Int) : Finding :=
  if k.key = 0 then dtmfFind rate win else if k.key = 17 then lineupFind rate win else toneFind rate ts (k.key - 1) win

/-- LEVEL of a record for a power (Table 6.9): within 0.5 dB above -50 dBFS (R177), free below it.
[DESIGN CHOICE, log entry 24: unsafe] -/
def levelOf (p x : Nat) : Nat := if atLevel p 50 then min 255 (halfDbs p + x % 2) else x % 256

/-- One detector at a hop end e (R174): what it finds in its window qualifies, or fails; a window of another digit than the
one under way does not qualify for that digit. A window that lies between the limits of acceptance is accepted by a rule of
its samples alone (R176).
[DESIGN CHOICE, log entry 24: unsafe] -/
def Chip.detHop (ch : Nat) (d : List Word) (k : DetCfg) (r : Finding) (win : List Int) (e : Nat) (c : Chip) : Chip :=
  let (x, c) := c.drawNat
  let ok := r.verdict.getD (Config.accepts k.key win)
  let s := Cells.get {} k.key (c.fn ch).dets
  let put (s : DetSt) (c : Chip) : Chip := c.modFn ch (fun f => { f with dets := Cells.set {} k.key s f.dets })
  let ix := r.index.getD (x / 512 % 16)
  let lv := levelOf r.power x
  let same := s.onset.isNone || r.index.isNone || s.index == ix
  if s.on then
    if ok ∧ same then put { s with last := e, fails := 0, level := lv } c
    else if s.fails + 1 < k.off then put { s with fails := s.fails + 1 } c
    else
      let on := s.onset.getD e
      let c := (put {} c).pushEvent ch d { ty := k.ty + 1, index := if r.index.isNone then ix else s.index, level := s.level,
                                           onset := on, dur := (s.last - on) / 48, declared := e }
      if ok then put { onset := some (e - k.w), last := e, index := ix, level := lv } c else c
  else if !ok then put {} c
  else
    let on := if same then s.onset.getD (e - k.w) else e - k.w
    if k.min_ ≤ e - on then
      (put { onset := some on, last := e, on := true, index := ix, level := lv } c).pushEvent ch d
        { ty := k.ty, index := ix, level := lv, onset := on, declared := e }
    else put { onset := some on, last := e, index := ix, level := lv } c

/-- The silence alarm at a hop end (R179); INDEX and LEVEL of its records are not stated.
[DESIGN CHOICE, log entry 24: unsafe] [DESIGN CHOICE, log entry 26: safe] -/
def Chip.silHop (ch : Nat) (d : List Word) (hop : List Int) (e : Nat) (c : Chip) : Chip :=
  let lvl := 30 + dbits d 10 35 30
  let f := c.fn ch
  let (x, c) := c.drawNat
  if belowDb hop lvl then
    let run := f.silRun + 1
    let from_ := if f.silRun = 0 ∧ !f.silOn then e - 192 else f.silFrom
    let c := c.modFn ch (fun f => { f with silRun := run, silFrom := from_, silLast := e })
    if !f.silOn && decide (dbits d 9 11 0 * 25 ≤ run) then
      (c.modFn ch (fun f => { f with silOn := true })).pushEvent ch d
        { ty := 0x07, index := x, level := x / 16, onset := from_, declared := e }
    else c
  else
    let c := c.modFn ch (fun f => { f with silRun := 0 })
    if f.silOn && !belowDb hop (lvl - 3) then
      (c.modFn ch (fun f => { f with silOn := false })).pushEvent ch d
        { ty := 0x08, index := x, level := x / 16, onset := f.silFrom, dur := (f.silLast - f.silFrom) / 48, declared := e }
    else c

/-- The hops of a frame [f, f + len) in order: at each hop end the canceller's events, then the tone set's (R174, R182). -/
def Chip.hops (ch : Nat) (d : List Word) (f len : Nat) (es : List EcEvent) (xs : List Int) (c : Chip) : Chip :=
  let rate := dProc d
  let keep := 64 * rate / 1000
  let old := (c.fn ch).hist
  let all := List.replicate (keep - old.length) 0 ++ old ++ xs
  let ts := (c.toneset (dbits d 9 35 30)).getD []
  let ks := if dFunc d 3 then detectors d ts else []
  let c := ((List.range len).filter (fun i => (f + i) % 192 == 0)).foldl (fun c i =>
    let e := f + i
    let n := keep + i * rate / 48000
    let c := (es.filter (fun x => x.at_ == e)).foldl (fun c x => c.pushEc ch d x) c
    let c := ks.foldl (fun c k => c.detHop ch d k (findIn rate ts k (windowOf rate k.w n all)) (windowOf rate k.w n all) e) c
    c.iff (dFunc d 3 && dbits d 9 12 12 == 1) (Chip.silHop ch d (windowOf rate 192 n all) e)) c
  c.modFn ch (fun s => { s with hist := all.drop (all.length - keep) })

/-! ## The generator (R180) -/

/-- The frequencies, in 0.1 Hz, and peak amplitudes that descriptor words 9 and 10 ask of the generator. -/
def genParts (ts : List Word) (w10 : Word) : List (Nat × Nat) :=
  let v := wbits w10 10 5
  let sel := wbits w10 14 11
  match wbits w10 16 15 with
  | 0 => [(10000, dbFloor 18 (2 ^ 32))]
  | 1 =>
    let r := (List.range 16).findIdx (fun i => dtmfCode (i / 4) (i % 4) == sel)
    [(dtmfLow.getD (r / 4) 0, dbFloor (10 + v) (2 ^ 32)), (dtmfHigh.getD (r % 4) 0, dbFloor (8 + v) (2 ^ 32))]
  | _ => [(detFreq ts sel, dbFloor (10 + v) (2 ^ 32))]

/-- The generator's level in 2^-32: within 0.05 dB of the one stated (R180).
[DESIGN CHOICE, log entry 25: safe] -/
def genScale : Nat := 4270314502 + Config.genLevel % (4319762412 - 4270314502 + 1)

/-- The generated sample at MT m, without its edges (R180): sines whose phase counts from the epoch, at their level, and a
residue of at most -80 dB.
[DESIGN CHOICE, log entry 25: safe] -/
def genSample (ps : List (Nat × Nat)) (m : Nat) (residue : Int) : Int :=
  let b := (ps.map (fun p => dbFloor 83 p.2)).foldl min (2 ^ 35)
  let s : Int := (ps.map (fun p => (p.2 : Int) * sinTurn (p.1 * m) 480000)).sum
  roundShift 72 (s * (genScale : Int)) + (residue % ((2 * b + 1 : Nat) : Int) - (b : Int))

/-- The ramp of an edge at a sample index after it (R180, R518): over 1 ms at the sample rate, up or down, as a fraction. -/
def edgeGain (up : Bool) (rate i : Nat) : Nat × Nat :=
  let n := 48 * rate / 48000
  if n ≤ i then (b2n up, 1) else if up then (i + 1, n) else (n - (i + 1), n)

/-- The gain of the cadence at MT m (R180). -/
def cadenceGain (w10 : Word) (rate m : Nat) : Nat × Nat :=
  let k := wbits w10 3 2
  if k = 0 then (1, 1)
  else
    let t := if k = 1 then 4800 else 48000
    let r := m % (2 * t)
    if r < t then edgeGain true rate (r * rate / 48000) else edgeGain false rate ((r - t) * rate / 48000)

/-- The tone generator over send samples placed from MT m0 on (R180): it replaces the signal or adds to it. Its start is
ramped from the first of them, its end over the first of the frame in which it no longer runs, as it last ran.
[DESIGN CHOICE, log entry 25: safe] -/
def Chip.generate (ch : Nat) (d : List Word) (m0 : Nat) (xs : List Int) (c : Chip) : List Int × Chip :=
  let f := c.fn ch
  let was := f.genOn
  let on := dFunc d 8
  if !on && !was then (xs, c)
  else
    let set : Word × Word := if on then (d.getD 9 0, d.getD 10 0) else f.genSet
    let rate := dProc d
    let ps := genParts ((c.toneset (wbits set.1 35 30)).getD []) set.2
    let rs := Config.freeInts c.draws
    let c := ({ c with draws := c.draws + 1 } : Chip).modFn ch (fun f => { f with genOn := on, genSet := set })
    let ys := xs.zipIdx.map (fun p =>
      let m := m0 + p.2 * 48000 / rate
      let (a, b) := cadenceGain set.2 rate m
      let (u, v) := if on && was then (1, 1) else edgeGain on rate p.2
      let g := roundDiv (genSample ps m (rs.getD p.2 0) * (a * u : Nat)) (b * v)
      if wbit set.2 4 then sat36 (p.1 + g) else if on || decide (u ≠ 0) then sat36 g else p.1)
    (ys, c)

end Sys2Proof.Machine
end

