-- ==== Sys2Proof/Machine/Send.lean ====
section
/-! DEFINITION. Packetising: RTP packets with their headers, launch times and RTCP (R127 to R135, R192). -/
namespace Sys2Proof.Machine

open Sys2Proof

/-- EGRESS and template fields (Tables 4.6 and 4.7). -/
def dLaunchOff (d : List Word) : Nat := dbits d 20 35 12
/-- The service of a channel's packets. -/
def dService (d : List Word) : Nat := dbits d 19 29 15
/-- The queue of a channel's packets. -/
def dQueue (d : List Word) : Nat := dbits d 19 31 30

/-- Device time in ns at MT m, rounded down (R131). -/
def mtNs (m : Nat) : Nat := m * 62500 / 3

/-- The launch time of media that ends at MT e (R131). -/
def launchAt (d : List Word) (e : Nat) : Nat := (mtNs e + dLaunchOff d) % 2 ^ 36

/-- A UDP checksum field: 0 is sent as all ones. -/
def csumOf (s : Nat) : Nat := if s = 65535 then 65535 else 65535 - s

/-- A packet in the header of a template: ports raised by `up`, lengths and checksums filled in (R129, R135). -/
def sealPacket (t : List Word) (up : Nat) (pay : List Octet) : List Octet :=
  let hl := dbits t 0 21 15
  let l3 := dbits t 0 12 6
  let h := (tmplOcts t).take hl
  let u := hl - 8
  let ulen := 8 + pay.length
  let h := patch h u (beOctets 2 ((be16 h u + up) % 65536))
  let h := patch h (u + 2) (beOctets 2 ((be16 h (u + 2) + up) % 65536))
  let h := patch (patch h (u + 4) (beOctets 2 ulen)) (u + 6) [0, 0]
  let v4 := dbits t 0 14 13 == 1
  let h :=
    if v4 then
      let h := patch (patch (patch h (l3 + 2) (beOctets 2 (u - l3 + ulen))) (l3 + 4) [0, 0]) (l3 + 10) [0, 0]
      patch h (l3 + 10) (beOctets 2 (65535 - onesSum ((h.drop l3).take (u - l3)) 0))
    else patch h (l3 + 4) (beOctets 2 ulen)
  let addrs := if v4 then (h.drop (l3 + 12)).take 8 else (h.drop (l3 + 8)).take 32
  let sum := onesSum (h.drop u ++ pay) (onesSum addrs (17 + ulen))
  let h := if !v4 || dbits t 0 5 5 == 1 then patch h (u + 6) (beOctets 2 (csumOf sum)) else h
  h ++ pay

/-- The RTP header of packet k (R130). -/
def rtpHeader (d t : List Word) (mark : Bool) (k : Nat) : List Octet :=
  let ts := k * txSpp d * rtpClock (dEncoder d) / 48000 + dbits t 2 35 4
  [0x80, BitVec.ofNat 8 (b2n mark * 128 + dbits t 0 28 22)]
    ++ beOctets 2 ((dbits t 3 35 20 + k) % 65536) ++ beOctets 4 (ts % 2 ^ 32) ++ beOctets 4 (dbits t 1 35 4)

/-- The TOC octet of an Opus packet (R192).
[DESIGN CHOICE, log entry 19: safe] -/
def opusToc (d : List Word) : Nat :=
  let f := if txSpp d = 120 then 0 else if txSpp d = 240 then 1 else if txSpp d = 480 then 2 else 3
  (28 + f) * 8 + (if dEncoder d = 7 then 4 else 0)

/-- The octets of an Opus packet: its size at constant bitrate, one more where that is no whole number and a free
bit takes it, or any size from 2 octets (no packet is empty: no DTX) within the limits of R192; the TOC, and free octets.
[DESIGN CHOICE, log entry 19: safe] -/
def Chip.opusPacket (d : List Word) (c : Chip) : List Octet × Chip :=
  let (x, c) := c.drawNat
  let num := (2 + dbits d 15 8 3) * txSpp d
  let cbr := num / 48 + (if num % 48 = 0 then 0 else x % 2)
  let n := if dbits d 15 2 2 = 0 then min 1276 cbr else x % (min 1276 (2 * num / 48) - 1) + 2
  let (l, c) := c.drawOctets (n - 1)
  (BitVec.ofNat 8 (opusToc d) :: l, c)

/-- The coded size in words of EGRESS.BSIZE. -/
def dBsize (d : List Word) : Nat := dbits d 20 11 9

/-- A Baler-audio payload (R133, R134), with the jobs counted on unit BU; none where the unit refuses a job, or one ends with
VERIFY or UNCORR: what a unit finds in its own work is a free draw.
[DESIGN CHOICE, log entry 31: safe] -/
def Chip.audioPacket (d : List Word) (xs : List Int) (c : Chip) : Option (List Octet) × Chip :=
  let u := dBu d
  if !c.flag F.baler_U_CTRL_EN u then (none, c)
  else
    let e : JobEnv := { size := dBsize d, bound := dbits d 20 8 5, space := xs.length, badIn := [], badOut := [], mismatch := none }
    let r := compress e true (xs.map wofInt)
    let s := balerS (dBsize d)
    let (k, c) := c.drawNat
    let nb := xs.length / 64
    let c := (c.bump F.baler_U_JOBS_COUNT (1 + k % max 1 nb) u).bump F.baler_U_QUANT_BLOCKS r.quant u
    let (o, c) := c.drawNat
    let hdr : List Octet := [BitVec.ofNat 8 nb, BitVec.ofNat 8 (dBsize d * 32 + b2n r.lossy * 16),
      BitVec.ofNat 8 (dbits d 20 8 5 * 16), BitVec.ofNat 8 (r.out.length / s)]
    if o % 3 = 1 then (none, c.bump F.baler_U_VERIFY_JOBS 1 u)
    else if o % 3 = 2 then (none, c.bump F.baler_UNCORR_JOBS)
    else (some (hdr ++ wordOcts r.out), c)

/-- The payload of a packet: its samples at the stream rate (R186, R192, R193); none where it is not sent.
[DESIGN CHOICE, log entry 19: safe] [PRESUMED, log entry 151: unsafe] -/
def Chip.payload (ch : Nat) (d : List Word) (xs : List Int) (c : Chip) : Option (List Octet) × Chip :=
  let codec := dEncoder d
  if codec = 5 then
    let (l, s) := G722.encodeAll (xs.map (toWidth 14)) (c.jb ch).enc722
    (some l, c.modJb ch (fun j => { j with enc722 := s }))
  else if codec = 6 ∨ codec = 7 then
    let (l, c) := c.opusPacket d
    (some l, c)
  else if codec = 8 then c.audioPacket d xs
  else (some (encodeExact codec xs), c)

/-- Packet k is formed from its samples and enters the Flume (R127, R130, R132, R133). -/
def Chip.sendPacket (ch : Nat) (d : List Word) (k : Nat) (xs : List Int) (c : Chip) : Chip :=
  let j := c.jb ch
  match c.payload ch d xs with
  | (none, c) => c.modJb ch (fun j => { j with txdrops := min 15 (j.txdrops + 1) })
  | (some pay, c) =>
    let c := c.modJb ch (fun j => { j with mark := false, txPkts := j.txPkts + 1, txOcts := j.txOcts + pay.length })
    c.internalFrame 65 (sealPacket j.tmpl 0 (rtpHeader d j.tmpl j.mark k ++ pay)) (dService d) (dQueue d)
      (some (launchAt d ((k + 1) * txSpp d))) none

/-- Packets that end at or before MT e, in order (R127); their samples leave the buffer. Samples before the first
send output are zero. -/
def Chip.sendPackets (ch : Nat) (d : List Word) (e : Nat) : Nat → Chip → Chip
  | 0, c => c
  | fuel + 1, c =>
    match (c.jb ch).txBuf with
    | [] => c
    | (t, _) :: _ =>
      let spp := txSpp d
      let k := t / spp
      if e < (k + 1) * spp then c
      else
        let mine := (c.jb ch).txBuf.filter (fun p => decide (p.1 < (k + 1) * spp))
        let n := spp * streamRate (dEncoder d) / 48000
        let xs := List.replicate (n - mine.length) 0 ++ mine.map (·.2)
        let c := c.modJb ch (fun j => { j with txBuf := j.txBuf.filter (fun p => decide ((k + 1) * spp ≤ p.1)) })
        Chip.sendPackets ch d e fuel (c.sendPacket ch d k xs)

/-- A hexadecimal digit in capitals. -/
def hexOctet (n : Nat) : Octet := BitVec.ofNat 8 (if n < 10 then 48 + n else 55 + n)

/-- The SDES CNAME of a channel (R135): "zd-" and the nine digits of its address. -/
def cname (addr : Nat) : List Octet :=
  [122, 100, 45] ++ (List.range 9).map (fun i => hexOctet (addr / 16 ^ (8 - i) % 16))

/-- An RTCP packet of a type and count: its header and body in whole 32-bit words (RFC 3550).
[PRESUMED, log entry 18: unsafe] -/
def rtcpPacket (count ty : Nat) (body : List Octet) : List Octet :=
  [BitVec.ofNat 8 (128 + count), BitVec.ofNat 8 ty] ++ beOctets 2 (body.length / 4) ++ body

/-- The report block of a packet source (RFC 3550, R135): fraction and total lost, highest sequence number, jitter;
LSR and DLSR 0.
[PRESUMED, log entry 18: unsafe] -/
def JbSt.reportBlock (j : JbSt) (ssrc : Nat) : List Octet × JbSt :=
  let exp : Nat := match j.rxBase with | none => 0 | some b => j.rxHighest - b + 1
  let lost : Int := (exp : Int) - j.rxCount
  let de : Int := (exp : Int) - j.rxPriorExp
  let dl : Int := de - ((j.rxCount : Int) - j.rxPriorCount)
  let frac := if de ≤ 0 ∨ dl ≤ 0 then 0 else (dl * 256 / de).toNat
  (beOctets 4 ssrc ++ [BitVec.ofNat 8 (min 255 frac)] ++ beOctets 3 (unsignedOf 24 (satN 24 lost))
    ++ beOctets 4 (j.rxHighest % 2 ^ 32) ++ beOctets 4 (j.rxJitter / 16 % 2 ^ 32) ++ beOctets 4 0 ++ beOctets 4 0,
   { j with rxPriorExp := exp, rxPriorCount := j.rxCount })

/-- The SSRC that a report block names (R135): the one that SSRCCHK accepts, else the latched one; a free one before any is
latched. -/
def JbSt.source (free : Nat) (j : JbSt) : Nat := if rxSsrcChk j.rxp then rxSsrc j.rxp else j.ssrc.getD free

/-- The compound RTCP packet of the frame whose send output ends before MT e (R135). Without an encoder the device
holds no template: its header octets are free.
[DESIGN CHOICE, log entry 32: safe] -/
def Chip.sendRtcp (ch : Nat) (d : List Word) (e : Nat) (c : Chip) : Chip :=
  let j := c.jb ch
  let t := tickInstant (e - 1)
  let ssrc := dbits j.tmpl 1 35 4
  let (free, c) := c.drawNat
  let (block, j') := if dSource d = 1 then j.reportBlock (j.source (free % 2 ^ 32)) else ([], j)
  let c := c.modJb ch (fun j => { j with rxPriorExp := j'.rxPriorExp, rxPriorCount := j'.rxPriorCount })
  let rc := b2n (dSource d == 1)
  let sr := dEncoder d ≠ 0
  let rtp := (e - 1) * rtpClock (dEncoder d) / 48000 + dbits j.tmpl 2 35 4
  let own := beOctets 4 (if sr then ssrc else free / 2 ^ 32 % 2 ^ 32)
  let report :=
    if sr then rtcpPacket rc 200 (own ++ beOctets 4 ((secOf t + 2208988800) % 2 ^ 32) ++ beOctets 4 (t % tSec * 2 ^ 32 / tSec)
      ++ beOctets 4 (rtp % 2 ^ 32) ++ beOctets 4 (j.txPkts % 2 ^ 32) ++ beOctets 4 (j.txOcts % 2 ^ 32) ++ block)
    else rtcpPacket rc 201 (own ++ block)
  let item : List Octet := [1, 12] ++ cname (c.chanAddr ch 1)
  let sdes := rtcpPacket 1 202 (own ++ item ++ List.replicate (4 - item.length % 4) 0)
  let (hdr, c) := c.drawOctets (14 + free / 2 ^ 64 % 95)
  let frame := if sr then sealPacket j.tmpl 1 (report ++ sdes) else hdr ++ report ++ sdes
  c.internalFrame 65 frame (dService d) (dQueue d) (some (launchAt d e)) none

/-- RTCP falls in the frame [f, f + len) (R135). -/
def rtcpDue (ch f len : Nat) : Bool := (List.range len).any (fun i => (f + i) % 240000 == 73 * ch % 240000)

end Sys2Proof.Machine
end

