-- ==== Sys2Proof/Machine/Chain.lean ====
section
/-! DEFINITION. A channel's frame: the functions of Table 3.5 in order (R83, R87 to R91, R108, R196 to R208, R229),
run where the item of the frame completes, and what its completion leaves (R280, R285, R286). -/
namespace Sys2Proof.Machine

open Sys2Proof

/-- A custom function at a position of the chain (R269), where no bundle shows its program: what it makes of the samples is
not given.
[DESIGN CHOICE, log entry 21: safe] -/
def Chip.custom (d : List Word) (pos : Nat) (xs : List Int) (c : Chip) : List Int × Chip :=
  if dFunc d 9 && dbits d 23 7 6 == pos then c.drawSamples xs.length else (xs, c)

/-- The receive samples of a frame as decoded (Table 3.5, steps 1 and 2). -/
def Chip.receive (ch : Nat) (d : List Word) (f len : Nat) (c : Chip) : List Int × Chip :=
  if dSource d = 0 then (List.replicate (len * (if dDecoder d = 0 then dProc d else rxRate d) / 48000) 0, c)
  else if dSource d = 1 then c.playPackets ch d f len
  else c.playLocal ch d f len

/-- The rate stage of the receive path (Table 3.5, step 4): the Kerf lane, the core integer rate change, whose filter
is not given, or none. The zeros of no source stay zeros (Table 3.2).
[DESIGN CHOICE, log entry 22: safe] [DEDUCED, log entry 155: unsafe] -/
def Chip.rateStage (d : List Word) (f len : Nat) (xs : List Int) (c : Chip) : List Int × Chip :=
  if dFunc d 0 && rxRate d ≠ 0 then
    c.runLane (dbits d 6 13 0) (ceilDiv (f * rxRate d) 48000 : Nat) xs (timesIn (dProc d) f (f + len)) .none
  else if rxChanges d then
    if dSource d = 0 ∧ ¬ (dFunc d 9 ∧ dbits d 23 7 6 = 0) then (List.replicate (len * dProc d / 48000) 0, c)
    else c.drawSamples (len * dProc d / 48000)
  else (xs, c)

/-- The capture tap at a point (R108, R229, R231): a job submitted, or the frame dropped and counted. NBLK is that of a frame
of the whole period P (R230), also where this one is shorter.
[DEDUCED, log entry 28: unsafe] -/
def Chip.capture (ch : Nat) (d : List Word) (point mt len p : Nat) (xs : List Int) (c : Chip) : Chip :=
  if !dFunc d 7 || dbits d 22 35 34 ≠ point then c
  else
    let ring := dbits d 21 33 0
    let size := dbits d 22 24 0
    let sz := dbits d 22 33 31
    let nblk := ceilDiv (xs.length * p / len) 64
    let ws : List Word := [wofNat (2 ^ 32 + sz * 2 ^ 29 + dbits d 22 30 27 * 2 ^ 25 + 2 ^ 24), 0, 0, 0,
      wofNat xs.length, wofNat (nblk * balerS sz), 0, 0]
    let held := fwd 36 (c.word (ring * 16)).toNat (c.word (ring * 16 + 1)).toNat
    if nRec size nblk sz ≤ held then c.dropCapture ring size
    else match c.balerCapture (dbits d 22 26 25) (.capture ch mt (c.fn ch).frames ring size) ws (xs.map wofInt) with
      | some c => c
      | none => c.dropCapture ring size

/-- The signed factor of a MIXIN word (R199, R201). -/
def mixFactor (w : Word) : Int :=
  let g : Int := gainOf (wbits w 22 12)
  if wbit w 11 then -g else g

/-- A sample through a MIXIN word: negated where INVERT is set, then times its gain, each under R184 (Table 7.5). -/
def mixTerm (w : Word) (x : Int) : Int := gainMul (if wbit w 11 then sat36 (-x) else x) (gainOf (wbits w 22 12))

/-- The factors of the MIXIN words, by index: 0 where one is not enabled. -/
def mixFactors (d : List Word) : List (Nat × Int) := (mixins d).map (fun m => (m.1, mixFactor m.2))

/-- The contributions of a frame (R196, R201, R202): sample i at the rate of the buses is placed 2P later; a factor
that changed is ramped over the first block, that of a newly enabled word from 0, and the ramp of R91 multiplies it.
[DEDUCED, log entry 29: unsafe] -/
def Chip.contribute (ch : Nat) (d : List Word) (f p : Nat) (muted ramp : Bool) (xs : List Int) (c : Chip) : Chip :=
  let rate := dProc d
  let b := c.blockB * rate / 48000
  let first := (f + 2 * p) * rate / 48000
  let old := (c.fn ch).mixGain
  let c := (mixins d).foldl (fun c m =>
    let g1 := mixFactor m.2
    let g0 := Cells.get 0 m.1 old
    let ys := if muted then List.replicate xs.length 0 else xs.zipIdx.map (fun x =>
      if b ≤ x.2 ∨ (g0 = g1 ∧ ¬ ramp) then mixTerm m.2 x.1
      else
        let g := rampTimes g0 g1 b x.2
        if ramp then sat36 (roundDiv (x.1 * g * (x.2 + 1 : Nat)) (b * b * 2 ^ 32)) else gainMulFrac x.1 g b)
    c.mixAddAll (wbits m.2 35 24) first ys) c
  c.modFn ch (fun s => { s with mixGain := (mixFactors d).foldl (fun t m => Cells.set 0 m.1 m.2 t) [] })

/-! ## The send source (R204 to R207) -/

/-- The interrupt block is loud, or quiet (R206): its peak against the threshold in dBFS, exact to the level. -/
def atLeastDb (peak db : Nat) : Bool := decide ((2 ^ 32) ^ 20 ≤ peak ^ 20 * 10 ^ db)

/-- The key after a send block (R206): the key, and blocks since the last keyed one.
[DEDUCED, log entry 122: unsafe] -/
def keyBlock (d : List Word) (blockB peak : Nat) (gpi : Bool) (k : Bool × Nat) : Bool × Nat :=
  let src := dbits d 16 5 4
  let th := 24 + 3 * dbits d 16 3 0
  let loud := atLeastDb peak th
  let quiet := !atLeastDb peak (th + 3)
  let pressed := gpi != (dbits d 17 0 0 == 1)
  let level := src == 0 || src == 2
  if (level && loud) || ((src == 1 || src == 2) && pressed) then (true, 0)
  else if !k.1 then (false, 0)
  else if level && !loud && !quiet then (true, 0)
  else if k.2 + 1 ≤ ceilDiv (dbits d 17 4 2 * 2400) blockB then (true, k.2 + 1)
  else (false, 0)

/-- The envelope a sample later (R207), in 2^-32: it rises in ATTACK and falls in RELEASE samples.
[DEDUCED, log entry 30: unsafe] -/
def envStep (d : List Word) (keyed : Bool) (e : Nat) : Nat :=
  let a := dbits d 17 35 24
  let r := dbits d 17 23 10
  if keyed then (if a = 0 then 2 ^ 32 else min (2 ^ 32) (e + ceilDiv (2 ^ 32) a))
  else if r = 0 then 0 else e - ceilDiv (2 ^ 32) r

/-- round_sat(g_p * pgm + g_i * int) of the IFB with the sum exact (R207): e in 2^-32, the programme reduced by DUCK dB.
[DEDUCED, log entry 30: unsafe] -/
def duckSum (d : List Word) (e : Nat) (pgm int : Int) : Int :=
  let k := dbits d 16 11 6
  let plain : Int := pgm * ((2 ^ 32 : Nat) - (e : Int)) + int * (e : Int)
  let duck : Int := if k = 0 then pgm * (e : Int) else dbFloorInt k (pgm * (e : Int))
  sat36 (roundShift 32 (plain + duck))

/-- One sample of the IFB (R207): the send sample, or the left one, and the right one of SPLIT.
[DEDUCED, log entry 30: unsafe] -/
def ifbSample (d : List Word) (e : Nat) (pgm int : Int) : Int × Int :=
  if dbits d 17 1 1 = 1 then (duckSum d e pgm 0, sat36 (roundShift 32 (int * (e : Int))))
  else (duckSum d e pgm int, duckSum d e pgm int)

/-- The samples of one send block of the IFB. -/
def ifbRun (d : List Word) (keyed : Bool) : Nat → List (Int × Int) → Nat × List (Int × Int)
  | e, [] => (e, [])
  | e, (p, i) :: r =>
    let e := envStep d keyed e
    let (e', l) := ifbRun d keyed e r
    (e', ifbSample d e p i :: l)

/-- The IFB over the send blocks of a frame (R205 to R208). -/
def Chip.ifb (ch : Nat) (d : List Word) (m : Nat) : Nat → List (Int × Int) → Chip → List (Int × Int) × Chip
  | 0, _, c => ([], c)
  | n + 1, l, c =>
    let bs := c.blockB * dProc d / 48000
    let blk := l.take bs
    let peak := blk.foldl (fun a x => max a x.2.natAbs) 0
    let f := c.fn ch
    let k := keyBlock d c.blockB peak ((c.gpioAt m).testBit (dbits d 17 9 5)) (f.ifbKey, f.ifbCount)
    let (e, out) := ifbRun d k.1 f.ifbE blk
    let c := c.modFn ch (fun f => { f with ifbE := e, ifbKey := k.1, ifbCount := k.2 })
    let (rest, c) := Chip.ifb ch d (m + c.blockB) n (l.drop bs) c
    (out ++ rest, c)

/-- The send source of a frame that begins at f: left or only, and right (R204, R205). -/
def Chip.sendSource (ch : Nat) (d : List Word) (f len : Nat) (c : Chip) : List Int × List Int × Chip :=
  let rate := dProc d
  let first := f * rate / 48000
  let n := len * rate / 48000
  if dFunc d 6 then
    let (p, c) := c.mixReadAll (dbits d 16 35 24) first n
    let (i, c) := c.mixReadAll (dbits d 16 23 12) first n
    let (l, c) := c.ifb ch d f (len / c.blockB) (p.zip i)
    (l.map (·.1), l.map (·.2), c)
  else
    let (l, c) := c.mixReadAll (dbits d 15 35 24) first n
    if dEncoder d = 7 ∧ dbits d 15 11 11 = 1 then
      let (r, c) := c.mixReadAll (dbits d 15 23 12) first n
      (l, r, c)
    else (l, l, c)

/-- The gains that the life cycle puts on the outputs of a frame (R90, R91, R518): muted, the ramp up over the first
block of `b` samples, the ramp to zero over the last frame.
[DEDUCED, log entry 29: unsafe] -/
def lifeGain (muted ramp stop : Bool) (b : Nat) (xs : List Int) : List Int :=
  let n := xs.length
  xs.zipIdx.map (fun p =>
    if muted then 0
    else
      let (n1, d1) := if ramp && decide (p.2 < b) then (p.2 + 1, b) else (1, 1)
      let (n2, d2) := if stop then (n - (p.2 + 1), n) else (1, 1)
      if n1 = d1 ∧ n2 = d2 then p.1 else sat36 (roundDiv (p.1 * (n1 * n2 : Nat)) (d1 * d2)))

/-- The send path of a frame after POS 3 (Table 3.5, steps 11 to 13), on the signal after the life cycle's gains, which the
send meter sees: its meter word is returned.
[DESIGN CHOICE, log entry 22: safe] [DEDUCED, log entry 28: unsafe] [DEDUCED, log entry 142: unsafe] -/
def Chip.sendPath (ch : Nat) (d : List Word) (f len p : Nat) (muted ramp stop : Bool) (l : List Int) (c : Chip) : Word × Chip :=
  let rate := dProc d
  let m0 := f + 2 * p
  let l := lifeGain muted ramp stop (c.blockB * rate / 48000) l
  let (w, c) := if dFunc d 5 then c.meter l else (meterOff, c)
  let c := c.modFn ch (fun s => { s with echo := s.echo.addRef rate (m0 * rate / 48000) l })
  let c := c.capture ch d 2 m0 len p l
  let sr := streamRate (dEncoder d)
  let n := len * sr / 48000
  let (y, c) := if sr = rate then (l, c) else if muted then (List.replicate n 0, c) else c.drawSamples n
  let c := c.modFn ch (fun s => { s with sendFrom := some (s.sendFrom.getD m0) })
  let c := c.modJb ch (fun j => { j with txBuf := j.txBuf ++ y.zipIdx.map (fun x => (m0 + x.2 * 48000 / sr, x.1)) })
  (w, c.sendPackets ch d (m0 + len) (len / 6 + 1))

/-! ## The chain, cut at the positions of custom functions (Table 3.5, R269) -/

/-- The frame's last one before the channel is IDLE (R518). -/
def ChanSt.stops (s : ChanSt) : Bool := s.life == 4 && s.frame == s.lastFrame

/-- Up to POS 0: the receive samples, and capture point 0, which is before a custom function there.
[DEDUCED, log entry 143: unsafe] -/
def Chip.chain0 (ch : Nat) (d : List Word) (s : ChanSt) (c : Chip) : List Int × Chip :=
  let c := c.iff (c.fn ch).cleared (fun c =>
    (c.pushCleared ch d s.frame s.frameLen).modFn ch (fun x => { x with cleared := false }))
  let (xs, c) := c.receive ch d s.frame s.frameLen
  (xs, c.capture ch d 0 s.frame s.frameLen (c.period d) xs)

/-- From POS 1 to POS 2: the canceller, the tone set, the receive meter and capture point 1. -/
def Chip.chain2 (ch : Nat) (d : List Word) (s : ChanSt) (xs : List Int) (c : Chip) : List Int × Word × Chip :=
  let (xs, es, c) := if dFunc d 1 then c.cancelEcho ch d s.frame xs else (xs, [], c)
  let c := c.iff (dFunc d 1 || dFunc d 3) (Chip.hops ch d s.frame s.frameLen es xs)
  let (rx, c) := if dFunc d 5 then c.meter xs else (meterOff, c)
  (xs, rx, c.capture ch d 1 s.frame s.frameLen (c.period d) xs)

/-- From POS 2 to POS 3: the contributions to the buses, the send source and the generator. -/
def Chip.chain3 (ch : Nat) (d : List Word) (s : ChanSt) (xs : List Int) (c : Chip) : List Int × Chip :=
  let p := c.period d
  let c := c.contribute ch d s.frame p s.muted s.ramp xs
  if dEncoder d = 0 then ([], c)
  else
    let (l, _, c) := c.sendSource ch d s.frame s.frameLen
    c.generate ch d (s.frame + 2 * p) l

/-- After POS 3: the rest of the send path, RTCP, and the end of the frame. The meter words are returned. -/
def Chip.chainEnd (ch : Nat) (d : List Word) (s : ChanSt) (rx : Word) (l : List Int) (c : Chip) : Word × Word × Chip :=
  let f := s.frame
  let len := s.frameLen
  let p := c.period d
  let (tx, c) := if dEncoder d ≠ 0 then c.sendPath ch d f len p s.muted s.ramp s.stops l else (meterOff, c)
  let c := c.iff (dFunc d 10 && rtcpDue ch f len) (Chip.sendRtcp ch d (f + 2 * p + len))
  let c := c.iff s.stops (Chip.pushCleared ch d f len)
  (rx, tx, c.modFn ch (fun x => { x with frames := (x.frames + 1) % 2 ^ 36 }))

/-- The chain after POS 2. -/
def Chip.chainFrom2 (ch : Nat) (d : List Word) (s : ChanSt) (rx : Word) (xs : List Int) (c : Chip) : Word × Word × Chip :=
  let (l, c) := c.chain3 ch d s xs
  let (l, c) := if dEncoder d = 0 then (l, c) else c.custom d 3 l
  c.chainEnd ch d s rx l

/-- The chain after POS 1. -/
def Chip.chainFrom1 (ch : Nat) (d : List Word) (s : ChanSt) (xs : List Int) (c : Chip) : Word × Word × Chip :=
  let (xs, rx, c) := c.chain2 ch d s xs
  let (xs, c) := c.custom d 2 xs
  c.chainFrom2 ch d s rx xs

/-- The chain after POS 0. -/
def Chip.chainFrom0 (ch : Nat) (d : List Word) (s : ChanSt) (xs : List Int) (c : Chip) : Word × Word × Chip :=
  let (xs, c) := c.rateStage d s.frame s.frameLen xs
  let (xs, c) := c.custom d 1 xs
  c.chainFrom1 ch d s xs

/-- A channel's frame: every function of Table 3.5 in order (R83). The meter words are returned.
[DESIGN CHOICE, log entry 20: safe] [DEDUCED, log entry 143: unsafe] -/
def Chip.runChain (ch : Nat) (d : List Word) (s : ChanSt) (c : Chip) : Word × Word × Chip :=
  let (xs, c) := c.chain0 ch d s
  let (xs, c) := c.custom d 0 xs
  c.chainFrom0 ch d s xs

/-- The chain up to a custom function's position: the samples there, and the receive meter word. -/
def Chip.chainTo (pos ch : Nat) (d : List Word) (s : ChanSt) (c : Chip) : List Int × Word × Chip :=
  let (xs, c) := c.chain0 ch d s
  if pos = 0 then (xs, meterOff, c)
  else
    let (xs, c) := c.rateStage d s.frame s.frameLen xs
    if pos = 1 then (xs, meterOff, c)
    else
      let (xs, rx, c) := c.chain2 ch d s xs
      if pos = 2 then (xs, rx, c)
      else
        let (l, c) := c.chain3 ch d s xs
        (l, rx, c)

/-- The rest of the chain after a call that the library has made of a custom function (R270): on the samples that it left,
and on samples not stated where it never returned.
[DESIGN CHOICE, log entry 21: safe] -/
def Chip.chainAfter (t : CallSt) (ch : Nat) (d : List Word) (s : ChanSt) (c : Chip) : Word × Word × Chip :=
  let (xs, c) := match t.back with
    | some xs => (xs, c)
    | none => c.drawSamples t.n
  if t.pos = 0 then c.chainFrom0 ch d s xs
  else if t.pos = 1 then c.chainFrom1 ch d s xs
  else if t.pos = 2 then c.chainFrom2 ch d s t.rx xs
  else c.chainEnd ch d s t.rx xs

/-- The item of a channel's frame completes on a core (R280, R285, R286): the chain's work, the words that the
write-back carries, lag and lateness, and the next frame. The library's own state words are free.
[DESIGN CHOICE, log entry 20: safe] -/
def Chip.completeChannel (k buf ch lag : Nat) (c : Chip) : Chip :=
  match Cells.find? ch c.chans with
  | none => c
  | some s =>
    let d := c.desc ch
    let (rx, tx, c) := match (c.core k).call with
      | some t => c.chainAfter t ch d s
      | none => c.runChain ch d s
    let (j0, j1) := jbStat (c.jb ch)
    let c := c.putLocal k (bufBase buf + 28) [rx, tx, j0, j1]
    let n := dbits d 24 35 22 - 32
    let c := c.putLocal k (bufBase buf + 32) ((List.range n).map (fun i => wofNat (Config.freeNat (c.draws + i))))
    let c := { c with draws := c.draws + n }
    c.modChan ch (fun s => { s with
      lag := min 65535 lag
      maxLag := max s.maxLag (min 65535 lag)
      lateFrames := min (2 ^ 36 - 1) (s.lateFrames + (if lag = 0 then 0 else 1))
      lastStatus := if lag = 0 then St.OK else St.LATE
      frame := s.frame + s.frameLen
      frameLen := c.period d
      muted := false
      ramp := s.muted })

end Sys2Proof.Machine
end

