-- ==== Sys2Proof/Machine/Hedge.lean ====
section
/-! DEFINITION. Hedgerow segments (R387 to R396, R405). -/
namespace Sys2Proof.Machine

open Sys2Proof

/-- A segment's state. -/
def Chip.hedge (c : Chip) (n : Nat) : HedgeSt := Cells.get {} n c.audio.hedges

/-- A segment changed. -/
def Chip.modHedge (n : Nat) (f : HedgeSt → HedgeSt) (c : Chip) : Chip :=
  c.modAudio (fun a => { a with hedges := Cells.modify {} n f a.hedges })

/-- What a segment keeps of a node. -/
def HedgeSt.node (h : HedgeSt) (a : Nat) : HgNode := Cells.get {} a h.nodes

/-- What a segment keeps of a node, changed. -/
def HedgeSt.modNode (a : Nat) (f : HgNode → HgNode) (h : HedgeSt) : HedgeSt :=
  { h with nodes := Cells.modify {} a f h.nodes }

/-- STATE of a segment: 0 OFF, 1 ROLLCALL, 2 SERVICE (Table 15.2). -/
def Chip.segState (c : Chip) (n : Nat) : Nat := c.fld F.hedge_SEG_STAT_STATE n

/-- A counter of a segment (Table 15.10). -/
def Chip.hgCnt (n k : Nat) (c : Chip) : Chip := c.bump F.hedge_SEG_CNT_COUNT 1 n k

/-- The Hedgerow cycle that an MT lies in (R388). -/
def hgCycle (mt : Nat) : Nat := mt / 192

/-- Units of a DOWN entry (R391). -/
def downUnits (w : Word) : Nat := if wbit w 24 then 2 else 1

/-- Units of a node's upstream streams (R391). -/
def upUnits (w : Word) : Nat := wbits w 31 27 + popcount (wbits w 31 27) (wbits w 26 3)

/-! ## Frames -/

/-- A Hedgerow frame with header, padding and FCS (R389). -/
def hgFrame (type dst src seq cycle : Nat) (payload : List Octet) : List Octet :=
  let adr (a : Nat) : List Octet := beOctets 6 (0x020000004800 + a)
  let body := adr dst ++ adr src ++ beOctets 2 0x88B5 ++ beOctets 1 type ++ beOctets 1 dst ++ beOctets 1 src ++
    beOctets 1 seq ++ beOctets 4 cycle ++ payload
  let padded := body ++ List.replicate (60 - body.length) 0
  padded ++ fcsOctets (crc32 padded)

/-- The admitted nodes of a segment as bits. -/
def Chip.admitted (c : Chip) (n : Nat) : Nat :=
  (List.range 32).foldl (fun a i => a + c.fld F.hedge_SEG_NODE_ADMITTED n i * 2 ^ i) 0

/-- The enabled DOWN entries that name a node, by place. -/
def Chip.downOf (c : Chip) (n node : Nat) : List Nat :=
  (List.range 24).filter (fun i => c.flag F.hedge_SEG_DOWN_EN n i && c.fld F.hedge_SEG_DOWN_NODE n i == node)

/-- A downstream stream entry (R393): its coded blocks fill NBLK blocks; what stands beyond the words that the job
produced is free.
[DESIGN CHOICE, log entry 104: safe] -/
def Chip.downEntry (n i : Nat) (ws : List Word) (c : Chip) : List Octet × Chip :=
  let e := c.rd .hedge_SEG_DOWN n i
  let nblk := if wbit e 24 then 3 else 1
  let octs := wordOcts ws
  let x := if octs.length < nblk * 72 then c.drawOctets (nblk * 72 - octs.length) else ([], c)
  (beOctets 1 (wbits e 29 25) ++ beOctets 1 (wbits e 24 24) ++ beOctets 1 nblk ++ beOctets 1 0 ++
    (octs ++ x.1).take (nblk * 72), x.2)

/-- The octets of a frame as its transmission begins (Table 15.3), with SEQ `seq`; none for an AUDIO frame without entries. -/
def Chip.hgBuild (n : Nat) (k : HgKind) (seq : Nat) (c : Chip) : Option (List Octet) × Chip :=
  let cyc := hgCycle c.mt
  let mk (type dst : Nat) (pay : List Octet) : Option (List Octet) :=
    some (hgFrame type dst 0 seq (cyc % 2 ^ 32) pay)
  match k with
  | .time =>
    let off := (c.now - tickInstant (cyc * 192)) / 65536 + 5600
    (mk 1 0xFF (beOctets 7 (cyc * 192 % 2 ^ 54) ++ beOctets 4 off ++ beOctets 1 (b2n (c.segState n == 2))), c)
  | .poll a => (mk 2 a [], c)
  | .service => (mk 4 0xFF (beOctets 4 (c.admitted n)), c)
  | .rollcall => (mk 5 0xFF [], c)
  | .control d o => (mk 7 d o, c)
  | .audio a =>
    let r := (c.downOf n a).foldl (fun (r : List Octet × Chip) i =>
      match Cells.find? i (r.2.hedge n).coded with
      | some ws => let e := r.2.downEntry n i ws; (r.1 ++ e.1, e.2)
      | none => r) ([], c)
    (if r.1.isEmpty then none else mk 6 a r.1, r.2)

/-- COUNTs that a frame takes on the wire with its preamble, at 0.8 µs an octet (R387).
[DEDUCED, log entry 103: unsafe] -/
def hgCounts (octets : List Octet) : Nat := (octets.length + 8) * 1000

/-- The frame in transmission has ended: it has been sent (R388, R392).
[DEDUCED, log entry 103: unsafe] -/
def Chip.hgEnd (n : Nat) (c : Chip) : Chip :=
  match (c.hedge n).cur with
  | none => c
  | some s =>
    if (c.hedge n).backoff.isSome ∨ c.count < s.start + hgCounts s.octets then c
    else
      let at_ := s.start + hgCounts s.octets
      let poll : Bool := match s.kind with | .poll _ => true | _ => false
      ((c.modHedge n (fun h => { h with cur := none, attempts := 0, ended := at_, awaiting := poll || h.awaiting })).hgCnt
        n 0).emit (.hedge n s.octets)

/-- The frames left after one has begun: the next ROLLCALL begins 100 µs after it (Table 15.2). -/
def hgSpaced (k : HgKind) (t : Nat) : List (HgKind × Nat) → List (HgKind × Nat)
  | (.rollcall, _) :: r => if k = .rollcall then (.rollcall, t + 125000) :: r else (.rollcall, t) :: r
  | l => l

/-- The next frame begins once the last, of the device or of a node, has ended and the gap of 9.6 µs has passed; an AUDIO frame waits for the
segment's jobs (R394). -/
def Chip.hgBegin (n : Nat) (c : Chip) : Chip :=
  let h := c.hedge n
  match h.cur, h.queue with
  | none, (k, after) :: rest =>
    if c.count < after ∨ c.count < max h.ended h.quiet + 12000 then c
    else
      let waits : Bool := match k with | .audio _ => h.flight != 0 || !h.jobs.isEmpty | _ => false
      if waits then c
      else
        let x := c.hgBuild n k h.seq
        match x.1 with
        | none => x.2.modHedge n (fun h => { h with queue := rest })
        | some o => x.2.modHedge n (fun h => { h with
            queue := hgSpaced k c.count rest, cur := some { kind := k, octets := o, start := x.2.count },
            seq := (h.seq + 1) % 256, attempts := 1 })
  | _, _ => c

/-- In ROLLCALL the next POLL is due when nothing else is and no REPLY is awaited (R390). -/
def Chip.hgPoll (n : Nat) (c : Chip) : Chip :=
  let h := c.hedge n
  if c.segState n = 1 ∧ h.queue.isEmpty ∧ h.cur.isNone ∧ h.awaiting = false ∧ h.cycle.isSome then
    let a := h.polled % 31 + 1
    c.modHedge n (fun h => { h with queue := [(.poll a, 0)], polled := a, clash := false })
  else c

/-- A segment goes on with what it has to send.
[DEDUCED, log entry 103: unsafe] -/
def Chip.hgRun (n : Nat) (c : Chip) : Chip :=
  if c.segState n = 0 then c.hgEnd n else ((c.hgEnd n).hgPoll n).hgBegin n

/-! ## Jobs (R394) -/

/-- The descriptor of a Hedgerow job: SIZE 0x2, FLUSH, and the segment's bound. -/
def hgJobWords (op bound src dst : Nat) : List Word :=
  [wofNat (op * 2 ^ 32 + 2 * 2 ^ 29 + bound * 2 ^ 25 + 2 ^ 24), 0, 0, 0, wofNat src, wofNat dst, 0, 0]

/-- A job of the segment waits for one of its two places. -/
def Chip.hgJob (n : Nat) (down : Bool) (place mt : Nat) (xs : List Word) (out : Nat) (c : Chip) : Chip :=
  let ws := hgJobWords (if down then 1 else 2) (c.fld F.hedge_SEG_CFG_BOUND n) xs.length out
  c.modHedge n (fun h => { h with jobs := h.jobs ++ [{ down := down, place := place, mt := mt, ws := ws, staged := xs }] })

/-- Waiting jobs are submitted while fewer than two are in flight; a refused one counts in BALERFAIL. -/
def Chip.hgSubmit (n : Nat) : Nat → Chip → Chip
  | 0, c => c
  | fuel + 1, c =>
    match (c.hedge n).jobs with
    | [] => c
    | j :: rest =>
      if 2 ≤ (c.hedge n).flight then c
      else
        let c := c.modHedge n (fun h => { h with jobs := rest })
        match c.balerHedge (c.fld F.hedge_SEG_CFG_BU n) (.hedge n j.down j.place j.mt) j.ws j.staged with
        | some c => Chip.hgSubmit n fuel (c.modHedge n (fun h => { h with flight := h.flight + 1 }))
        | none => Chip.hgSubmit n fuel (c.hgCnt n 6)

/-- The waiting jobs of a segment are tried. -/
def Chip.hgSubmitAll (n : Nat) (c : Chip) : Chip := Chip.hgSubmit n ((c.hedge n).jobs.length + 1) c

/-- A Hedgerow job has ended: a downstream entry is kept for its frame, an upstream entry's samples are written
(R382 to R384, R394). Each sample of a 16 kHz stream gives three through the 1:3 converter, 24 samples later. -/
def Chip.hedgeEnd (j : BalerJob) (d : JobEnd) (c : Chip) : Chip :=
  match j.frm with
  | .hedge n down place mt =>
    let c := c.modHedge n (fun h => { h with flight := h.flight - 1 })
    let c :=
      if d.status ≠ St.OK then c.hgCnt n 6
      else if down then c.modHedge n (fun h => { h with coded := Cells.insert place d.out h.coded })
      else
        let node := place / 32
        let idx := place % 32
        let late := Chip.hgCnt n 5
        if (c.fld F.hedge_SEG_NODE_UP48 n node).testBit idx then
          (d.out.zipIdx).foldl (fun c x => c.writeLocal 2 n node idx (mt + x.2) x.1 late) c
        else
          let k := upKey n node idx
          (d.out.zipIdx).foldl (fun c x => forRange 3 (fun p c =>
            c.writeLocal 2 n node idx (mt + 24 + 3 * x.2 + p) (wofInt (c.converted k 2 p)) late) (c.feed k (sval x.1))) c
    c.hgSubmitAll n
  | _ => c

/-! ## States (Table 15.2) -/

/-- The mode allows SERVICE. -/
def Chip.hgServes (c : Chip) : Bool :=
  let m := c.mode
  (m == Md.RUN || m == Md.ECO || m == Md.HOLDOVER || m == Md.DRAIN) && !c.chanRec

/-- SERVICE returns to ROLLCALL: ROLLCALL is sent three times, 100 µs apart, after any frame in progress. -/
def Chip.hgRollcall (n : Nat) (c : Chip) : Chip :=
  if c.segState n = 2 then
    let c := ((c.put F.hedge_SEG_STAT_STATE 1 n).put F.hedge_SEG_STAT_UNITS 0 n).put F.hedge_SEG_STAT_ADMITTED 0 n
    let c := forRange 32 (fun a c => c.put F.hedge_SEG_NODE_ADMITTED 0 n a) c
    c.modHedge n (fun h => { h with
      queue := h.queue.filter (fun x => x.1 == .time) ++ List.replicate 3 (.rollcall, c.count)
      round := false, polled := 0, awaiting := false, clash := false, jobs := [], coded := [] })
  else c

/-- Every segment leaves SERVICE: the mode enters ACQUIRE or TEST, or the channel domain enters RECOVERY. -/
def Chip.hgLeave (c : Chip) : Chip := forRange 24 (fun n c => c.hgRollcall n) c

/-- RECOVERY of the channel domain discards the segments' jobs too (R405). -/
def Chip.recoverHedge (c : Chip) : Chip :=
  forRange 24 (fun n c => c.modHedge n (fun h => { h with flight := 0, jobs := [] })) c.hgLeave

/-- EN written 0: nothing further is sent; a frame in progress completes. -/
def Chip.hgOff (n : Nat) (c : Chip) : Chip :=
  let c := c.hgRollcall n
  (c.put F.hedge_SEG_STAT_STATE 0 n).modHedge n (fun h => { h with
    queue := [], round := false, polled := 0, awaiting := false, cycle := none })

/-- A write of SEG.CFG (Table 15.6). -/
def Chip.writeSegCfg (n : Nat) (w : Word) (c : Chip) : Chip :=
  if wbits w 31 28 < 8 then c.put F.hedge_SEG_STAT_LASTERR St.RANGE n
  else
    let was := c.flag F.hedge_SEG_CFG_EN n
    let c := c.wr .hedge_SEG_CFG (wput (wput w 34 34 0) 5 0 0) n
    let c := if wbit w 35 && !was then c.put F.hedge_SEG_STAT_STATE 1 n
      else if !wbit w 35 && was then c.hgOff n else c
    c.iff (wbit w 34 && wbit w 35) (Chip.hgRollcall n)

/-- Units of the enabled DOWN entries of a segment (R391). -/
def Chip.downCharge (n : Nat) (c : Chip) : Nat :=
  (List.range 24).foldl (fun u i =>
    if c.flag F.hedge_SEG_DOWN_EN n i then u + downUnits (c.rd .hedge_SEG_DOWN n i) else u) 0

/-- Units charged on a segment in SERVICE: its enabled DOWN entries and its admitted nodes (R391). -/
def Chip.hgUnits (n : Nat) (c : Chip) : Nat :=
  (List.range 32).foldl (fun u a =>
    if c.flag F.hedge_SEG_NODE_ADMITTED n a then u + upUnits (c.rd .hedge_SEG_NODE n a) else u) (c.downCharge n)

/-- UNITS of a segment; entries enabled in ROLLCALL may charge more than its five bits hold, and it then shows 31.
[DESIGN CHOICE, log entry 139: unsafe] -/
def Chip.putUnits (n : Nat) (c : Chip) : Chip := c.put F.hedge_SEG_STAT_UNITS (min 31 (c.hgUnits n)) n

/-- Admission at the transition to SERVICE (R391). -/
def Chip.hgAdmit (n : Nat) (c : Chip) : Chip :=
  let down := c.downCharge n
  let r := (List.range 32).foldl (fun (r : Nat × Nat × Chip) a =>
    let w := r.2.2.rd .hedge_SEG_NODE n a
    if a = 0 ∨ !wbit w 35 then r
    else if !wbit w 33 && (r.2.2.rd .hedge_SEG_ALLOW n).toNat.testBit a && decide (r.2.1 < 8) &&
        decide (r.1 + upUnits w ≤ 24) then
      (r.1 + upUnits w, r.2.1 + 1, (r.2.2.put F.hedge_SEG_NODE_ADMITTED 1 n a).clearConv (upKey n a 0) (upKey n a 32))
    else (r.1, r.2.1, r.2.2.put F.hedge_SEG_EVENT_NOTADM 1 n)) (down, 0, c)
  let c := (r.2.2.putUnits n).put F.hedge_SEG_STAT_ADMITTED r.2.1 n |>.put F.hedge_SEG_STAT_STATE 2 n
  c.modHedge n (fun h => { h with
    awaiting := false, audioFrom := hgCycle c.mt + 1
    nodes := h.nodes.map (fun x => (x.1, { x.2 with heard := none, absent := 0 })) })

/-- The samples of a downstream stream: of those that its bus gives, all, or every third through the 3:1 converter (R384). -/
def Chip.downSamples (key : Nat) (wide : Bool) : List Int → Chip → List Int × Chip
  | a :: b :: d :: l, c =>
    if wide then
      let r := Chip.downSamples key wide l c
      (a :: b :: d :: r.1, r.2)
    else
      let c := c.feed key a
      let y := c.converted key 3 0
      let r := Chip.downSamples key wide l ((c.feed key b).feed key d)
      (y :: r.1, r.2)
  | l, c => (l, c)

/-- The downstream jobs of a cycle: a 48 kHz stream takes its 192 samples out(t - B - 576), a 16 kHz stream 64 through its
converter, 24 samples later (R384, R393, R394). -/
def Chip.hgDownJobs (n cyc : Nat) (c : Chip) : Chip :=
  forRange 24 (fun i c =>
    let e := c.rd .hedge_SEG_DOWN n i
    if !wbit e 35 || c.fld F.hedge_SEG_NODE_ADMITTED n (wbits e 34 30) == 0 then c
    else
      let t := (cyc + 2) * 192
      let x := c.mixReadAll (wbits e 23 12) (t - c.blockB - 576) 192
      let x := x.2.downSamples (downKey n i) (wbit e 24) x.1
      x.2.hgJob n true i t (x.1.map wofInt) (x.1.length)) c

/-- An admitted node whose AUDIO frames have been absent for eight cycles is LOST (R395). -/
def Chip.hgAbsent (n cyc : Nat) (c : Chip) : Chip :=
  if cyc ≤ (c.hedge n).audioFrom then c
  else forRange 32 (fun a c =>
    if c.flag F.hedge_SEG_NODE_ADMITTED n a && decide (0 < c.fld F.hedge_SEG_NODE_NUP n a) then
      let x := (c.hedge n).node a
      let k := if x.heard = some (cyc - 1) then 0 else x.absent + 1
      let c := c.modHedge n (HedgeSt.modNode a (fun x => { x with absent := k }))
      if k = 8 then (c.put F.hedge_SEG_NODE_LOST 1 n a).put F.hedge_SEG_EVENT_NODELOST 1 n else c
    else c) c

/-- HEDGEROW_CYCLE_START: at each cycle start a segment sends TIME and then its cycle's frames (R388, R392). -/
def Chip.cycleStart (n : Nat) (c : Chip) : Chip :=
  let cyc := hgCycle c.mt
  if !c.live ∨ c.segState n = 0 ∨ (c.hedge n).cycle = some cyc then c
  else
    let c := c.hgEnd n
    let served := c.segState n == 2
    let c := c.iff served (Chip.hgAbsent n cyc)
    let c := c.iff (c.segState n == 1 && c.hgServes && (c.hedge n).round) (Chip.hgAdmit n)
    let c := c.modHedge n (fun h => { h with cycle := some cyc })
    let c :=
      if c.segState n = 2 then
        let nodes := if served then (List.range 32).filter (fun a => c.flag F.hedge_SEG_NODE_ADMITTED n a) else []
        let c := c.modHedge n (fun h => { h with
          coded := []
          queue := [(.time, 0), (.service, 0)] ++ nodes.map (fun a => (.audio a, 0)) ++
            h.queue.filter (fun x => match x.1 with | .control _ _ => true | _ => false) })
        (c.iff served (Chip.hgDownJobs n cyc)).hgSubmitAll n
      else c.modHedge n (fun h => { h with queue := (.time, 0) :: h.queue })
    c.hgBegin n

/-! ## Receiving (R389, R390, R393, R395, R396) -/

/-- A received frame as its header and payload; none where a check of R389 fails that needs no state. -/
structure HgRx where
  type : Nat
  src : Nat
  cycle : Nat
  payload : List Octet
  deriving DecidableEq, Repr

/-- The layout and the header checks of R389.
[DEDUCED, log entry 164: unsafe] -/
def parseHg (l : List Octet) : Option HgRx :=
  let a := ofBeOctets (l.take 6)
  let s := ofBeOctets ((l.drop 6).take 6)
  let type := at_ l 14
  let src := at_ l 16
  if fcsGood l ∧ 64 ≤ l.length ∧ a = 0x020000004800 ∧ be16 l 12 = 0x88B5 ∧ s = 0x020000004800 + src ∧
      1 ≤ src ∧ src ≤ 31 ∧ at_ l 15 = 0 ∧ (type = 3 ∨ type = 6 ∨ type = 7) then
    some { type := type, src := src, cycle := be32 l 18, payload := (l.drop 22).take (l.length - 26) }
  else none
where
  /-- An octet of the frame. -/
  at_ (l : List Octet) (i : Nat) : Nat := (l.getD i 0).toNat

/-- A received frame is discarded and counted in FORMAT; an FCS error in answer to a POLL counts towards CONFLICT
(R389, R390). -/
def Chip.hgFormat (n : Nat) (fcsBad : Bool) (c : Chip) : Chip :=
  let c := c.hgCnt n 4
  if fcsBad && (c.hedge n).awaiting then c.modHedge n (fun h => { h with clash := true }) else c

/-- A poll has ended without a valid REPLY (R390). -/
def Chip.pollFailed (n : Nat) (c : Chip) : Chip :=
  let h := c.hedge n
  let a := h.polled
  let x := h.node a
  let m := x.misses + 1
  let k := if h.clash then x.clashes + 1 else 0
  let c := c.modHedge n (fun h => { (h.modNode a (fun x => { x with misses := m, clashes := k })) with
    awaiting := false, clash := false, round := h.round || a == 31 })
  let c := if 3 ≤ m then c.put F.hedge_SEG_NODE_PRESENT 0 n a else c
  if k = 3 then (c.put F.hedge_SEG_NODE_CONFLICT 1 n a).put F.hedge_SEG_EVENT_CONFLICT 1 n else c

/-- POLL_TIMEOUT: 300 µs have passed after a POLL's last octet without a REPLY (R390). -/
def Chip.pollTimeout (n : Nat) (c : Chip) : Chip :=
  let c := c.hgEnd n
  if c.segState n = 1 && (c.hedge n).awaiting && decide ((c.hedge n).ended + 375000 ≤ c.count) then
    (c.pollFailed n).hgRun n
  else c

/-- A REPLY (R390): it answers the POLL awaited, having begun within 300 µs of it. -/
def Chip.takeReply (n : Nat) (l : List Octet) (f : HgRx) (c : Chip) : Chip :=
    let h := c.hedge n
    let nup := ((f.payload.getD 0 0).toNat)
    if c.segState n ≠ 1 ∨ h.awaiting = false ∨ f.src ≠ h.polled ∨ 24 < nup ∨ l.length ≠ 64 ∨
        h.ended + 375000 + hgCounts l < c.count then
      c.hgFormat n false
    else
      let was := c.flag F.hedge_SEG_NODE_PRESENT n f.src
      let c := (c.hgCnt n 1).modHedge n (fun h => { (h.modNode f.src (fun x => { x with misses := 0, clashes := 0 })) with
        awaiting := false, clash := false, round := h.round || f.src == 31 })
      let c := (((c.put F.hedge_SEG_NODE_PRESENT 1 n f.src).put F.hedge_SEG_NODE_CONFLICT 0 n f.src).put
        F.hedge_SEG_NODE_NUP nup n f.src).put F.hedge_SEG_NODE_UP48 (ofBeOctets ((f.payload.drop 1).take 3)) n f.src
      (c.iff (!was) (Chip.put F.hedge_SEG_EVENT_NODEUP 1 n)).hgRun n

/-- The stream entries of an AUDIO payload: INDEX and coded words; none where one does not fit the node's
declaration or the length (R393). -/
def hgEntries (nup up48 : Nat) : Nat → List Octet → Option (List (Nat × List Word))
  | 0, _ => none
  | _ + 1, [] => some []
  | fuel + 1, l =>
    let o (i : Nat) : Nat := (l.getD i 0).toNat
    let wide := up48.testBit (o 0)
    let nblk := if wide then 3 else 1
    if o 0 < nup ∧ o 1 = b2n wide ∧ o 2 = nblk ∧ o 3 = 0 ∧ 4 + 72 * nblk ≤ l.length then
      (hgEntries nup up48 fuel (l.drop (4 + 72 * nblk))).map
        (fun r => (o 0, octWords (16 * nblk) ((l.drop 4).take (72 * nblk))) :: r)
    else none

/-- An AUDIO frame of a node (R393 to R395): each entry becomes a DECOMPRESS job. -/
def Chip.takeAudio (n : Nat) (f : HgRx) (c : Chip) : Chip :=
    let cyc := extendHalf 32 f.cycle (hgCycle c.mt)
    let x := (c.hedge n).node f.src
    if c.segState n ≠ 2 ∨ c.flag F.hedge_SEG_NODE_ADMITTED n f.src = false ∨ x.heard = some cyc then
      c.hgFormat n false
    else match hgEntries (c.fld F.hedge_SEG_NODE_NUP n f.src) (c.fld F.hedge_SEG_NODE_UP48 n f.src) 25 f.payload with
      | none => c.hgFormat n false
      | some es =>
        let c := ((c.hgCnt n 1).put F.hedge_SEG_NODE_LOST 0 n f.src).modHedge n
          (HedgeSt.modNode f.src (fun x => { x with heard := some cyc, absent := 0 }))
        let c := es.foldl (fun c e => c.hgJob n false (f.src * 32 + e.1) ((cyc - 1) * 192) e.2
          (if e.2.length = 48 then 192 else 64)) c
        (c.hgSubmitAll n).hgRun n

/-- Words that hold `k` octets in the PACK layout. -/
def packCount (k : Nat) : Nat := ceilDiv (8 * k) 36

/-- A CONTROL frame: the payload is pushed into CTLRX as one packet (R396). The payload is what follows the header up to the
FCS: the padding of a frame of 64 octets is not told from it.
[DEDUCED, log entry 140: unsafe] -/
def Chip.takeControl (n : Nat) (f : HgRx) (c : Chip) : Chip :=
    let k := f.payload.length
    if c.segState n ≠ 2 ∨ c.flag F.hedge_SEG_NODE_ADMITTED n f.src = false ∨ k = 0 ∨ 1400 < k then
      c.hgFormat n false
    else
      let m := packCount k
      let ws := packIn m (f.payload ++ List.replicate (36 * (k / 36 + 1) - k) 0)
      let ch := c.fld F.hedge_SEG_CFG_CTLRX n
      let c := (c.hgCnt n 1).push ch (wofNat (k * 32 + f.src)) false
      ((ws.zipIdx).foldl (fun c x => c.push ch x.1 (x.2 + 1 == m)) c).hgRun n

/-- A whole packet popped from a chute: its words without the length entry (R296 to R306). -/
def Chip.popPacket (ch : Nat) : Nat → List Word → Chip → List Word × Chip
  | 0, ws, c => (ws, c)
  | fuel + 1, ws, c =>
    let first := (c.chute ch).lenMode && (c.chute ch).left == 0 && ws.isEmpty
    let x := c.popChute ch
    match x.1 with
    | none => (ws, x.2)
    | some e =>
      let ws := if first then ws else ws ++ [e.word]
      let done := if (x.2.chute ch).lenMode then (x.2.chute ch).left == 0 else e.fin
      if done then (ws, x.2) else Chip.popPacket ch fuel ws x.2

/-- HG_CONTROL_SEND: a whole packet waiting in CTLTX is popped and sent, or discarded and counted in FORMAT
(R396). -/
def Chip.controlSend (n : Nat) (c : Chip) : Chip :=
  let ch := c.fld F.hedge_SEG_CFG_CTLTX n
  if !c.live ∨ c.segState n ≠ 2 ∨ c.fld F.chute_C_PKTS_PACKETS ch = 0 then c
  else
    let x := c.popPacket ch ((c.chute ch).count + 1) []
    let w := x.1.getD 0 0
    let dst := wbits w 7 0
    let k := wbits w 18 8
    let known : Bool := dst == 0xFF || (decide (1 ≤ dst ∧ dst ≤ 31) && x.2.flag F.hedge_SEG_NODE_ADMITTED n dst)
    if k = 0 ∨ 1400 < k ∨ x.1.length ≠ 1 + packCount k ∨ known = false then x.2.hgCnt n 4
    else
      let octs := (packOut (x.1.drop 1 ++ List.replicate (8 * (x.1.length / 8 + 1) - (x.1.length - 1)) 0)).take k
      (x.2.modHedge n (fun h => { h with queue := h.queue ++ [(.control dst octs, 0)] })).hgRun n

/-- A frame of a node has been received on a segment that is not OFF: its header says what it is (R389). The device's next frame
waits for the gap after it (R392). -/
def Chip.hgReceive (n : Nat) (l : List Octet) (c : Chip) : Chip :=
  let c := c.hgEnd n
  if c.segState n = 0 then c
  else
    let c := c.modHedge n (fun h => { h with quiet := c.count })
    match parseHg l with
    | none => c.hgFormat n (!fcsGood l)
    | some f => if f.type = 3 then c.takeReply n l f else if f.type = 6 then c.takeAudio n f else c.takeControl n f

/-- HG_REPLY_RECEIVED (R390). -/
def Chip.replyReceived (n : Nat) (l : List Octet) (c : Chip) : Chip := c.hgReceive n l

/-- HG_AUDIO_RECEIVED (R393). -/
def Chip.audioReceived (n : Nat) (l : List Octet) (c : Chip) : Chip := c.hgReceive n l

/-- HG_CONTROL_RECEIVED (R396). -/
def Chip.controlReceived (n : Nat) (l : List Octet) (c : Chip) : Chip := c.hgReceive n l

/-- HG_FRAME_FORMAT_DISCARD: a received frame that fails a check of R389 is discarded and counted in FORMAT, as any frame that
is received is judged. -/
def Chip.formatDiscard (n : Nat) (l : List Octet) (c : Chip) : Chip := c.hgReceive n l

/-! ## Collisions (R392) -/

/-- HG_COLLISION: COL during a frame of the device: a jam, and back-off of r slot times with r free below
2^min(n, 10), or EXCESSCOL after 16 attempts; during a poll's answer it counts towards CONFLICT.
[DESIGN CHOICE, log entry 102: safe] -/
def Chip.collision (n : Nat) (c : Chip) : Chip :=
  let c := c.hgEnd n
  let h := c.hedge n
  if c.segState n = 0 ∧ h.cur.isNone then c
  else match h.cur with
  | none => (c.hgCnt n 2).iff h.awaiting (Chip.modHedge n (fun h => { h with clash := true }))
  | some s =>
    if h.backoff.isSome then c
    else
      let c := (c.hgCnt n 2).emit (.hedgeJam n)
      if 16 ≤ h.attempts then
        let c := (c.hgCnt n 3).modHedge n (fun h => { h with cur := none, attempts := 0, ended := c.count })
        match s.kind with | .poll _ => c.pollFailed n | _ => c
      else
        let x := c.drawNat
        let r := x.1 % 2 ^ min h.attempts 10
        x.2.modHedge n (fun h => { h with backoff := some (c.count + r * 64000) })

/-- HG_BACKOFF_EXPIRY: the frame is attempted again; SFDOFF of TIME is written as it is sent (Table 15.3). -/
def Chip.backoffExpiry (n : Nat) (c : Chip) : Chip :=
  match (c.hedge n).backoff, (c.hedge n).cur with
  | some t, some s =>
    if t ≤ c.count then
      let o := if s.kind = .time then ((c.hgBuild n .time (((c.hedge n).seq + 255) % 256)).1).getD s.octets else s.octets
      c.modHedge n (fun h => { h with
        backoff := none, attempts := h.attempts + 1, cur := some { s with octets := o, start := c.count } })
    else c
  | _, _ => c

/-! ## DOWN entries (R385, R391) -/

/-- A write of SEG.DOWN (Table 15.12).
[DEDUCED, log entry 148: unsafe] -/
def Chip.writeDown (n i : Nat) (w : Word) (c : Chip) : Chip :=
  let old := c.rd .hedge_SEG_DOWN n i
  let keep := wput w 11 0 0
  let b := wbits w 23 12
  let serving := c.segState n == 2
  let r := if wbit w 24 then 192 + c.blockB else 240 + c.blockB
  let bad := St.pick [St.when (wbits w 34 30 == 0 || decide (23 < wbits w 29 25)) St.RANGE, c.readerStatus b r]
  if wbit old 35 then
    if wbits w 34 12 ≠ wbits old 34 12 then
      c.put F.hedge_SEG_STAT_LASTERR (St.pick [if wbit w 35 then bad else St.OK, St.BUSY]) n
    else if wbit w 35 then c
    else
      let c := (c.wr .hedge_SEG_DOWN keep n i).subFrom F.chan_BUSGAIN_READERS 1 b
      c.iff serving (Chip.putUnits n)
  else if wbit w 35 then
    let st := St.pick [bad, St.when (serving && decide (24 < c.hgUnits n + downUnits w)) St.QUOTA]
    if st ≠ St.OK then c.put F.hedge_SEG_STAT_LASTERR st n
    else
      let c := ((c.wr .hedge_SEG_DOWN keep n i).addTo F.chan_BUSGAIN_READERS 1 b).clearConv (downKey n i) (downKey n i + 1)
      c.iff serving (Chip.putUnits n)
  else c.wr .hedge_SEG_DOWN keep n i

end Sys2Proof.Machine
end

