-- ==== Sys2Proof/Machine/Mem.lean ====
section
/-! DEFINITION. The memory controller's own commands (R408 to R428): the check code, bank queues, activate counting
and host throttling, refresh windows, parity alerts, the patrol scrub, drift pauses and frequency points. The words
of DRAM change where a write is accepted; a queue entry stands for the command still to be issued. -/
namespace Sys2Proof.Machine

open Sys2Proof

/-- The memory controller changed. -/
def Chip.modMc (f : McSt → McSt) (c : Chip) : Chip := { c with mc := f c.mc }

/-- A subchannel's state. -/
def Chip.sub (c : Chip) (s : Nat) : SubSt := Cells.get {} s c.mc.subs

/-- A subchannel changed. -/
def Chip.modSub (s : Nat) (f : SubSt → SubSt) (c : Chip) : Chip :=
  c.modMc (fun m => { m with subs := Cells.modify {} s f m.subs })

/-- The place of a bank in `McSt.banks`: within a subchannel, bank group runs fastest (R415). -/
def DramPlace.key (p : DramPlace) : Nat := p.sub * 128 + (p.dimm * 2 + p.rank) * 32 + p.bank * 8 + p.bg

/-- A bank's state. -/
def Chip.bankSt (c : Chip) (k : Nat) : BankSt := Cells.get {} k c.mc.banks

/-- A bank changed. -/
def Chip.modBank (k : Nat) (f : BankSt → BankSt) (c : Chip) : Chip :=
  c.modMc (fun m => { m with banks := Cells.modify {} k f m.banks })

/-! ## The check code (R408 to R410) -/

/-- The bits of an error pattern that fall on a device within a beat: bit 40 b + l is lane l of beat b. -/
def devBeat (e dev beat : Nat) : Nat := nbits e (40 * beat + 4 * dev + 3) (40 * beat + 4 * dev)

/-- The device and beat that a pattern is confined to, if it is confined to one of each. -/
def oneBeat (e : Nat) : Option (Nat × Nat) :=
  (List.range 160).foldl (fun r i => if devBeat e (i % 10) (i / 10) * 2 ^ (40 * (i / 10) + 4 * (i % 10)) = e
    then some (i % 10, i / 10) else r) none

/-- The device that a pattern is confined to. -/
def oneDevice (e : Nat) : Option Nat :=
  (List.range 10).foldl (fun r d =>
    if (List.range 16).foldl (fun s b => s + devBeat e d b * 2 ^ (40 * b + 4 * d)) 0 = e then some d else r) none

/-- What the decoder makes of a burst read with an error pattern: no error, corrected in a device and beat, with
the pattern that stays in the words, or uncorrectable. -/
inductive Decode where
  | good
  | fixed (dev beat left : Nat)
  | bad
  deriving DecidableEq, Repr

/-- The decoder of R409. A pattern beyond one device and beat is uncorrectable unless it matches a correctable one,
which the code's matrix decides (a free value); within one device that match lies in another device.
[DESIGN CHOICE, log entry 96: safe] -/
def decodeBurst (e : Nat) : Decode :=
  if e = 0 then .good
  else match oneBeat e with
  | some (d, b) => .fixed d b 0
  | none => match Config.dramAlias e with
    | none => .bad
    | some i =>
      let d := i % 10
      let b := i / 10 % 16
      let v := i / 160 % 15 + 1
      if oneDevice e = some d then .bad
      else .fixed d b (Nat.xor e (v * 2 ^ (40 * b + 4 * d)))

/-- The words of a burst with an error pattern in their bits (R408): word w is lanes 0 to 35 of beat w. -/
def spoil (ws : List Word) (e : Nat) : List Word :=
  ws.zipIdx.map (fun p => wofNat (Nat.xor p.1.toNat (nbits e (40 * p.2 + 35) (40 * p.2))))

/-- A read of a burst that was `x` when it was accepted, with an error pattern met on it: the words answered, if any, and the
device after: logged, and a corrected burst written back unless a write has been accepted since (R409, R410, R420). An
uncorrectable pattern stays in the burst.
[DESIGN CHOICE, log entry 96: safe] [DESIGN CHOICE, log entry 97: safe] -/
def Chip.serveRead (src b e : Nat) (x : Burst) (c : Chip) : Option (List Word) × Chip :=
  if c.dramBursts ≤ b then (none, c.logDram Mt.RANGE src b 15 15)
  else
    let same := c.burst b == x
    if x.bad = 1 then
      let (f, c) := c.drawBit
      (none, c.logDram (if e = 0 ∨ f then Mt.POISON else Mt.UNCORR) src b 15 15)
    else if x.bad ≠ 0 then (none, c.logDram Mt.UNCORR src b 15 15)
    else match decodeBurst e with
      | .good => (some x.ws, c)
      | .fixed d t left =>
        (some (spoil x.ws left), (c.iff same (Chip.putBurst b (spoil x.ws left))).logDram Mt.CORR src b d t)
      | .bad => (none, (c.iff same (Chip.setBurst b { x with bad := 2 })).logDram Mt.UNCORR src b 15 15)

/-! ## Accepting requests (R412 to R415, R419) -/

/-- A burst's words with the words that a mask selects replaced. -/
def maskWords (mask : Nat) (old new : List Word) : List Word :=
  (List.range 16).map (fun i => if mask.testBit i then new.getD i 0 else old.getD i 0)

/-- The bank of a request. -/
def Chip.bankOf (c : Chip) (r : DramReq) : Nat := (c.place r.burst).key

/-- The request must wait before its bank queue: the queue is full, or its requester is throttled (R415, R419). -/
def Chip.mustHold (c : Chip) (r : DramReq) : Bool :=
  decide (8 ≤ (c.bankSt (c.bankOf r)).queue.length)
    || (r.host && decide (c.count < Cells.get 0 r.src c.mc.hostNext))

/-- A write takes effect in the words (R413, R414).
[DEDUCED, log entry 95: unsafe] [DEDUCED, log entry 126: unsafe] -/
def Chip.takeWrite (r : DramReq) (c : Chip) : Chip :=
  if r.mask = 0xFFFF then c.putBurst r.burst r.ws
  else if c.burstOk r.burst then c.putBurst r.burst (maskWords r.mask (c.burst r.burst).ws r.ws)
  else (c.poison r.burst).logDram (if (c.burst r.burst).bad = 1 then Mt.POISON else Mt.UNCORR) r.src r.burst 15 15

/-- The responses that can be returned: each requester's reads in the order it made them (R413). -/
def Chip.answer : Nat → Chip → Chip
  | 0, c => c
  | n + 1, c =>
    match c.mc.reads.find? (fun x => x.done.isSome && c.mc.reads.all (fun y => decide (y.src ≠ x.src ∨ x.id ≤ y.id))) with
    | none => c
    | some x => Chip.answer n ((c.modMc (fun m => { m with reads := m.reads.filter (fun y => decide (y.id ≠ x.id)) })).emit
        (.dramData x.src x.burst (x.done.getD none)))

/-- Every response that can be returned is. -/
def Chip.answerAll (c : Chip) : Chip := Chip.answer (c.mc.reads.length + 1) c

/-- A read's outcome recorded. -/
def Chip.readDone (id : Nat) (ws : Option (List Word)) (c : Chip) : Chip :=
  (c.modMc (fun m => { m with reads := m.reads.map (fun x => if x.id = id then { x with done := some ws } else x) })).answerAll

/-- A request enters its bank queue; a read's words are those it would find now. A burst beyond the fitted capacity
is answered at once without any DRAM access (R412).
[DEDUCED, log entry 95: unsafe] -/
def Chip.acceptReq (r : DramReq) (c : Chip) : Chip :=
  let id := c.mc.nextId
  let r := { r with id := id }
  let c := c.modMc (fun m => { m with nextId := id + 1 })
  let c := c.iff (!r.write) (Chip.modMc (fun m => { m with reads := m.reads ++ [{ id := id, src := r.src, burst := r.burst }] }))
  let c := c.iff (r.host && (Cells.find? r.src c.mc.hostNext).isSome)
    (Chip.modMc (fun m => { m with hostNext := Cells.insert r.src (c.count + 1250) m.hostNext }))
  if c.dramBursts ≤ r.burst then
    let c := c.logDram Mt.RANGE r.src r.burst 15 15
    c.iff (!r.write) (Chip.readDone id none)
  else
    let r := if r.write then r else { r with ws := (c.burst r.burst).ws, bad := (c.burst r.burst).bad }
    let c := c.iff r.write (Chip.takeWrite r)
    c.modBank (c.bankOf r) (fun b => { b with queue := b.queue ++ [r] })

/-- Held requests enter as far as they can: a requester's requests stay in order (R415). -/
def Chip.admitHeld (c : Chip) : Chip :=
  c.mc.held.foldl (fun c r =>
    if c.mustHold r ∨ c.mc.held.any (fun x => decide (x.src = r.src)) then
      c.modMc (fun m => { m with held := m.held ++ [r] })
    else c.acceptReq r) (c.modMc (fun m => { m with held := [] }))

/-- DRAM_REQUEST: a whole-burst read, or a write with a word mask, reaches the controller (R413 to R415). -/
def Chip.dramRequest (src : Nat) (host : Bool) (b : Nat) (write : Bool) (mask : Nat) (ws : List Word) (c : Chip) : Chip :=
  let c := c.modMc (fun m => { m with held := m.held ++ [{ src := src, host := host, burst := b, write := write, mask := mask, ws := ws }] })
  c.admitHeld

/-! ## Issuing commands (R415, R418, R419) -/

/-- Rows counted in an activate table: 16 entries, the row's own, a free one, or the one of least count, lowest
entry first (R418). Which free entry is taken the spec leaves open. The count after is returned.
[DESIGN CHOICE, log entry 98: safe] -/
def countRow (pick row : Nat) (t : List (Nat × Nat × Nat)) : Nat × Nat × List (Nat × Nat × Nat) :=
  match t.find? (fun x => x.2.1 == row) with
  | some x => (x.1, x.2.2 + 1, t.map (fun y => if y.1 = x.1 then (y.1, row, y.2.2 + 1) else y))
  | none =>
    let open_ := (List.range 16).filter (fun i => !t.any (fun x => x.1 == i))
    match open_ with
    | i0 :: _ =>
      let i := open_.getD (pick % open_.length) i0
      (i, 1, t ++ [(i, row, 1)])
    | [] =>
      let least := t.foldl (fun (m : Nat × Nat) x => if x.2.2 < m.2 ∨ (x.2.2 = m.2 ∧ x.1 < m.1) then (x.1, x.2.2) else m)
        (16, (t.getD 0 (0, 0, 0)).2.2)
      (least.1, least.2 + 1, t.map (fun y => if y.1 = least.1 then (y.1, row, least.2 + 1) else y))

/-- A device-class activate updates its bank's table, and queues a neighbour refresh at THRESH (R418).
[DESIGN CHOICE, log entry 98: safe] -/
def Chip.countAct (k row : Nat) (c : Chip) : Chip :=
  let (pick, c) := c.drawNat
  let (i, n, t) := countRow pick row (c.bankSt k).table
  if c.fld F.mc_ACTCFG_THRESH ≤ n then
    c.modBank k (fun b => { b with table := t.filter (fun x => x.1 != i), nbr := b.nbr ++ [row] })
  else c.modBank k (fun b => { b with table := t })

/-- A host-class activate is counted; at BANKMAX the bank and the requester are throttled until the window ends
(R419). -/
def Chip.hostAct (k : Nat) (r : DramReq) (c : Chip) : Chip :=
  let n := (c.bankSt k).hostActs + 1
  let c := c.modBank k (fun b => { b with hostActs := n })
  if n = c.mc.winMax then
    (((c.modBank k (fun b => { b with throttled := true })).modMc (fun m =>
      { m with hostNext := Cells.insert r.src (c.count + 1250) m.hostNext })).logDram Mt.THROTTLE r.src r.burst 15 15)
  else c

/-- The banks of a subchannel that hold requests, in order from the rotating pointer. -/
def Chip.banksOf (c : Chip) (s : Nat) : List Nat :=
  (List.range 128).map (fun i => s * 128 + ((c.sub s).ptr + i) % 128)

/-- Requests of a subchannel of one kind. -/
def Chip.waitingIn (c : Chip) (s : Nat) (f : DramReq → Bool) : Nat :=
  ((c.banksOf s).map (fun k => ((c.bankSt k).queue.filter f).length)).sum

/-- The request that a bank would serve next among those allowed: the oldest to the open row, at most 8 in
succession while another waits, else the oldest (R415). -/
def Chip.bankPick (c : Chip) (k : Nat) (ok : DramReq → Bool) : Option DramReq :=
  let b := c.bankSt k
  let l := b.queue.filter ok
  let hit := l.find? (fun r => decide (some (c.place r.burst).row = b.row))
  match hit with
  | some r => if b.streak < 8 ∨ l.all (fun x => decide (some (c.place x.burst).row = b.row)) then some r else l.head?
  | none => l.head?

/-- One data slot: the request leaves its queue, and a read is in flight. -/
def Chip.issueData (s k : Nat) (r : DramReq) (c : Chip) : Chip :=
  let c := c.modBank k (fun b => { b with queue := b.queue.filter (fun x => decide (x.id ≠ r.id)), streak := b.streak + 1 })
  let c := c.modSub s (fun x => { x with
    sent := (r :: x.sent).take 64
    flight := if r.write then x.flight else x.flight ++ [r]
    devRun := if r.host then 0 else x.devRun + 1 })
  c.emit (.dramCommand s (if r.write then "WR" else "RD") (k % 128) (c.place r.burst).row)

/-- The bank after one in the order of the rotating pointer: bank group fastest, over the fitted ranks (R415). -/
def Chip.nextBank (c : Chip) (k : Nat) : Nat :=
  ((List.range 128).find? (fun i =>
    let b := (k + 1 + i) % 128
    decide (b / 32 % 2 < 2 ^ c.fld F.mc_CFG_RANKS ∧ b / 64 < 2 ^ c.fld F.mc_CFG_DIMMS))).elim 0 (fun i => (k + 1 + i) % 128)

/-- An activate of a row for a request; the rotating pointer advances one bank (R415, R418, R419). -/
def Chip.issueAct (s k : Nat) (r : DramReq) (c : Chip) : Chip :=
  let row := (c.place r.burst).row
  let c := (c.modBank k (fun b => { b with row := some row, streak := 0 })).modSub s (fun x => { x with ptr := c.nextBank x.ptr })
  let c := if r.host then c.hostAct k r else c.countAct k row
  c.emit (.dramCommand s "ACT" (k % 128) row)

/-- A neighbour refresh: the rows two and one below and above, inside the bank; its bank closes (R418). -/
def Chip.issueNbr (s k row : Nat) (c : Chip) : Chip :=
  let top := 2 ^ (if c.flag F.mc_CFG_DENSITY then 17 else 16)
  let rows := ([(row : Int) - 2, (row : Int) - 1, (row : Int) + 1, (row : Int) + 2]).filter (fun x => decide (0 ≤ x ∧ x < top))
  let c := c.modBank k (fun b => { b with nbr := b.nbr.drop 1, row := none, streak := 0 })
  let c := c.bump F.mc_CNT_COUNT 1 4
  rows.foldl (fun c x => c.emit (.dramCommand s "NBR" (k % 128) x.toNat)) c

/-- A subchannel issues no request: it pauses, or a change of frequency point runs (R426, R428). -/
def Chip.subStopped (c : Chip) (s : Nat) : Bool := c.mc.changing || c.mc.pause == some s

/-- DRAM_COMMAND_ISSUE: a subchannel picks and issues its next command (R415). Between a data slot and an activate
that are both possible, and among data slots of several banks, the spec leaves the choice.
[DESIGN CHOICE, log entry 98: safe] -/
def Chip.dramIssue (s : Nat) (c : Chip) : Chip :=
  if c.subStopped s then c
  else
    let c := c.admitHeld
    match (c.banksOf s).find? (fun k => !(c.bankSt k).nbr.isEmpty) with
    | some k => c.issueNbr s k ((c.bankSt k).nbr.headD 0)
    | none =>
      let nw := c.waitingIn s (fun r => r.write)
      let nr := c.waitingIn s (fun r => !r.write)
      let draining := decide (48 ≤ nw) || ((c.sub s).draining && decide (16 < nw))
      let c := c.modSub s (fun x => { x with draining := draining })
      let wr := draining || nr == 0
      let dev := decide (0 < c.waitingIn s (fun r => !r.host))
      let ok (slot : Bool) (k : Nat) (r : DramReq) : Bool :=
        r.write == wr && (!r.host || (!(c.bankSt k).throttled && (!slot || !dev || decide (3 ≤ (c.sub s).devRun))))
      let picks (slot : Bool) := (c.banksOf s).filterMap (fun k => (c.bankPick k (ok slot k)).map (fun r => (k, r)))
      let hits := (picks true).filter (fun p => decide (some (c.place p.2.burst).row = (c.bankSt p.1).row))
      let acts := (picks false).filter (fun p => decide (some (c.place p.2.burst).row ≠ (c.bankSt p.1).row))
      let (n, c) := c.drawNat
      match hits, acts with
      | [], [] => c
      | h :: t, [] => let p := (h :: t).getD (n % (t.length + 1)) h; c.issueData s p.1 p.2
      | [], a :: _ => c.issueAct s a.1 a.2
      | h :: t, a :: _ =>
        if n % 2 = 0 then let p := (h :: t).getD (n / 2 % (t.length + 1)) h; c.issueData s p.1 p.2
        else c.issueAct s a.1 a.2

/-- DRAM_READ_COMPLETE: the oldest read in flight on a subchannel returns, with an error pattern in its 640 bits
(R409, R420). The words are those at its acceptance (R413). -/
def Chip.dramReadComplete (s e : Nat) (c : Chip) : Chip :=
  match (c.sub s).flight with
  | [] => c
  | r :: rest =>
    let c := c.modSub s (fun x => { x with flight := rest })
    let (ws, c) := c.serveRead r.src r.burst e { ws := r.ws, bad := r.bad }
    c.readDone r.id ws

/-! ## Refresh (R416, R417, R419) -/

/-- Same-bank refreshes of banks 0 to 3 of every bank group of a rank; their banks close. -/
def Chip.refreshRank (s rank : Nat) (c : Chip) : Chip :=
  forRange 4 (fun b c => (forRange 8 (fun g c => c.modBank (s * 128 + rank * 32 + b * 8 + g)
    (fun x => { x with row := none, streak := 0 })) c).emit (.dramCommand s "REFsb" b rank)) c

/-- REFRESH_DUE: at a tREFI a rank of a subchannel is refreshed, after the pause where one is in progress (R416). In
self-refresh the rank refreshes itself (R428). -/
def Chip.refreshDue (s rank : Nat) (c : Chip) : Chip :=
  if c.mc.changing then c
  else if c.mc.pause = some s then c.modSub s (fun x => { x with refresh := x.refresh ++ [rank] })
  else c.refreshRank s rank

/-- tREFW in counts (R416). -/
def McSt.window (m : McSt) : Nat := if m.winFast then 20000000 else 40000000

/-- REFRESH_WINDOW_END: once the window has run, tables and host counts are emptied and the next one takes FAST and
BANKMAX (R417 to R419). -/
def Chip.windowDone (c : Chip) : Chip :=
  if c.count < c.mc.winStart + c.mc.window then c
  else
    c.modMc (fun m => { m with
      winStart := m.winStart + m.window
      winFast := c.flag F.mc_REFCFG_FAST
      winMax := c.fld F.mc_HOSTCFG_BANKMAX
      hostNext := []
      banks := m.banks.foldl (fun l p => Cells.set {} p.1 { p.2 with table := [], hostActs := 0, throttled := false } l) [] })

/-! ## Errors (R421 to R424) -/

/-- A full write of the burst waits in a queue. -/
def Chip.writeQueued (c : Chip) (b : Nat) : Bool :=
  (c.bankSt (c.place b).key).queue.any (fun r => r.write && r.burst == b && r.mask == 0xFFFF)

/-- A write whose command may have been lost: its burst holds the poison pattern, unless a later whole write waits.
[DEDUCED, log entry 99: safe] -/
def Chip.poisonWrite (r : DramReq) (c : Chip) : Chip := if c.writeQueued r.burst then c else c.poison r.burst

/-- CA_PARITY_ALERT: the last `n` requests sent on a subchannel are failed or poisoned, and one entry is logged
(R421). Reads already answered stay so.
[DEDUCED, log entry 99: safe] -/
def Chip.parityAlert (s n : Nat) (c : Chip) : Chip :=
  let l := (c.sub s).sent.take n
  let c := c.modSub s (fun x => { x with sent := [], flight := x.flight.filter (fun r => !l.any (fun y => y.id == r.id)) })
  let c := l.foldl (fun c r =>
    if r.write then c.poisonWrite r
    else if c.mc.reads.any (fun x => x.id == r.id && x.done.isNone) then c.readDone r.id none
    else c) c
  let b := match l.getLast? with | some r => r.burst | none => 0
  let c := c.bump F.mc_CNT_COUNT 1 2
  c.pushElog Mt.CAPAR (c.elogEntry Mt.CAPAR Src.CTL b 15 15 { c.place b with sub := s })

/-- SCRUB_READ: the next burst of the pass is read with an error pattern met on it (R422). -/
def Chip.scrubRead (e : Nat) (c : Chip) : Chip :=
  if !c.flag F.mc_SCRUB_EN || c.dramBursts == 0 then c
  else
    let b := c.mc.scrub % c.dramBursts
    let c := (c.serveRead Src.SCRUB b e (c.burst b)).2
    c.modMc (fun m => { m with scrub := (b + 1) % c.dramBursts })

/-- The controller's queue memory has failed (R423): reads held are answered with an error response, no write held
is written, and each burst whose address the controller still has is poisoned. Which it still has is open.
[DESIGN CHOICE, log entry 101: safe] -/
def Chip.failMemory (c : Chip) : Chip :=
  let queued := c.mc.banks.flatMap (fun p => p.2.queue) ++ c.mc.held
  let c := c.modMc (fun m => { m with
    held := []
    banks := m.banks.foldl (fun l p => Cells.set {} p.1 { p.2 with queue := [] } l) []
    subs := m.subs.foldl (fun l p => Cells.set {} p.1 { p.2 with flight := [], sent := [] } l) []
    reads := m.reads.map (fun x => if x.done.isNone then { x with done := some none } else x) })
  let c := queued.foldl (fun c r =>
    if r.write then
      let (f, c) := c.drawBit
      c.iff f (Chip.poison r.burst)
    else c) c
  c.answerAll

/-- A read of MC.ELOG[0]: the oldest entry leaves the log, its word 0 is returned and words 1 to 3 are latched. With the
log empty it returns 0 and latches nothing.
[DEDUCED, log entry 134: unsafe] -/
def Chip.readElog (q : Requester) (c : Chip) : Word × Chip :=
  match c.mc.elog with
  | [] => (0, c)
  | e :: rest => (e.getD 0 0, forRange 3 (fun i d => d.wrq q .mc_ELOG (e.getD (i + 1) 0) (i + 1)) (c.setElog rest))

/-! ## Drift pauses and frequency points (R425 to R428) -/

/-- The fitted ranks of a subchannel. -/
def Chip.ranksFitted (c : Chip) : Nat := 2 ^ (c.fld F.mc_CFG_RANKS + c.fld F.mc_CFG_DIMMS)

/-- The Ranger's reading of MR4 of the ranks of a subchannel: FAST is set while any rank reports above nominal, and
cleared when all have reported nominal for 1 s (R496). -/
def Chip.readMr4 (s hot : Nat) (c : Chip) : Chip :=
  let all := nput c.ranger.hotRanks (s * 4 + 3) (s * 4) hot
  let c := c.modRanger (fun r => { r with
    hotRanks := all
    nominalSince := if all = 0 then some (r.nominalSince.getD c.count) else none })
  let fast (b : Nat) (c : Chip) : Chip := (c.put F.mc_REFCFG_FAST b).put F.ranger_STATUS_FAST b
  if all ≠ 0 then fast 1 c
  else match c.ranger.nominalSince with
    | some n => if n + 1250000000 ≤ c.count then fast 0 c else c
    | none => c

/-- DRIFT_PAUSE_START: a pause that is due begins; one due during a change is skipped (R426, R428). The ranks'
refresh-rate indications are read in it (R496).
[DEDUCED, log entry 100: safe] -/
def Chip.pauseStart (s hot : Nat) (c : Chip) : Chip :=
  match (c.sub s).nextPause with
  | none => c
  | some n =>
    if c.count < n ∨ c.mc.pause.isSome then c
    else
      let later := n + 12500000 * ((c.count - n) / 12500000 + 1)
      let c := c.modSub s (fun x => { x with nextPause := some later })
      if c.mc.changing then c
      else ((c.modMc (fun m => { m with pause := some s })).addTo F.mc_DRIFT_PAUSES 1 s).readMr4 s hot

/-- One sample of a lane: four in a row that agree move it a step, and it is held at 32 (R426). -/
def LaneDrift.sample (d : Int) (l : LaneDrift) : LaneDrift :=
  if l.steps = 32 ∨ l.steps = -32 then { l with dir := 0, run := 0 }
  else if d = 0 then { l with dir := 0, run := 0 }
  else
    let run := if l.dir = d then l.run + 1 else 1
    if run = 4 then { steps := l.steps + d, dir := 0, run := 0 } else { l with dir := d, run := run }

/-- A lane is held at its limit. -/
def LaneDrift.held (l : LaneDrift) : Bool := l.steps == 32 || l.steps == -32

/-- The lanes of a subchannel at the point in force. -/
def Chip.driftKey (c : Chip) (s l : Nat) : Nat := c.fld F.mc_STATUS_POINT * 640 + s * 40 + l

/-- MC.DRIFT of a subchannel follows its lanes' delays.
[DEDUCED, log entry 100: safe] -/
def Chip.showDrift (s : Nat) (c : Chip) : Chip :=
  let ls := (List.range 40).map (fun l => Cells.get {} (c.driftKey s l) c.mc.drift)
  (c.put F.mc_DRIFT_NET (unsignedOf 12 ((ls.map (·.steps)).sum)) s).put F.mc_DRIFT_LIMIT (b2n (ls.any (·.held))) s

/-- DRIFT_PAUSE_END: the lanes of `up` sampled late and of `down` early are stepped, refreshes held by the pause are
issued and service resumes (R416, R426).
[DEDUCED, log entry 100: safe] -/
def Chip.pauseEnd (s up down : Nat) (c : Chip) : Chip :=
  if c.mc.pause ≠ some s then c
  else
    let c := forRange 40 (fun l c =>
      let k := c.driftKey s l
      let was : LaneDrift := Cells.get {} k c.mc.drift
      let d : Int := if up.testBit l = down.testBit l then 0 else if up.testBit l then 1 else -1
      let now := was.sample d
      let c := c.modMc (fun m => { m with drift := Cells.set {} k now m.drift })
      if now.held && !was.held then
        (c.bump F.mc_CNT_COUNT 1 7).pushElog Mt.DRIFT (c.elogEntry Mt.DRIFT Src.CTL 0 (l / 4) 15
          { sub := s, col := 0, bg := 0, bank := 0, rank := 0, dimm := 0, row := 0 })
      else c) c
    let c := (c.showDrift s).modMc (fun m => { m with pause := none })
    let due := (c.sub s).refresh
    due.foldl (fun c r => c.refreshRank s r) (c.modSub s (fun x => { x with refresh := [] }))

/-- A request for a frequency point is decided (R427): its status and the device after. -/
def Chip.requestPoint (p : Nat) (c : Chip) : Nat × Chip :=
  if !c.flag F.mc_FP_CFG_EN p then (St.RANGE, c)
  else if c.flag F.mc_STATUS_CHANGING then (St.BUSY, c)
  else
    let c := c.put F.mc_FPREQ_POINT p
    if p = c.fld F.mc_STATUS_POINT then (St.OK, c) else (St.OK, c.put F.mc_STATUS_CHANGING 1)

/-- A write of MC.FPREQ by a requester (R427). -/
def Chip.writeFpreq (q : Requester) (w : Word) (c : Chip) : Chip :=
  let r := c.requestPoint (wbits w 1 0)
  r.2.errq q F.mc_REQSTAT_LASTERR r.1

/-- The Ranger's request for a frequency point: one that meets BUSY is made again once the change has ended (R480). -/
def Chip.rangerPoint (p : Nat) (c : Chip) : Chip :=
  let r := c.requestPoint p
  r.2.modRanger (fun x => { x with fpWanted := if r.1 = St.BUSY then some p else none })

/-- FREQ_CHANGE_START: an accepted change starts, once no drift pause is in progress: every bank is precharged and
every rank is in self-refresh (R427, R428). -/
def Chip.changeStart (c : Chip) : Chip :=
  if !c.flag F.mc_STATUS_CHANGING || c.mc.changing || c.mc.pause.isSome then c
  else c.modMc (fun m => { m with
    changing := true
    banks := m.banks.foldl (fun l p => Cells.set {} p.1 { p.2 with row := none, streak := 0 } l) [] })

/-- FREQ_CHANGE_COMPLETE: with every read in flight returned, the new point is in force with its own delays, and
agreeing samples gathered before are discarded (R428). -/
def Chip.changeComplete (c : Chip) : Chip :=
  if !c.mc.changing || c.mc.subs.any (fun p => !p.2.flight.isEmpty) then c
  else
    let c := c.modMc (fun m => { m with
      changing := false
      drift := m.drift.foldl (fun l p => Cells.set {} p.1 { p.2 with dir := 0, run := 0 } l) [] })
    let c := (c.put F.mc_STATUS_POINT (c.fld F.mc_FPREQ_POINT)).put F.mc_STATUS_CHANGING 0
    let c := forRange 16 Chip.showDrift c
    match c.ranger.fpWanted with
    | none => c
    | some p => c.rangerPoint p

/-! ## Registers -/

/-- MC.STATUS.GIB follows MC.CFG: channels, DIMMs, ranks and rank size (Table 16.1).
[DEDUCED, log entry 67: unsafe] -/
def Chip.fitDram (c : Chip) : Chip :=
  c.put F.mc_STATUS_GIB (2 ^ (c.fld F.mc_CFG_CHANNELS + 1 + c.fld F.mc_CFG_DIMMS + c.fld F.mc_CFG_RANKS)
    * (if c.flag F.mc_CFG_DENSITY then 64 else 32))

/-- A write of MC.HOSTCFG: 0 to 15 is ignored with RANGE. -/
def Chip.writeHostcfg (q : Requester) (w : Word) (c : Chip) : Chip :=
  if wbits w 11 0 < 16 then c.errq q F.mc_REQSTAT_LASTERR St.RANGE else c.put F.mc_HOSTCFG_BANKMAX (wbits w 11 0)

/-- A write of MC.SCRUB: HOURS 0 is ignored with RANGE; a change of HOURS restarts the pass at burst 0. -/
def Chip.writeScrub (q : Requester) (w : Word) (c : Chip) : Chip :=
  if wbits w 7 0 = 0 then c.errq q F.mc_REQSTAT_LASTERR St.RANGE
  else
    let c := c.iff (wbits w 7 0 ≠ c.fld F.mc_SCRUB_HOURS) (Chip.modMc (fun m => { m with scrub := 0 }))
    (c.put F.mc_SCRUB_EN (wbits w 8 8)).put F.mc_SCRUB_HOURS (wbits w 7 0)

/-- At release the refresh windows and the schedule of drift pauses begin (R417, R426). -/
def Chip.releaseMem (c : Chip) : Chip :=
  let c := c.modMc (fun m => { m with winStart := c.count, winFast := c.flag F.mc_REFCFG_FAST, winMax := c.fld F.mc_HOSTCFG_BANKMAX })
  forRange (2 * 2 ^ (c.fld F.mc_CFG_CHANNELS + 1)) (fun s c => c.modSub s (fun x => { x with nextPause := some (c.count + s * 781250) })) c

end Sys2Proof.Machine
end

