-- ==== Sys2Proof/Machine/Fault.lean ====
section
/-! DEFINITION. Base mode and reported mode, mode requests, fatal faults, RECOVERY and the fault-record area (R476 to
R490). -/
namespace Sys2Proof.Machine

open Sys2Proof

/-! ## Modes (R476 to R480) -/

/-- The mode that GLOBAL.MODE reports after release (R476). -/
def Chip.reportedMode (c : Chip) : Nat :=
  if c.chanRec || c.fwdRec then Md.RECOVERY
  else if (c.base = Md.RUN ∨ c.base = Md.ECO) ∧ c.fld F.time_STATUS_STATE = 3 then Md.HOLDOVER
  else c.base

/-- GLOBAL.MODE and PREV take a new mode; each change raises source 5 (R476). -/
def Chip.enterMode (m : Nat) (c : Chip) : Chip :=
  if m = c.mode then c
  else ((c.put F.global_MODE_PREV c.mode).put F.global_MODE_MODE m).irq 5

/-- The ECO settings applied (R480). -/
def Chip.enterEco (c : Chip) : Chip :=
  ((c.put F.chan_LUEFF_CEIL (c.fld F.ranger_POL1_ECOLU)).rangerPoint (c.fld F.ranger_POL2_ECOFP)).powerLanes true

/-- The ECO settings withdrawn (R480). -/
def Chip.leaveEco (c : Chip) : Chip :=
  ((c.put F.chan_LUEFF_CEIL (c.fld F.chan_LUCEIL_CEIL)).rangerPoint 0).powerLanes false

/-- GLOBAL.MODE follows the base mode, the lock state and RECOVERY (R476), and the ECO settings follow it (R480). -/
def Chip.settleMode (c : Chip) : Chip :=
  let old := c.mode
  let m := c.reportedMode
  if !c.live || m = old then c
  else
    let c := c.enterMode m
    if m = Md.ECO then c.enterEco else if old = Md.ECO then c.leaveEco else c

/-- The base mode changes (R477): ARMED is cleared on leaving ACQUIRE (R49), Hedgerow leaves SERVICE in ACQUIRE and
TEST (R388), and DRAINED sets at an entry into DRAIN with no active channel (R479). -/
def Chip.setBase (b : Nat) (c : Chip) : Chip :=
  let old := c.base
  let c := c.put F.fault_BASE_BASE b
  let c := c.iff (old == Md.ACQUIRE && b != Md.ACQUIRE) (Chip.put F.time_STATUS_ARMED 0)
  let c := c.iff (b == Md.ACQUIRE || b == Md.TEST) Chip.hgLeave
  let c := c.iff (b == Md.DRAIN) Chip.checkDrained
  c.settleMode

/-- The lock state changes (Table 2.1): source 4, ONLYLOCKED outputs, and the base mode from ACQUIRE (R76, R477). -/
def Chip.setLock (s : Nat) (c : Chip) : Chip :=
  if s = c.fld F.time_STATUS_STATE then c
  else
    let c := (c.put F.time_STATUS_STATE s).irq 4
    let c := c.modTime (fun t => { t with seenLocked := t.seenLocked || s == 2 })
    if s = 2 ∧ c.base = Md.ACQUIRE ∧ c.live then c.setBase Md.RUN else c.settleMode

/-! ## Entries of the fault-record area (R487 to R489) -/

/-- One bit of the CRC-32C register, reflected. -/
def crc32cBit (r : Nat) : Nat := if r % 2 = 1 then (r / 2) ^^^ 0x82F63B78 else r / 2

/-- CRC-32C of octets. -/
def crc32c (l : List Octet) : Nat :=
  (l.foldl (fun r o => (List.range 8).foldl (fun r _ => crc32cBit r) (r ^^^ o.toNat)) (2 ^ 32 - 1)) ^^^ (2 ^ 32 - 1)

/-- The 256 octets of an entry (Table 19.8). -/
def FaultEntry.octets (e : FaultEntry) : List Octet :=
  let head := [0x5A, 0x44, 0x46, 0x52] ++ leOctets 2 e.ty ++ leOctets 2 e.payload.length ++ leOctets 4 e.seq
    ++ leOctets 4 e.epoch ++ leOctets 6 e.sec ++ leOctets 2 (e.mode + e.recovering * 16) ++ leOctets 4 e.ns
  let body := head ++ (e.payload ++ List.replicate 224 0).take 224
  body ++ leOctets 4 (crc32c body)

/-- An entry raised now, with its payload (Table 19.8); SEQ is given when it is written.
[DEDUCED, log entry 80: unsafe] -/
def Chip.makeEntry (c : Chip) (ty : Nat) (payload : List Octet) : FaultEntry :=
  { ty := ty, payload := payload, seq := 0, epoch := c.fault.epoch, sec := secOf c.now, ns := nsOf c.now, mode := c.mode
    recovering := (c.rd .global_RECOVERING).toNat % 4 }

/-- A half of the area. -/
def FaultSt.half (f : FaultSt) (h : Nat) : List FaultEntry := if h = 0 then f.half0 else f.half1

/-- A half of the area set. -/
def FaultSt.setHalf (h : Nat) (l : List FaultEntry) (f : FaultSt) : FaultSt :=
  if h = 0 then { f with half0 := l } else { f with half1 := l }

/-- The active half. -/
def Chip.activeHalf (c : Chip) : Nat := c.fld F.fault_FLASH_HALF

/-- Erased entries left in the active half. -/
def Chip.freeEntries (c : Chip) : Nat := 2048 - (c.fault.half c.activeHalf).length

/-- FAULT.FLASH follows the area: fewer than 64 erased entries start the erase of the other half, and a full half
gives way to the other one once that is erased (R488).
[DEDUCED, log entry 71: unsafe] -/
def Chip.settleArea (c : Chip) : Chip :=
  let erased := (c.fault.half (1 - c.activeHalf)).isEmpty
  let c := c.iff (c.freeEntries == 0 && erased) (Chip.put F.fault_FLASH_HALF (1 - c.activeHalf))
  let c := c.put F.fault_FLASH_FREE c.freeEntries
  let other := (c.fault.half (1 - c.activeHalf)).isEmpty
  (c.put F.fault_FLASH_ERASING (b2n (decide (c.freeEntries < 64) && !other))).put F.fault_FLASH_QUEUED c.fault.queue.length

/-- An entry written to the active half, with the next SEQ (R487, R488); the caller has seen that one is erased.
[DEDUCED, log entry 71: unsafe] -/
def Chip.writeEntry (e : FaultEntry) (c : Chip) : Chip :=
  let h := c.activeHalf
  let e := { e with seq := (c.fault.seq + 1) % 2 ^ 32 }
  let l := c.fault.half h
  let c := c.emit (.flashEntry h l.length e.octets)
  (c.modFault (fun f => { f.setHalf h (l ++ [e]) with seq := e.seq })).settleArea

/-- An entry raised: it enters the queue of eight, or is dropped (R489).
[DEDUCED, log entry 71: unsafe] -/
def Chip.raiseEntry (ty : Nat) (payload : List Octet) (c : Chip) : Chip :=
  if 8 ≤ c.fault.queue.length then c.bump F.fault_CNT_COUNT 1 6
  else (c.modFault (fun f => { f with queue := f.queue ++ [c.makeEntry ty payload] })).settleArea

/-- Words of FAULT.LAST in W64.
[DEDUCED, log entry 81: unsafe] -/
def Chip.lastWords (c : Chip) : List Octet := w64Out [c.rd .fault_LAST0, c.rd .fault_LAST1]

/-- FLASH_HALF_ERASED: the background erase of the inactive half ends (R488). -/
def Chip.halfErased (c : Chip) : Chip :=
  if !c.flag F.fault_FLASH_ERASING then c
  else
    let h := 1 - c.activeHalf
    ((c.emit (.flashErase h)).modFault (FaultSt.setHalf h [])).settleArea

/-- The fault-record area read: the newest entry fixes the active half, SEQ and the boot epoch (R488). -/
def Chip.scanArea (c : Chip) : Chip :=
    let newest (l : List FaultEntry) : Option FaultEntry :=
      l.foldl (fun a e => match a with | some x => if x.seq < e.seq then some e else a | none => some e) none
    let h := match newest c.fault.half0, newest c.fault.half1 with
      | some a, some b => if a.seq < b.seq then 1 else 0
      | none, some _ => 1
      | _, none => 0
    let c := c.put F.fault_FLASH_HALF h
    let e := newest (c.fault.half h)
    let c := c.modFault (fun f => { f with
      seq := match e with | some x => x.seq | none => 0
      epoch := match e with | some x => x.epoch | none => 0 })
    c.settleArea

/-- FAULT_AREA_SCAN_END: the scan of TRAIN ends, and PFAIL_N is handled from here on (R488, R490). -/
def Chip.scanEnd (c : Chip) : Chip :=
  if c.mode ≠ Md.TRAIN ∨ c.fault.scanned then c
  else c.scanArea.modFault (fun f => { f with scanned := true })

/-- PFAIL_N has been low for 1 µs: its event, its counter and line 6, and its entry ahead of the queue, but for a fall
within 1 ms of the last entry (R489, R490).
[DEDUCED, log entry 81: unsafe] [DEDUCED, log entry 128: unsafe] -/
def Chip.pfail (c : Chip) : Chip :=
  let c := c.modDev (fun d => { d with pfailN := false })
  if !c.fault.scanned then c
  else
    let c := ((c.bump F.fault_CNT_COUNT 1 5).faultEvent F.fault_EVENT_PFAIL).line 6
    let falls := c.fault.pfails + 1
    let soon := match c.fault.lastPfail with | some n => decide (c.count < n + 1250000) | none => false
    if soon then c.modFault (fun f => { f with pfails := falls })
    else if c.freeEntries = 0 then (c.bump F.fault_CNT_COUNT 1 6).modFault (fun f => { f with pfails := falls })
    else
      let payload := w64Out (c.rd .ranger_TMAX :: (List.range 5).map (fun i => c.rd .fault_CNT i)) ++ leOctets 4 falls
      (c.writeEntry (c.makeEntry 4 payload)).modFault (fun f => { f with pfails := 0, lastPfail := some c.count })

/-! ## Fatal faults and RECOVERY (R481 to R486) -/

/-- A channel core abandons its item and its transfers and executes TAKE at the dispatch entry (R261, R262).
[DEDUCED, log entry 61: safe] [DEDUCED, log entry 62: safe] -/
def CoreSt.retake (s : CoreSt) : CoreSt :=
  { s with wait := .take, item := none, call := none, spawning := [], xfers := [], loop0 := none, loop1 := none
           pc := Config.dispatchEntry % 2 ^ 19 }

/-- What the channel domain discards as it enters RECOVERY (Table 19.6).
[DEDUCED, log entry 83: unsafe] -/
def Chip.discardChannel (c : Chip) : Chip :=
  let c := forRange 96 (fun k c => c.modCore k CoreSt.retake) c
  (((((((c.recoverLanding.recoverBaler).recoverKerf).recoverMix).recoverChutes true).recoverHedge).recoverRings true).modFlume
    (fun x => { x with toChan := [] })).recoverChan

/-- What the forwarding domain discards as it enters RECOVERY (Table 19.6).
[DEDUCED, log entry 83: unsafe] -/
def Chip.discardForward (c : Chip) : Chip := ((c.flushForward).recoverChutes false).recoverRings false

/-- RECOVERY of a domain as stored. -/
def Chip.recSt (c : Chip) (chan : Bool) : RecSt := if chan then c.fault.chan else c.fault.fwd

/-- RECOVERY of a domain changed. -/
def Chip.modRec (chan : Bool) (f : RecSt → RecSt) (c : Chip) : Chip :=
  c.modFault (fun x => if chan then { x with chan := f x.chan } else { x with fwd := f x.fwd })

/-- GLOBAL.RECOVERING of a domain. -/
def recField (chan : Bool) : Fld := if chan then F.global_RECOVERING_CHANNEL else F.global_RECOVERING_FORWARDING

/-- Entries of RECOVERY within STORMWIN, the present one included; none are kept while STORMEN = 0 (R484).
[DEDUCED, log entry 81: unsafe] -/
def Chip.stormEntries (c : Chip) (chan : Bool) : List Nat :=
  if c.flag F.fault_CFG_STORMEN then
    c.count :: (c.recSt chan).entries.filter (fun n => decide (c.count < n + c.fld F.fault_CFG_STORMWIN * 1250000000))
  else []

/-- A fault storm: its entry is queued, and HELD follows (R484). -/
def Chip.stormCheck (chan : Bool) (c : Chip) : Chip :=
  if c.flag F.fault_CFG_STORMEN && decide (c.fld F.fault_CFG_STORMMAX < (c.recSt chan).entries.length)
      && c.fault.storm.isNone then
    let words := c.lastWords ++ w64Out [c.rd .fault_CFG]
    (c.raiseEntry 6 words).modFault (fun f => { f with storm := some c.count })
  else c

/-- A domain enters RECOVERY, or its RECOVERY restarts from the Stop phase (R483, R485).
[DEDUCED, log entry 80: unsafe] [DEDUCED, log entry 83: unsafe] -/
def Chip.startRecovery (chan shared timeStep : Bool) (c : Chip) : Chip :=
  let entries := c.stormEntries chan
  let was := c.flag (recField chan)
  let c := c.modRec chan (fun r => { phase := .flush, shared := shared || (was && r.shared)
                                     timeStep := timeStep || (was && r.timeStep), entries := entries })
  let c := (c.put (recField chan) 1).settleMode
  if chan then c.discardChannel else c.discardForward

/-- The class of a source of Table 19.4, as FAULT.LAST encodes it; `chan` decides for a source that is fatal to the
domain it names. -/
def faultClass (source : Nat) (chan : Bool) : Nat :=
  if source ≤ 5 then 4 else if source ≤ 8 then 2 else if source ≤ 0xB then 3 else if chan then 3 else 2

/-- A fatal fault of a class: counted, recorded and followed by RECOVERY of its domain or of both (R481 to R484). A
time-step fault sets ARMED (R49).
[DEDUCED, log entry 80: unsafe] [DEDUCED, log entry 82: unsafe] -/
def Chip.fatalOf (source cls : Nat) (c : Chip) : Chip :=
  if !c.live then c
  else
    let c := if cls = 4 then (c.bump F.fault_CNT_COUNT 1 4).faultEvent F.fault_EVENT_SHARED
      else if cls = 3 then (c.bump F.fault_CNT_COUNT 1 2).faultEvent F.fault_EVENT_CHFATAL
      else (c.bump F.fault_CNT_COUNT 1 3).faultEvent F.fault_EVENT_FWFATAL
    let c := ((c.put F.fault_LAST0_SOURCE source).put F.fault_LAST0_CLASS cls).put F.fault_LAST1_TIME (launchForm c.now)
    let c := c.iff (source == 1) Chip.failMemory
    let step := source == 3
    let c := c.iff step (fun c => (c.put F.time_STATUS_ARMED 1).modTime (fun t => { t with stepInRec := false }))
    let c := c.iff (cls == 3 || cls == 4) (Chip.startRecovery true (cls == 4) step)
    let c := c.iff (cls == 2 || cls == 4) (Chip.startRecovery false (cls == 4) step)
    let c := c.raiseEntry 3 c.lastWords
    let c := c.iff (cls == 3 || cls == 4) (Chip.stormCheck true)
    c.iff (cls == 2 || cls == 4) (Chip.stormCheck false)

/-- FATAL_FAULT: a source of Table 19.4 is detected; the requests and the Check phase have commands of their own. -/
def Chip.fatalFault (source : Nat) (chan : Bool) (c : Chip) : Chip :=
  if source = 0 ∨ 0xC < source then c else c.fatalOf source (faultClass source chan)

/-- RECOVERY_FLUSH_END: the domain's lists and buffers are empty, and the Check phase begins (Table 19.5). -/
def Chip.flushEnd (chan : Bool) (c : Chip) : Chip :=
  c.iff (decide ((c.recSt chan).phase = .flush)) (Chip.modRec chan (fun r => { r with phase := .check }))

/-- A word of an on-chip memory with an uncorrectable error as the Check phase of a RECOVERY rewrites it, where the phase covers
it (R485): cells of the mix store and lanes hold zeros, any other word a free value.
[DESIGN CHOICE, log entry 141: safe] -/
def Chip.rewriteWord (chan shared : Bool) (u : Upset) (c : Chip) : Chip :=
  match u with
  | .mixCell a => c.iff chan (Chip.setCell a 0)
  | .lane _ => c.iff chan (Chip.heal u)
  | .coef a => if chan then let x := c.drawNat; x.2.putCoef a (wofNat x.1) else c
  | .localWord k a =>
    if (if k < 96 then chan else shared) then let x := c.drawNat; x.2.putLocal k a [wofNat x.1] else c
  | .progWord _ _ => c

/-- RECOVERY_CHECK_END: every covered word has been rewritten, or one is still uncorrectable, which is a fault
(Table 19.5). -/
def Chip.checkEnd (chan bad : Bool) (c : Chip) : Chip :=
  if (c.recSt chan).phase ≠ .check then c
  else if bad then c.fatalOf 0x0E (if chan then 3 else 2)
  else
    let shared := (c.recSt chan).shared
    (c.upsets.foldl (fun c u => c.rewriteWord chan shared u) c).modRec chan (fun r => { r with phase := .complete })

/-- The end of RECOVERY by a time-step fault: ARMED is cleared, unless the base mode is ACQUIRE and no step was
taken during it (R49).
[DEDUCED, log entry 83: unsafe] -/
def Chip.endStepRecovery (c : Chip) : Chip :=
  let keep := c.base == Md.ACQUIRE && !c.time.stepInRec
  let c := c.iff (!keep) (Chip.put F.time_STATUS_ARMED 0)
  (c.modRec true (fun r => { r with timeStep := false })).modRec false (fun r => { r with timeStep := false })

/-- RECOVERY_COMPLETE: RECOVERING is cleared, RECDONE sets, DISCARDED completions are written and the domain's work
goes on (Table 19.5). -/
def Chip.recoveryComplete (chan : Bool) (c : Chip) : Chip :=
  if (c.recSt chan).phase ≠ .complete then c
  else
    let c := (c.modRec chan (fun r => { r with phase := .none })).put (recField chan) 0
    let c := c.faultEvent F.fault_EVENT_RECDONE
    let c := c.iff (!c.chanRec && !c.fwdRec && (c.fault.chan.timeStep || c.fault.fwd.timeStep)) Chip.endStepRecovery
    let c := c.resumeRings chan
    let c := if chan then c.resumeBaler.resumeLanding.resumeKerf.resumeChan else c
    c.settleMode

/-! ## Mode requests (R478) -/

/-- The status of a mode request (Tables 19.1 and 19.2). -/
def Chip.modeStatus (c : Chip) (r : Nat) : Nat :=
  let b := c.base
  let both := c.chanRec || c.fwdRec
  let allowed : Bool :=
    if r = 1 then b == Md.ECO || b == Md.DRAIN || (b == Md.TEST && c.flag F.time_STATUS_STEPPED)
    else if r = 2 then b == Md.RUN
    else if r = 3 then b == Md.RUN || b == Md.ECO
    else if r = 4 then b == Md.DRAIN && c.fld F.chan_ACTIVE_COUNT == 0
    else true
  let busy := if r = 5 then c.chanRec else if r = 6 then c.fwdRec else both
  St.pick [St.when (r = 0 ∨ 8 < r) St.RANGE, St.when (!allowed || !c.live) St.NOTREADY, St.when busy St.BUSY]

/-- A mode request by a requester: ignored with its status in REQSTAT, or carried out. -/
def Chip.modeRequest (q : Requester) (r : Nat) (go : Chip → Chip) (c : Chip) : Chip :=
  let st := c.modeStatus r
  if st ≠ St.OK then c.errq q F.fault_REQSTAT_LASTERR st else go c

/-- What each request of Table 19.2 does.
[DEDUCED, log entry 82: unsafe] -/
def Chip.modeGo (r : Nat) (c : Chip) : Chip :=
  if r = 1 then c.setBase Md.RUN else if r = 2 then c.setBase Md.ECO else if r = 3 then c.setBase Md.DRAIN
  else if r = 4 then c.setBase Md.TEST else if r = 5 then c.fatalOf 0x0D 3 else if r = 6 then c.fatalOf 0x0D 2
  else if r = 7 then c.fatalOf 0x0D 4 else c.fatalOf 3 4

/-- A write of FAULT.MODEREQ (R478). -/
def Chip.writeModereq (q : Requester) (r : Nat) (c : Chip) : Chip := c.modeRequest q r (Chip.modeGo r)

end Sys2Proof.Machine
end

