-- ==== Sys2Proof/Machine/Servo.lean ====
section
/-! DEFINITION. The lock state machine, the step, the servo's exchanges, PPS_IN and the time outputs (R46 to R53, R67
to R69, R76, R77). Offsets are those of the master against device time: what a step adds to correct it. -/
namespace Sys2Proof.Machine

open Sys2Proof

/-- The status of an ignored TIME write. -/
def Chip.timeErr (st : Nat) (c : Chip) : Chip := c.err F.time_STATUS_LASTERR st

/-- The reset value of RATE (R43). -/
def rate0 : Nat := 0xCCCCCCCD

/-- The largest step of RATE from its reset value (R46). -/
def rateSpan : Nat := 3435974

/-- A write of TIME.RATE (R45, R46). -/
def Chip.writeRate (v : Nat) (c : Chip) : Chip :=
  let st := St.pick [St.when (v + rateSpan < rate0 ∨ rate0 + rateSpan < v) St.RANGE,
    St.when (c.fld F.time_STATUS_STATE = 3) St.NOTREADY]
  if st ≠ St.OK then c.timeErr st else c.setRate v

/-- Runs of consecutive exchanges start anew.
[DEDUCED, log entry 37: unsafe] -/
def TimeSt.restartRuns (t : TimeSt) : TimeSt := { t with runLock := 0, runLoose := 0, runHold := 0 }

/-- The lock state changes, and its runs start anew.
[DEDUCED, log entry 38: unsafe] -/
def Chip.lockTo (s : Nat) (c : Chip) : Chip := (c.modTime TimeSt.restartRuns).setLock s

/-- The offset added to ANCHOR_T at the next count (R48).
[DEDUCED, log entry 40: unsafe] -/
def Chip.shiftTime (off : Int) (c : Chip) : Chip := c.relineNext (fun _ a => { a with t := a.t + off })

/-- A step is taken (R48 to R50, Table 2.1): ARMED is cleared, STEPPED set, a STEP record pushed, the gate lists
and the blocks of the buses restart, and FREE is left. Offsets measured before it are dropped.
[DEDUCED, log entry 33: unsafe] [DEDUCED, log entry 37: unsafe] -/
def Chip.takeStep (off : Int) (c : Chip) : Chip :=
  let c := c.shiftTime off
  let t := c.timeAt (c.count + 1)
  let c := (c.put F.time_STATUS_ARMED 0).put F.time_STATUS_STEPPED 1
  let c := c.modTime (fun x => { x with stepInRec := true, offsets := [], runBeyond := 0, runWithin := 0
                                        lastValid := some (x.lastValid.getD c.count) })
  let c := ((c.stampEvt 5 0 false 0 0 0 t).restartGates t).restartBuses t
  if c.fld F.time_STATUS_STATE ≠ 0 then c
  else c.lockTo (if c.fld F.time_CTRL_SOURCE = 2 then 2 else 1)

/-- A step would leave device time outside 0 s to 2^48 - 1 s (R48). -/
def Chip.stepBad (c : Chip) (off : Int) : Bool :=
  let t := (c.timeAt (c.count + 1) : Int) + off
  decide (t < 0 ∨ ((2 ^ 48 * tSec : Nat) : Int) ≤ t)

/-- A step requested (R48). -/
def Chip.stepRequest (off : Int) (c : Chip) : Chip :=
  let st := St.pick [St.when (c.stepBad off) St.RANGE, St.when (!c.flag F.time_STATUS_ARMED) St.NOTREADY]
  if st ≠ St.OK then c.timeErr st else c.takeStep off

/-- The servo requests a step: it writes STEP_SEC and STEP_NS with GO = 1, as host software would (R48). The step it
takes keeps the part of its offset below 1 ns (R53).
[DEDUCED, log entry 131: unsafe] -/
def Chip.servoStep (off : Int) (c : Chip) : Chip :=
  ((c.put F.time_STEP_SEC_SEC (unsignedOf 36 (off / (tSec : Int)))).put F.time_STEP_NS_NS
    ((off % (tSec : Int)).toNat / 65536)).stepRequest off

/-- The step that STEP_SEC and NS hold, in 2^-16 ns (Table 2.19).
[DEDUCED, log entry 34: unsafe] -/
def Chip.stepOffset (c : Chip) : Int :=
  signed 36 (c.fld F.time_STEP_SEC_SEC) * (tSec : Int) + ((c.fld F.time_STEP_NS_NS * 65536 : Nat) : Int)

/-- A write of TIME.STEP_NS (R48, Table 2.19): an NS out of range is ignored whole. -/
def Chip.writeStepNs (w : Word) (c : Chip) : Chip :=
  if 999999999 < wbits w 29 0 then c.timeErr St.RANGE
  else
    let c := c.put F.time_STEP_NS_NS (wbits w 29 0)
    c.iff (wbit w 35) (fun c => c.stepRequest c.stepOffset)

/-- A write of TIME.CTRL (Table 2.1, Table 2.21): runs and offsets of another source are dropped. -/
def Chip.writeTimeCtrl (w : Word) (c : Chip) : Chip :=
  let src := wbits w 1 0
  if src = 3 then c.timeErr St.RANGE
  else
    let old := c.fld F.time_CTRL_SOURCE
    let c := (c.put F.time_CTRL_AUTOSTEP (wbits w 2 2)).put F.time_CTRL_SOURCE src
    let c := c.iff (src ≠ old) (Chip.modTime (fun t => { t.restartRuns with offsets := [], delays := [], runBeyond := 0, runWithin := 0
                                                                            lastValid := if src = 2 then none else some c.count, logInterval := none }))
    let s := c.fld F.time_STATUS_STATE
    if s = 2 ∧ src ≠ old ∧ src ≠ 2 then c.lockTo 1
    else if (s = 1 ∨ s = 3) ∧ src = 2 then c.lockTo 2
    else c

/-- Counts of 1.5 x I after which an exchange is missed (R53). -/
def missedAfter (log : Int) : Nat :=
  if 0 ≤ log then 1875000000 * 2 ^ (min 8 log.toNat) else ceilDiv 1875000000 (2 ^ (min 16 (-log).toNat))

/-- COUNT at which the holdover timeout falls (R53); none where it does not apply.
[DEDUCED, log entry 38: unsafe] -/
def Chip.holdoverAt (c : Chip) : Option Nat :=
  let s := c.fld F.time_STATUS_STATE
  let src := c.fld F.time_CTRL_SOURCE
  let ms := c.fld F.time_SERVO_HOLDMS
  if (s = 1 ∨ s = 2) ∧ src ≠ 2 then
    if ms = 0 then c.time.lastValid.bind (fun n => c.time.logInterval.map (fun l => n + missedAfter l))
    else c.time.lastValid.map (fun n => n + ms * 125000000)
  else none

/-- HOLDOVER_TIMEOUT: HOLDOVER is entered once the timeout has passed (Table 2.1). -/
def Chip.holdoverTimeout (c : Chip) : Chip :=
  match c.holdoverAt with
  | none => c
  | some n => if n ≤ c.count then c.lockTo 3 else c

/-- The slewing limit in steps of RATE: SLEWMAX ppm (R51). -/
def Chip.slewSteps (c : Chip) : Nat := c.fld F.time_SERVO_SLEWMAX * rate0 / 1000000

/-- A value of RATE brought into the span of R46.
[DESIGN CHOICE, log entry 35: safe] -/
def clipRate (n : Int) : Nat := (max ((rate0 - rateSpan : Nat) : Int) (min ((rate0 + rateSpan : Nat) : Int) n)).toNat

/-- The correction that the loop puts on top of its frequency estimate, in steps of RATE (R51): open within the slewing
limit; at the limit, towards the master, while STEPREQ stands and no step is taken (R52).
[DESIGN CHOICE, log entry 35: safe] -/
def Chip.slewBy (off : Int) (free : Nat) (c : Chip) : Int :=
  let lim := c.slewSteps
  if c.flag F.time_STATUS_STEPREQ && !c.flag F.time_CTRL_AUTOSTEP &&
      decide (((c.fld F.time_STEPLIMIT_US * 131072000 : Nat) : Int) < (off.natAbs : Int)) then
    (if 0 ≤ off then (lim : Int) else -(lim : Int))
  else (free % (2 * lim + 1) : Nat) - (lim : Int)

/-- The RATE that the loop writes after an exchange with its offset: an open frequency estimate within the span of
R46, and the correction of R51 and R52 (R69). In HOLDOVER none is made.
[DESIGN CHOICE, log entry 35: safe] -/
def Chip.servoWrites (off : Int) (c : Chip) : Chip :=
  let r := c.draw
  let r2 := r.2.draw
  if r2.2.fld F.time_STATUS_STATE = 3 then r2.2
  else
    let est := rate0 - rateSpan + Config.servoRate r.1 % (2 * rateSpan + 1)
    (r2.2.modTime (fun t => { t with freq := est })).setRate (clipRate ((est : Int) + r2.2.slewBy off (Config.servoRate r2.1)))

/-- The offset of the first step: the mean of the fourth and fifth smallest of eight offsets in 2^-17 ns, rounded
down to 2^-16 ns (R53).
[DEDUCED, log entry 34: unsafe] -/
def firstStep (offs : List Int) : Int :=
  let l := sortInts offs
  (l.getD 3 0 + l.getD 4 0) / 4

/-- TIME.OFFSET of an offset in 2^-17 ns: whole nanoseconds, the rounding open (Table 2.24).
[DEDUCED, log entry 34: unsafe] [DESIGN CHOICE, log entry 36: safe] -/
def Chip.showOffset (off : Int) (c : Chip) : Chip :=
  let (up, c) := c.drawBit
  let ns := if up ∧ off % 131072 ≠ 0 then off / 131072 + 1 else off / 131072
  c.put F.time_OFFSET_NS (unsignedOf 36 (sat36 ns))

/-- STEPREQ after a valid exchange (R52): with AUTOSTEP = 1, setting it raises a time-step fault, and the servo takes
the step.
[DEDUCED, log entry 37: unsafe] -/
def Chip.stepReq (c : Chip) : Chip :=
  let c := c.iff (decide (8 ≤ c.time.runWithin)) (Chip.put F.time_STATUS_STEPREQ 0)
  if c.time.runBeyond < 8 ∨ c.flag F.time_STATUS_STEPREQ then c
  else
    let offs := c.time.offsets
    let c := c.put F.time_STATUS_STEPREQ 1
    if c.flag F.time_CTRL_AUTOSTEP && c.live then (c.fatalOf 3 4).servoStep (firstStep offs) else c

/-- The lock state after a valid exchange with an offset in 2^-17 ns (Table 2.1). -/
def Chip.lockAfter (off : Int) (c : Chip) : Chip :=
  let lock : Int := ((c.fld F.time_SERVO_LOCKNS * 131072 : Nat) : Int)
  let a : Int := off.natAbs
  let s := c.fld F.time_STATUS_STATE
  if s = 1 then
    let c := c.modTime (fun t => { t with runLock := if a ≤ lock then t.runLock + 1 else 0 })
    if 16 ≤ c.time.runLock then c.lockTo 2 else c
  else if s = 2 then
    let c := c.modTime (fun t => { t with runLoose := if 8 * lock < a then t.runLoose + 1 else 0 })
    if 4 ≤ c.time.runLoose then c.lockTo 1 else c
  else if s = 3 then
    let c := c.modTime (fun t => { t with runHold := t.runHold + 1 })
    if 8 ≤ c.time.runHold then c.lockTo 1 else c
  else c

/-- A valid exchange has completed, with its offset in 2^-17 ns (R52, R53, R69).
[DEDUCED, log entry 37: unsafe] [DEDUCED, log entry 119: unsafe] -/
def Chip.validExchange (off : Int) (c : Chip) : Chip :=
  let limit : Int := ((c.fld F.time_STEPLIMIT_US * 131072000 : Nat) : Int)
  let beyond := decide (limit < (off.natAbs : Int))
  let c := c.modTime (fun t => { t with
    offsets := (off :: t.offsets).take 8, lastValid := some c.count
    runBeyond := if beyond then t.runBeyond + 1 else 0, runWithin := if beyond then 0 else t.runWithin + 1 })
  let c := (c.showOffset off).servoWrites off
  if c.fld F.time_STATUS_STATE = 0 ∧ c.flag F.time_STATUS_ARMED ∧ c.time.offsets.length = 8 then
    c.servoStep (firstStep c.time.offsets)
  else (c.lockAfter off).stepReq

/-- The mean path delay of an exchange is acceptable against the last 16 (R68). -/
def TimeSt.delayOk (t : TimeSt) (d : Int) : Bool :=
  decide (0 ≤ d) && (match t.delays with | [] => true | x :: r => decide (2 * d ≤ 3 * r.foldl min x))

/-- SERVO_EXCHANGE: an exchange completes, with t1 to t4 as corrected, or with the peer delay in place of t3 and t4.
It is valid where it is the chosen master's, that master's Sync interval is one the device accepts (R56), no gap
touches it and its path delay is acceptable (R67, R68). Which master is chosen is the operand `master` (R55).
[DEDUCED, log entry 34: unsafe] [DESIGN CHOICE, log entry 132: unsafe] -/
def Chip.servoExchange (t1 t2 t3 t4 : Nat) (peer : Option Nat) (log : Int) (begun : Nat) (master gap : Bool) (c : Chip) : Chip :=
  let gapped := gap || (match c.time.gapPopped with | some n => decide (begun ≤ n) | none => false)
  let d : Int := match peer with
    | some p => 2 * (p : Int)
    | none => ((t2 : Int) - t1) + ((t4 : Int) - t3)
  let off : Int := match peer with
    | some p => 2 * ((t1 : Int) + p - t2)
    | none => ((t1 : Int) - t2) + ((t4 : Int) - t3)
  if c.fld F.time_CTRL_SOURCE ≠ 0 || !master || gapped || !c.time.delayOk d || !c.live ||
      decide (log < -7 ∨ 4 < log) then c
  else (c.modTime (fun t => { t with delays := (d :: t.delays).take 16, logInterval := some log })).validExchange off

/-- PPS_IN_EDGE: an edge is stamped to within 4 ns, and with SOURCE = PPS_IN counts as an exchange where it falls
within 100 ms of a whole second (R77). The 100 ns that keep edges apart run from the last edge accepted.
[DESIGN CHOICE, log entry 39: safe] [DEDUCED, log entry 136: unsafe] -/
def Chip.ppsIn (rising : Bool) (c : Chip) : Chip :=
  let close := match c.time.lastPps with | some n => decide (c.count < n + 125) | none => false
  if !c.flag F.time_PPSI_EN || c.flag F.time_PPSI_EDGE == rising || close || !c.live then c
  else
    let c := c.modTime (fun t => { t with lastPps := some c.count })
    let (e, c) := c.drawInt
    let t := ((c.now : Int) + (e % 524289 - 262144)).toNat
    let c := c.iff (c.flag F.time_PPSI_TOCHUTE) (Chip.stampEvt 4 0 rising 0 0 0 t)
    let k := (2 * t + tSec) / (2 * tSec)
    let off : Int := ((k * tSec : Nat) : Int) - (t : Int)
    if c.fld F.time_CTRL_SOURCE = 1 ∧ off.natAbs ≤ 6553600000000 then
      (c.modTime (fun t => { t with logInterval := some 0 })).validExchange (2 * off)
    else c

/-- A read of TIME.NOW_SECLO latches the group from one count for its requester (R47). -/
def Chip.readNow (q : Requester) (c : Chip) : Word × Chip :=
  let t := c.now
  let lo := wofNat (secOf t)
  (lo, ((((((c.wrq q .time_NOW_SECHI (wofNat (secOf t / 2 ^ 36 % 4096))).wrq q .time_NOW_NS (wofNat (nsOf t))).wrq q
    .time_NOW_FRAC (wofNat (fracOf t))).wrq q .time_COUNT_LO (wofNat c.count)).wrq q .time_COUNT_HI
    (wofNat (c.count / 2 ^ 36))).wrq q .time_MT_LO (wofNat c.mt)).wrq q .time_MT_HI (wofNat (c.mt / 2 ^ 36 % 2 ^ 18)))

/-- PPS_OUT_EDGE: the pin takes the level of R76. -/
def Chip.ppsOut (c : Chip) : Chip :=
  let l := c.ppsLevel
  if l = c.time.ppsOut then c else (c.modTime (fun t => { t with ppsOut := l })).emit (.pin "PPS_OUT" 0 l)

/-- WCLK_OUT_EDGE: the pin takes the level of R76. -/
def Chip.wclkOut (c : Chip) : Chip :=
  let l := c.wclkLevel
  if l = c.time.wclkOut then c else (c.modTime (fun t => { t with wclkOut := l })).emit (.pin "WCLK_OUT" 0 l)

/-- Which of the two ticks nearest the half of the present video frame FREQ_OUT falls at: chosen once for the frame.
[DEDUCED, log entry 41: safe] -/
def Chip.freqOdd (c : Chip) : Bool × Chip :=
  match c.time.freqPick with
  | some (k, b) =>
    if k = c.freqFrame then (b, c)
    else
      let r := c.drawBit
      (r.1, r.2.modTime (fun t => { t with freqPick := some (c.freqFrame, r.1) }))
  | none =>
    let r := c.drawBit
    (r.1, r.2.modTime (fun t => { t with freqPick := some (c.freqFrame, r.1) }))

/-- FREQ_OUT_EDGE: the pin takes the level of R76 and Table 2.8.
[DEDUCED, log entry 41: safe] -/
def Chip.freqOut (c : Chip) : Chip :=
  let (odd, c) := c.freqOdd
  let l := c.freqLevel odd
  if l = c.time.freqOut then c else (c.modTime (fun t => { t with freqOut := l })).emit (.pin "FREQ_OUT" 0 l)

end Sys2Proof.Machine
end

