-- ==== Sys2Proof/Machine/Items.lean ====
section
/-! DEFINITION. Items on cores: landing, dispatch, completion and write-back (R278 to R288), and exceptions of channel
and control cores (R260 to R265). -/
namespace Sys2Proof.Machine

open Sys2Proof

/-! ## Release -/

/-- A slot's item sits in its delay list, at a held head or behind it (R275, R277). -/
def SlotSt.inList (s : SlotSt) : Bool := decide (s.stage = .delayed ∨ (s.stage = .held ∧ s.listed = true))

/-- Another item comes before a slot's in the same delay list: SLOT mod 16, by release tick and then by slot (R275). -/
def Chip.listedBefore (c : Chip) (n : Nat) (s : SlotSt) : Bool :=
  c.slots.any (fun p => decide (p.1 % 16 = n % 16) && p.2.inList &&
    decide (p.2.tick < s.tick ∨ (p.2.tick = s.tick ∧ p.1 < n)))

/-- The mix store has closed the blocks of this tick on every enabled bus (R197, R275). -/
def Chip.blocksClosed (c : Chip) : Bool :=
  c.buses.all (fun p => !c.busOn p.1 || decide (c.busNow p.1 < (p.2.closed + 2) * c.busBlock p.1))

/-- The release of a delayed item at its tick, from the head of its delay list (R275); it waits there while its ready list
takes nothing (R277). -/
def Chip.releaseItem (n : Nat) (c : Chip) : Chip :=
  match Cells.find? n c.slots with
  | none => c
  | some s =>
    if s.stage = .delayed ∧ s.tick ≤ c.mt ∧ ¬ c.chanRec ∧ c.blocksClosed ∧ ¬ c.listedBefore n s then
      (c.modSlot n (fun s => { s with listed := true })).enterReady n
    else c

/-! ## Exceptions -/

/-- Causes of Table 9.12. -/
def Ex.ILLEGAL : Nat := 0
/-- An address that R235, R241 or R258 does not permit. -/
def Ex.ADDRESS : Nat := 1
/-- A protection rule of R239, R254, R257, R264 or R270. -/
def Ex.PROTECT : Nat := 2
/-- An uncorrectable word (R236, R239). -/
def Ex.UNCORR : Nat := 3
/-- An item that ran longer than four periods. -/
def Ex.WATCHDOG : Nat := 4
/-- TRAP on a control core. -/
def Ex.TRAP : Nat := 5

/-- A core is a channel core. -/
def isChannelCore (k : Nat) : Bool := decide (k < 96)

/-- A program address in the custom-function region (Table 9.2). -/
def inCustom (pc : Nat) : Bool := decide (0x20000 ≤ pc ∧ pc < 0x40000)

/-- FLAGS.CF: the program address of a channel core lies in the custom-function region (R270). -/
def CoreSt.custom (s : CoreSt) (k : Nat) : Bool := isChannelCore k && inCustom s.pc

/-- The item of a slot is discarded as its core leaves it: the buffer is free and the release counts as completed with
a lag of 0 (R288); a channel restarts (Table 3.7). -/
def Chip.discardItem (k n : Nat) (c : Chip) : Chip :=
  let c := c.setBuf (k * 2 + (c.core k).buf) .free
  if n < 32768 then (c.freeSlot n).chanUncorr n else c.endRelease n 0

/-- An exception on a channel core (R261): its item is discarded, its transfers abandoned and the event recorded; with no
item it is a fatal fault of the channel domain.
[DEDUCED, log entry 61: safe] -/
def Chip.channelException (k cause : Nat) (c : Chip) : Chip :=
  let s := c.core k
  let (free, c) := c.drawNat
  let c := c.bump F.coredbg_EXCCOUNT_EVENTS
  let (ch, fid) : Nat × Nat := match s.item with
    | some n => if n < 32768 then (n, dbits (c.desc n) 23 5 0) else (free, free / 32768)
    | none => (free, free / 32768)
  let c := ((((c.put F.coredbg_LASTEXC_CAUSE cause).put F.coredbg_LASTEXC_CORE k).put F.coredbg_LASTEXC_CUSTOM
    (b2n (s.custom k))).put F.coredbg_LASTEXC_FUNCID fid).put F.coredbg_LASTEXC_CHANNEL ch
  let c := c.put F.coredbg_LASTPC_PC s.pc
  match s.item with
  | some n => (c.discardItem k n).modCore k CoreSt.retake
  | none => (c.modCore k CoreSt.retake).fatalOf 0x0A 3

/-- A control core takes an exception or a line: EPC, ECAUSE, SUP, IE and the vector (R265). -/
def CoreSt.vector (cause : Nat) (s : CoreSt) : CoreSt :=
  { s with epc := s.pc, ecause := cause, prevSup := s.sup, sup := true, ie := false
           pc := (s.ivec + 16 * cause) % 2 ^ 19, wait := .run }

/-- An exception on a control core; one taken with IE = 0 in supervisor mode is a double fault (R265).
[DEDUCED, log entry 53: unsafe] -/
def Chip.controlException (k cause : Nat) (c : Chip) : Chip :=
  let s := c.core k
  let c := c.modCore k (CoreSt.vector cause)
  c.iff (!s.ie && s.sup) (Chip.fatalOf 4 4)

/-- An exception on a core (R260). -/
def Chip.exception (k cause : Nat) (c : Chip) : Chip :=
  if isChannelCore k then c.channelException k cause else c.controlException k cause

/-- INTERRUPT_TAKEN: between bundles a control core takes its lowest enabled pending line while IE = 1 (R265). -/
def Chip.interruptTaken (k : Nat) (c : Chip) : Chip :=
  let s := c.core k
  let m := s.ipend &&& s.imask
  if isChannelCore k || !s.ie || m == 0 || s.wait ≠ .run then c
  else c.modCore k (CoreSt.vector (8 + ((List.range 8).findIdx (fun i => m.testBit i))))

/-- A program address that can be fetched (R235). -/
def fetchable (pc : Nat) : Bool := pc % 2 == 0 && decide (pc < 0x60000)

/-- WATCHDOG: an item that has run longer than four periods, in sub-ticks from the return of TAKE (Table 9.12). -/
def Chip.watchdog (k : Nat) (c : Chip) : Chip :=
  let s := c.core k
  match s.item with
  | none => c
  | some n => match Cells.find? n c.slots with
    | none => c
    | some x => if 4 * x.period < c.subtick - s.takeSub then c.exception k Ex.WATCHDOG else c

/-! ## Landing and dispatch -/

/-- Bursts of a channel's state area that are landed (Table 10.3). -/
def stateBursts (d : List Word) : Nat := ceilDiv (dbits d 24 35 22 - 32) 16

/-- ITEM_LANDED: the last word of an item's state is in its buffer (R279), or the landing met an uncorrectable error
(R283). -/
def Chip.itemLanded (place : Nat) (c : Chip) : Chip :=
  match c.buf place with
  | .landing n => match Cells.find? n c.slots with
    | none => c.setBuf place .free
    | some s =>
      let k := place / 2
      let base := bufBase (place % 2)
      let landed (c : Chip) : Chip := (c.setBuf place (.landed n)).modSlot n (fun s => { s with stage := .landed })
      if s.kind = 1 then
        let a := c.descAddr n
        let d := c.desc n
        let sa := dbits d 3 33 0 * 16
        let m := stateBursts d * 16
        let c := (c.readLog Src.SKIDDER a 32).readLog Src.SKIDDER sa m
        if !c.rangeOk a 32 || !c.rangeOk sa m then
          ((c.setBuf place .free).freeSlot n).chanUncorr n
        else
          let ws := c.words a 32
          let c := (c.putLocal k base ws).putLocal k (base + 32) (c.words sa m)
          landed { c with heads := Cells.insert place { ws := (ws.drop 16).take 12, area := sa, words := m } c.heads }
      else
        let a := s.arg * 16
        let m := s.landb * 16
        let c := c.readLog Src.SKIDDER a m
        if !c.rangeOk a m then (c.setBuf place .free).endRelease n 0
        else landed (c.putLocal k base (c.words a m))
  | _ => c

/-- ITEM_DISPATCH: a landed item is delivered to its core waiting in TAKE (R255, R284). An entry that cannot be fetched
raises ADDRESS (R295). -/
def Chip.itemDispatch (k : Nat) (c : Chip) : Chip :=
  let find (b : Nat) : Option (Nat × Nat) := match c.buf (k * 2 + b) with | .landed n => some (b, n) | _ => none
  if (c.core k).wait ≠ .take || c.chanRec then c
  else match (find 0).or (find 1) with
    | none => c
    | some (b, n) => match Cells.find? n c.slots with
      | none => c
      | some s =>
        let c := (c.setBuf (k * 2 + b) (.current n)).modSlot n (fun s => { s with stage := .running })
        let c := c.modCore k (fun x => { x with
          wait := .run, item := some n, buf := b
          g := Cells.set 0 31 s.w3 (Cells.set 0 30 (wofNat s.nominal) (Cells.set 0 29 s.w1 (Cells.set 0 28 s.w0 x.g)))
          x := Cells.set 0 7 (bufBase b) x.x
          loop0 := none, loop1 := none, flags := nput x.flags 6 6 0
          takeAt := c.count, takeSub := c.subtick, pc := s.entry })
        c.iff (!fetchable s.entry) (Chip.exception k Ex.ADDRESS)

/-! ## Completion and write-back -/

/-- What a completion leaves for the write-back (R286), of a channel as its table entry now is. -/
def HeadSt.done (t : ChanSt) (h : HeadSt) : HeadSt :=
  { h with status := t.lastStatus, lag := t.lag, late := t.lateFrames, maxLag := t.maxLag }

/-- What a completion leaves for the write-back (R286) where the item's channel has become IDLE meanwhile: raised from the
words as landed. -/
def HeadSt.alone (lag : Nat) (h : HeadSt) : HeadSt :=
  { h with
    status := if lag = 0 then St.OK else St.LATE
    lag := min 65535 lag
    late := min (2 ^ 36 - 1) ((h.ws.getD 10 0).toNat + if lag = 0 then 0 else 1)
    maxLag := max (wbits (h.ws.getD 11 0) 15 0) (min 65535 lag) }

/-- The word kept with a staging buffer changed. -/
def Chip.modHead (place : Nat) (f : HeadSt → HeadSt) (c : Chip) : Chip :=
  { c with heads := Cells.modify {} place f c.heads }

/-- A slot's last release has ended. -/
def Chip.endSlot (n : Nat) (c : Chip) : Chip := c.modSlot n (fun s => { s with stage := .ended })

/-- A channel's item has completed (R285, R286, Table 3.7): its next release, or the end of the channel. The chain of a
channel that became IDLE while its item was in flight, or is PENDING anew, is not run.
[DEDUCED, log entry 152: unsafe] -/
def Chip.endChannel (place n lag : Nat) (c : Chip) : Chip :=
  let alone := (c.modHead place (HeadSt.alone lag)).endSlot n
  match Cells.find? n c.chans with
  | none => alone
  | some s =>
    if s.life = 1 then alone
    else
    let c := c.completeChannel (place / 2) (place % 2) n lag
    match Cells.find? n c.chans with
    | none => c.endSlot n
    | some t =>
      let c := c.modHead place (HeadSt.done t)
      if s.life = 4 ∧ s.lastFrame ≤ s.frame then
        ((c.modHead place (fun h => { h with last := some (t.restarts, t.discards) })).endSlot n).idle n
      else match Cells.find? n c.slots with
        | none => c
        | some sl => if sl.cancelled ∨ t.life = 3 then c.endSlot n else c.nextRelease n lag

/-- The Kerf lane of a channel whose history or state holds an uncorrectable error, which the rate stage meets (R155). -/
def Chip.laneUpset (c : Chip) (n : Nat) : Option Nat :=
  let d := c.desc n
  let lane := dbits d 6 13 0
  if dFunc d 0 && c.upset (.lane lane) then some lane else none

/-- The item that a core holds completes at this instant (R255, R284, R285); its buffer is written back, or is free
where nothing is (Table 10.3). -/
def Chip.completeItem (k : Nat) (c : Chip) : Chip :=
  let s := c.core k
  match s.item with
  | none => c
  | some n =>
    let place := k * 2 + s.buf
    let c := c.modCore k (fun s => { s with item := none })
    match Cells.find? n c.slots with
    | none => c.setBuf place .free
    | some sl =>
      let lag := lagOf c.subtick sl.nominal
      if sl.kind = 1 then
        match c.laneUpset n with
        | some lane => (((c.heal (.lane lane)).setBuf place .free).freeSlot n).chanUncorr n
        | none => (c.setBuf place (.writing n)).endChannel place n lag
      else if sl.kind = 2 then (c.setBuf place (.writing n)).endRelease n lag
      else (c.setBuf place .free).endRelease n lag

/-- TAKE once the core's transfers have completed: the item it holds completes, and the core waits (R255).
[DESIGN CHOICE, log entry 20: safe] -/
def Chip.takeNow (k : Nat) (c : Chip) : Chip :=
  (c.completeItem k).modCore k (fun s => { s with wait := .take, call := none, loop0 := none, loop1 := none })

/-- A core whose transfers have all completed goes on from WAITE, or from TAKE's own wait (R255, R259). -/
def Chip.settleCore (k : Nat) (c : Chip) : Chip :=
  let s := c.core k
  if !s.xfers.isEmpty then c
  else if s.wait = .takeDrain then c.takeNow k
  else if s.wait = .waite then c.modCore k (fun s => { s with wait := .run })
  else c

/-- Every core whose transfers have all completed goes on. -/
def Chip.settleCores (c : Chip) : Chip := forRange 100 Chip.settleCore c

/-- Descriptor words 25 to 27 of a write-back (R280): STATE, RESTARTS and DISCARDS as the CHAN block holds them, the rest from
the completion. Of a channel that is IDLE it holds the values that it last wrote, or that the completion left.
[DEDUCED, log entry 152: unsafe] -/
def Chip.headWords (c : Chip) (n : Nat) (h : HeadSt) : List Word :=
  let (life, restarts, discards) : Nat × Nat × Nat := match Cells.find? n c.chans, h.last with
    | some t, _ => (t.life, t.restarts, t.discards)
    | none, some (r, x) => (0, r, x)
    | none, none => (0, wbits (c.descWord n 25) 25 16, wbits (c.descWord n 27) 35 16)
  [wofNat (life * 2 ^ 32 + h.status * 2 ^ 26 + restarts * 65536 + h.lag), wofNat h.late, wofNat (discards * 65536 + h.maxLag)]

/-- WRITE_BACK_COMPLETE: the Skidder has written a completed item back and frees its buffer (R280, R281).
[DEDUCED, log entry 152: unsafe] -/
def Chip.writeBack (place : Nat) (c : Chip) : Chip :=
  match c.buf place with
  | .writing n =>
    let k := place / 2
    let base := bufBase (place % 2)
    let h := Cells.get {} place c.heads
    let ended := match Cells.find? n c.slots with | some s => decide (s.stage = .ended) | none => false
    let kind := match Cells.find? n c.slots with | some s => s.kind | none => 1
    let write (c : Chip) : Chip :=
      if n < 32768 ∧ kind = 1 then
        let c := c.putWords (c.descAddr n + 16) (h.ws.take 9 ++ c.headWords n h ++ c.localWords k (base + 28) 4)
        c.putWords h.area (c.localWords k (base + 32) h.words)
      else match Cells.find? n c.slots with
        | none => c
        | some s => c.putWords (s.arg * 16) (c.localWords k base (s.landb * 16))
    let c := { write c with heads := Cells.erase place c.heads }
    let c := c.setBuf place .free
    c.iff ended (Chip.freeSlot n)
  | _ => c

end Sys2Proof.Machine
end

