-- ==== Sys2Proof/Machine/Ranger.lean ====
section
/-! DEFINITION. The Ranger: sensors, operating points, gating, the power cap, the throttle, the trip and converter
alerts (R493 to R500). Temperatures are in units of 0.125 degrees C. -/
namespace Sys2Proof.Machine

open Sys2Proof

/-- A RANGER.EVENT bit sets; where enabled it makes line 7 pending and raises source 3 (Table 19.17). -/
def Chip.rangerEvent (f : Fld) (c : Chip) : Chip :=
  let was := c.flag f
  let c := c.put f 1
  if (c.fld F.ranger_EVENTEN_EN).testBit f.lo then (c.line 7).iff (!was) (Chip.irq 3) else c

/-- The reading of a sensor, signed. -/
def Chip.temp (c : Chip) (s : Nat) : Int := signed 12 (c.fld F.ranger_TEMP_TEMP s)

/-- The hottest sensor, the lower number on a tie. -/
def Chip.hottest (c : Chip) : Nat := (List.range 64).foldl (fun a s => if c.temp a < c.temp s then s else a) 0

/-- The highest reading. -/
def Chip.tmax (c : Chip) : Int := c.temp c.hottest

/-- A cluster carries charge (R105).
[DEDUCED, log entry 85: unsafe] -/
def Chip.charged (c : Chip) (k : Nat) : Bool := c.fld F.chan_CLUSE_USE k != 0

/-- The operating point that a group has, or is changing to (R494). -/
def Chip.oppOf (c : Chip) (k : Nat) : Nat := Cells.get (c.fld F.ranger_OPP_OPP k) k c.ranger.changing

/-- A change of operating point begins (R494).
[DEDUCED, log entry 85: unsafe] -/
def Chip.oppTo (k p : Nat) (c : Chip) : Chip :=
  if p = c.oppOf k then c
  else c.modRanger (fun r => { r with changing := Cells.insert k p r.changing, idleSince := Cells.erase k r.idleSince })

/-- OPP_CHANGE_COMPLETE: the group is at its new point (R494); one that a restored step takes out of gating is gated no more.
[DEDUCED, log entry 5: safe] [DEDUCED, log entry 85: unsafe] -/
def Chip.oppComplete (k : Nat) (c : Chip) : Chip :=
  match Cells.find? k c.ranger.changing with
  | none => c
  | some p =>
    let g := c.fld F.ranger_STATUS_GATED
    let c := (c.iff (g.testBit k && p != 4) (Chip.put F.ranger_STATUS_GATED (g - 2 ^ k))).put F.ranger_OPP_OPP p k
    c.modRanger (fun r => { r with
      changing := Cells.erase k r.changing
      idleSince := if p = 3 then Cells.insert k c.count r.idleSince else Cells.erase k r.idleSince })

/-- The cluster of a list that a measure puts first: the greatest, the lower number on a tie.
[DEDUCED, log entry 85: unsafe] -/
def pickMost (f : Nat → Nat) : List Nat → Option Nat
  | [] => none
  | k :: r => match pickMost f r with
    | none => some k
    | some j => if f k < f j then some j else some k

/-- Charged clusters above OPP 0x3. -/
def Chip.lowerable (c : Chip) : List Nat := (List.range 12).filter (fun k => c.charged k && decide (c.oppOf k < 3))

/-- SENSOR_SAMPLE: readings of the 64 sensors, 10 ms mean powers of the 18 domains and of the package, in mW; with
them the crossings of 110 degrees, the throttle's entry and the trip comparators (R493, R497 to R499).
[DESIGN CHOICE, log entry 86: safe] [DEDUCED, log entry 128: unsafe] -/
def Chip.sensorSample (threshold : Int) (temps : List Int) (domains : List Nat) (total : Nat) (c : Chip) : Chip :=
  let c := forRange 64 (fun s c => c.put F.ranger_TEMP_TEMP (unsignedOf 12 (temps.getD s 0)) s) c
  let c := forRange 18 (fun d c => c.put F.ranger_DOMPWR_MW (domains.getD d 0) d) c
  let c := ((c.put F.ranger_POWER_MW total).put F.ranger_TMAX_SENSOR c.hottest).put F.ranger_TMAX_TEMP
    (unsignedOf 12 c.tmax)
  let bits (t : Int) : Nat := (List.range 64).foldl (fun a s => if t ≤ c.temp s then a + 2 ^ s else a) 0
  let above := bits threshold
  let c := c.modRanger (fun r => { r with overTrip := above, trip := r.trip || (r.overTrip &&& above) != 0 })
  if !c.live then c
  else
    let hot := bits 880
    let fresh := (List.range 64).filter (fun s => hot.testBit s && !c.ranger.over110.testBit s)
    let c := c.modRanger (fun r => { r with
      over110 := hot
      coolSince := if c.tmax < 800 then some (r.coolSince.getD c.count) else none
      capCool := if total * 100 ≤ c.fld F.ranger_POL0_TDPCAP * 95000 then some (r.capCool.getD c.count) else none })
    let c := fresh.foldl (fun c s =>
      (c.rangerEvent F.ranger_EVENT_HOT110).raiseEntry 5 (leOctets 8 (s * 4096 + c.fld F.ranger_TEMP_TEMP s))) c
    if 840 ≤ c.tmax then
      let entered := !c.flag F.ranger_STATUS_THROTTLE
      (c.put F.ranger_STATUS_THROTTLE 1).iff entered (Chip.rangerEvent F.ranger_EVENT_THROTTLE)
    else if c.ranger.thrSteps.isEmpty then c.put F.ranger_STATUS_THROTTLE 0 else c

/-- The time since the last step of the throttle or the cap has passed. -/
def Chip.spaced (c : Chip) (last : Option Nat) (n : Nat) : Bool :=
  match last with | some x => decide (x + n ≤ c.count) | none => true

/-- The cluster that the throttle lowers next (R498). -/
def Chip.throttled (c : Chip) : Option Nat :=
  let k := c.hottest / 4
  if c.hottest < 48 ∧ c.lowerable.contains k then some k
  else pickMost (fun k => c.fld F.ranger_DOMPWR_MW k) c.lowerable

/-- THROTTLE_STEP: one charged cluster is lowered a step, each millisecond (R498).
[DEDUCED, log entry 85: unsafe] -/
def Chip.throttleStep (c : Chip) : Chip :=
  if !c.live || c.tmax < 840 || !c.spaced c.ranger.lastThrottle 1250000 then c
  else match c.throttled with
    | none => c
    | some k => (c.oppTo k (c.oppOf k + 1)).modRanger (fun r => { r with
        thrSteps := Cells.insert k (Cells.get 0 k r.thrSteps + 1) r.thrSteps, lastThrottle := some c.count })

/-- THROTTLE_RESTORE: after 10 ms below 100 degrees a step is restored to the cluster lowered furthest (R498). -/
def Chip.throttleRestore (c : Chip) : Chip :=
  if !c.live || c.ranger.coolSince.isNone || !c.spaced c.ranger.coolSince 12500000 then c
  else match pickMost (fun k => Cells.get 0 k c.ranger.thrSteps) (c.ranger.thrSteps.map (·.1)) with
    | none => c
    | some k =>
      let c := (c.oppTo k (c.oppOf k - 1)).modRanger (fun r => { r with
        thrSteps := Cells.set 0 k (Cells.get 0 k r.thrSteps - 1) r.thrSteps, coolSince := some c.count })
      c.iff (c.ranger.thrSteps.isEmpty && decide (c.tmax < 840)) (Chip.put F.ranger_STATUS_THROTTLE 0)

/-- TDP_CAP_STEP: with the mean above TDPCAP, the charged cluster of the highest power is lowered a step, every 10 ms
(R497).
[DEDUCED, log entry 85: unsafe] -/
def Chip.capStep (c : Chip) : Chip :=
  if !c.live || decide (c.fld F.ranger_POWER_MW ≤ c.fld F.ranger_POL0_TDPCAP * 1000)
      || !c.spaced c.ranger.lastCap 12500000 then c
  else match pickMost (fun k => c.fld F.ranger_DOMPWR_MW k) c.lowerable with
    | none => c
    | some k =>
      let entered := !c.flag F.ranger_STATUS_CAP
      let c := (c.oppTo k (c.oppOf k + 1)).modRanger (fun r => { r with
        capSteps := Cells.insert k (Cells.get 0 k r.capSteps + 1) r.capSteps, lastCap := some c.count })
      (c.put F.ranger_STATUS_CAP 1).iff entered (Chip.rangerEvent F.ranger_EVENT_CAP)

/-- TDP_CAP_RESTORE: after 100 ms at or below 95 % of TDPCAP the lowest of the clusters that the cap lowered is
raised a step (R497). -/
def Chip.capRestore (c : Chip) : Chip :=
  if !c.live || c.ranger.capCool.isNone || !c.spaced c.ranger.capCool 125000000 then c
  else match pickMost (fun k => c.oppOf k) (c.ranger.capSteps.map (·.1)) with
    | none => c
    | some k =>
      let c := (c.oppTo k (c.oppOf k - 1)).modRanger (fun r => { r with
        capSteps := Cells.set 0 k (Cells.get 0 k r.capSteps - 1) r.capSteps, capCool := some c.count })
      c.iff c.ranger.capSteps.isEmpty (Chip.put F.ranger_STATUS_CAP 0)

/-- A group follows its mean utilisation over the last 1 ms (R495): group 12 is the control cores. -/
def Chip.followUse (k use : Nat) (c : Chip) : Chip :=
  let p := c.oppOf k
  if (decide (k < 12) && c.charged k) || p == 4 then c
  else
    let run (n : Nat) (c : Chip) : Chip := c.modRanger (fun r => { r with downRun := Cells.set 0 k n r.downRun })
    let lowest := if k = 12 then 2 else 3
    if c.fld F.ranger_POL3_UPTHR ≤ use then (run 0 c).oppTo k (p - 1)
    else if use ≤ c.fld F.ranger_POL3_DOWNTHR then
      let n := Cells.get 0 k c.ranger.downRun + 1
      if 10 ≤ n then (run 0 c).oppTo k (min lowest (p + 1)) else run n c
    else run 0 c

/-- UTILISATION_PERIOD: the mean utilisations of the 12 clusters and of the control cores, in per cent (R495).
[DESIGN CHOICE, log entry 86: safe] -/
def Chip.utilPeriod (uses : List Nat) (c : Chip) : Chip :=
  if !c.live then c else forRange 13 (fun k c => c.followUse k (uses.getD k 0)) c

/-- CLUSTER_GATE: a cluster allowed by GATEOK is gated after 10 ms at OPP 0x3, with no charge and an empty ready list
(R495). -/
def Chip.clusterGate (k : Nat) (c : Chip) : Chip :=
  match Cells.find? k c.ranger.idleSince with
  | none => c
  | some n =>
    if 12 ≤ k || c.fld F.ranger_OPP_OPP k != 3 || c.charged k || decide (0 < c.readyLen k)
        || !(c.fld F.ranger_POL2_GATEOK).testBit k || decide (c.count < n + 12500000) || !c.live then c
    else
      ((c.put F.ranger_OPP_OPP 4 k).put F.ranger_STATUS_GATED (c.fld F.ranger_STATUS_GATED ||| 2 ^ k)).modRanger
        (fun r => { r with idleSince := Cells.erase k r.idleSince })

/-- PMB_ALERT: STATUS_WORD of each listed converter is read; a fault bit, or SCL held low for more than 25 ms (R513), sets PMBUS
and counts (R500).
[DESIGN CHOICE, log entry 86: safe] [DESIGN CHOICE, log entry 118: safe] -/
def Chip.pmbAlert (faults : List Bool) (c : Chip) : Chip :=
  let l := c.fld F.ranger_POL4_LIST
  let bad := (List.range 4).any (fun i => l.testBit (8 * i + 7) && faults.getD i false)
  if bad && c.live then (c.rangerEvent F.ranger_EVENT_PMBUS).bump F.fault_CNT_COUNT 1 0 else c

end Sys2Proof.Machine
end

