-- ==== Sys2Proof/Machine/Bus.lean ====
section
/-! DEFINITION. Register access (R9 to R12, R30, R31, R36, R432 to R436, R515, R517): one 36-bit write and one 36-bit read
that every requester shares, the split halves of the PCIe link, and the BAR2 window. -/
namespace Sys2Proof.Machine

open Sys2Proof

/-! ## What a write of a register does -/

/-- A field's value after a write of the whole register under its access code (R11): `img` is a write of the image. -/
def RegField.written (f : RegField) (img : Bool) (old new : Word) : Nat :=
  let o := wbits old f.hi f.lo
  let n := wbits new f.hi f.lo
  match f.acc with
  | .rw => n
  | .rwi => n
  | .rwb => if img then n else o
  | .w1c => o - (o &&& n)
  | .ro => o
  | .wo => o
  | .rc => o

/-- A register after a write under its fields' access codes. -/
def RegInfo.written (d : RegInfo) (img : Bool) (old new : Word) : Word :=
  d.fields.foldl (fun w f => wput w f.hi f.lo (f.written img old new)) old

/-- A register that holds, for each requester, what an earlier read of its companion latched (R517), or of which each
requester has its own copy (R31). -/
def RegName.own (r : RegName) (j : Nat) : Bool :=
  r.info.perReq || (match r with
    | .time_NOW_SECHI | .time_NOW_NS | .time_NOW_FRAC | .time_COUNT_LO | .time_COUNT_HI | .time_MT_LO | .time_MT_HI => true
    | .fault_LAST1 | .coredbg_LASTPC => true
    | .mac_STAT => j == 22 || j == 24 || j == 42
    | _ => false)

/-- The plain write of a register: its fields under their access codes. -/
def Chip.plainWrite (q : Requester) (r : RegName) (i j : Nat) (w : Word) (c : Chip) : Chip :=
  let img := q == .loader
  if r.own j then c.wrq q r (r.info.written img (c.rdq q r i j) w) i j
  else c.wr r (r.info.written img (c.rd r i j) w) i j

/-- A value that an RWB field refuses with RANGE at image load, by its description.
[DEDUCED, log entry 67: unsafe] -/
def imageRange (r : RegName) (w : Word) : Bool :=
  match r with
  | .time_SERVO => wbits w 35 28 == 0 || wbits w 20 9 == 0 || wbits w 8 0 == 0 || decide (500 < wbits w 8 0)
  | .time_STEPLIMIT => w == 0
  | .time_LADDER => wbits w 2 0 == 7
  | .time_PTPCFG =>
    let t := wbits w 17 16
    let p := wbits w 1 0
    t == 3 || p == 3 || (p == 1 && t == 0) || (p == 2 && t != 1) || decide (2 ≤ wbits w 7 4 ∧ wbits w 7 4 ≤ 8)
  | .chan_CFG => decide (32768 < wbits w 15 0)
  | .chan_LUCEIL => decide (54720000 < wbits w 25 0)
  | .chan_CLCEIL => decide (4680000 < wbits w 22 0)
  | .chan_DRAMBUDGET => decide (300000000 < wbits w 28 0)
  | .flume_FTSIZE => decide (wbits w 4 0 < 10 ∨ 22 < wbits w 4 0)
  | .mc_CFG => wbits w 35 34 == 3 ||
    decide (1024 < 2 ^ (wbits w 35 34 + 1 + wbits w 33 33 + wbits w 32 32) * (if wbit w 31 then 64 else 32))
  | .mc_ACTCFG => decide (wbits w 15 0 < 64)
  | .mc_FP_CFG => decide (4 < wbits w 34 32)
  | .hostdma_CFG => wbits w 6 4 == 7
  | .fault_CFG => wbits w 15 8 == 0 || wbits w 7 0 == 0
  | .ranger_POL0 => decide (wbits w 8 0 < 100 ∨ 360 < wbits w 8 0)
  | .ranger_POL3 => decide (wbits w 13 7 < 1 ∨ 100 < wbits w 13 7 ∨ 99 < wbits w 6 0)
  | _ => false

/-- A value that the register's description ignores with RANGE, for registers with no operation of their own.
[DEDUCED, log entry 93: unsafe] -/
def plainRange (r : RegName) (w : Word) : Bool :=
  match r with
  | .time_PPSO => decide (999 < wbits w 11 2)
  | .time_FREQO => decide (5 < wbits w 5 2)
  | .time_TC_PORT => wbits w 1 0 == 3
  | .chan_TQUOTA => decide (32768 < wbits w 15 0)
  | .flume_PORT_MISS => let a := wbits w 35 33; a != 0 && a != 3 && a != 4
  | .flume_QLATE => (List.range 16).any (fun i => wbits w (2 * i + 1) (2 * i) == 3)
  | _ => false

/-- The LASTERR field that reports a register's ignored writes, and the index of its block: none where no block field
does (TIME, KERF, HEDGE.SEG and CHAN to AUDIO_IO each name theirs).
[DEDUCED, log entry 66: unsafe] -/
def errField (r : RegName) (i : Nat) : Option (Fld × Nat) :=
  match r.info.block with
  | .time => some (F.time_STATUS_LASTERR, 0)
  | .chan => some (F.chan_CMDSTAT_LASTERR, 0)
  | .kerf => some (F.kerf_STATUS_LASTERR, 0)
  | .baler => some (F.baler_SUBSTAT_LASTERR, 0)
  | .chute => some (F.chute_REQSTAT_LASTERR, 0)
  | .flume => some (F.flume_FCMDSTAT_LASTERR, 0)
  | .boom => some (F.boom_REQSTAT_LASTERR, 0)
  | .mac => some (F.mac_REQSTAT_LASTERR, i)
  | .hedge => some (F.hedge_SEG_STAT_LASTERR, i)
  | .audioio => some (F.audioio_REQSTAT_LASTERR, 0)
  | .mc => some (F.mc_REQSTAT_LASTERR, 0)
  | .hostdma => some (F.hostdma_REQSTAT_LASTERR, 0)
  | .fault => some (F.fault_REQSTAT_LASTERR, 0)
  | _ => none

/-- A status recorded in the LASTERR field of a register's block.
[DEDUCED, log entry 66: unsafe] -/
def Chip.blockErr (q : Requester) (r : RegName) (i st : Nat) (c : Chip) : Chip :=
  match errField r i with
  | none => c
  | some (f, n) => if f.reg.info.perReq then c.errq q f st n else c.err f st n

/-- MBOX of a control core is written by requester KCk itself (Table 9.20). -/
def Requester.isKc (q : Requester) (k : Nat) : Bool :=
  match q with
  | .kc0 => k == 0 | .kc1 => k == 1 | .kc2 => k == 2 | .kc3 => k == 3
  | .pcie => false | .loader => false

/-- MBOX_WRITE: the value stands, and line 2 becomes pending on the core unless it wrote itself (Table 9.20). -/
def Chip.writeMbox (q : Requester) (k : Nat) (w : Word) (c : Chip) : Chip :=
  let c := c.wr .coredbg_MBOX w k
  if Requester.isKc q k then c else c.lineOn k 2

/-- A 36-bit write of a named register by a requester (R11): its block's operation, or the plain write. -/
def Chip.regWrite (q : Requester) (r : RegName) (i j : Nat) (w : Word) (c : Chip) : Chip :=
  if q = .loader ∧ imageRange r w then c.blockErr q r i St.RANGE
  else if plainRange r w then c.blockErr q r i St.RANGE
  else match r with
  | .time_RATE => c.writeRate w.toNat
  | .time_STEP_NS => c.writeStepNs w
  | .time_CTRL => c.writeTimeCtrl w
  | .chan_CMD => c.chanCmd q w
  | .chan_BUS => c.writeBus q i w
  | .chan_BUSGAIN => c.writeBusGain q i w
  | .chan_LUCEIL =>
    let c := c.plainWrite q r i j w
    c.iff (q == .loader) (fun c => c.put F.chan_LUEFF_CEIL (c.fld F.chan_LUCEIL_CEIL))
  | .kerf_COEFDATA => c.writeCoef w
  | .kerf_SETHDR => c.writeSetHdr i j w
  | .kerf_GANG => c.writeGang i w
  | .kerf_LCFG => c.writeLcfg i w
  | .kerf_LRATE => c.writeLrate i w
  | .kerf_LIBASE => c.writeRingBase r i w
  | .kerf_LOBASE => c.writeRingBase r i w
  | .baler_SUBMIT => c.balerSubmit q (wbits w 1 0)
  | .landing_SQBASE => c.writeSqBase q w
  | .landing_SQSIZE => c.writeSqSize q w
  | .landing_SQTAIL => c.writeSqTail q w
  | .chute_DROPREST => c.dropRestWrite q (wbits w 10 0)
  | .chute_C_CFG => c.writeChuteCfg q i w
  | .chute_C_PUSH => c.push i w false
  | .chute_C_PUSHEND => c.push i w true
  | .flume_FCMD => c.writeFcmd q w
  | .flume_PORT_CUT => (c.plainWrite q r i j w).refreshCut i
  | .flume_PORT_GCTRL => c.writeGctrl q i w
  | .flume_PORT_GT0 => c.writeAdmin q r i j w
  | .flume_PORT_GT1 => c.writeAdmin q r i j w
  | .flume_PORT_GT2 => c.writeAdmin q r i j w
  | .flume_PORT_GT3 => c.writeAdmin q r i j w
  | .flume_GCL_ADMIN => c.writeAdmin q r i j w
  | .boom_PORT_SHAPER => c.writePortShaper q i w
  | .boom_TEN_CFG => c.writeTenCfg q i w
  | .boom_TEN_SHAPER => c.writeTenShaper q i w
  | .boom_TEN_BQUOTA => c.writeBquota q i w
  | .boom_SVC_CFG => c.writeSvcCfg q i w
  | .boom_SVC_SHAPER => c.writeSvcShaper q i w
  | .boom_POL_CFG => c.writePolicer q i w
  | .boom_Q_CFG => c.writeQcfg q i w
  | .mac_CFG => c.writeMacCfg q i w
  | .mac_PREEMPT => c.writePreempt q i w
  | .mac_CTADAPT => c.iff (wbit w 35) (Chip.clearAdapt i)
  | .mac_LANECFG => c.writeLanecfg q i w
  | .hedge_SEG_CFG => c.writeSegCfg i w
  | .hedge_SEG_DOWN => c.writeDown i j w
  | .hedge_MDIO => c.writeMdio q w
  | .audioio_TDM_CFG => c.writeTdmCfg q i w
  | .audioio_TDM_OUT => c.writeOut q r i j w
  | .audioio_MADI_CFG => c.writeMadiCfg q i w
  | .audioio_MADI_OUT => c.writeOut q r i j w
  | .audioio_GPIO_CFG => c.writeGpioCfg i w
  | .audioio_GPIO_OUT => c.writeGpioOut w
  | .audioio_GPIO_TGO => c.writeTgo q w
  | .mc_CFG => (c.plainWrite q r i j w).fitDram
  | .mc_FPREQ => c.writeFpreq q w
  | .mc_HOSTCFG => c.writeHostcfg q w
  | .mc_SCRUB => c.writeScrub q w
  | .hostdma_R_CFG => c.writeRingCfg q i w
  | .hostdma_R_BASELO => c.writeHostRing q F.hostdma_R_BASELO_ADDR i w
  | .hostdma_R_BASEHI => c.writeHostRing q F.hostdma_R_BASEHI_ADDR i w
  | .hostdma_R_SIZE => c.writeHostRing q F.hostdma_R_SIZE_ENTRIES i w
  | .hostdma_R_TAIL => c.writeRingTail q i w
  | .fault_MODEREQ => c.writeModereq q (wbits w 3 0)
  | .coredbg_MBOX => c.writeMbox q i w
  | _ => c.plainWrite q r i j w

/-- A 36-bit write at a BAR0 octet offset: an offset that names no register ignores it (R12, R36). -/
def Chip.busWrite (q : Requester) (off : Nat) (w : Word) (c : Chip) : Chip :=
  match regAt off with
  | none => c
  | some (r, i, j) => c.regWrite q r i j w

/-! ## What a read of a register does -/

/-- A register's value without its RC fields. -/
def RegInfo.cleared (d : RegInfo) (w : Word) : Word :=
  d.fields.foldl (fun w f => if f.acc = .rc then wput w f.hi f.lo 0 else w) w

/-- A register as a requester sees it, without the effect of a read. -/
def Chip.peek (q : Requester) (r : RegName) (i j : Nat) (c : Chip) : Word :=
  if r.own j then c.rdq q r i j else c.rd r i j

/-- The plain read of a register: its value, and its RC fields cleared (R11). -/
def Chip.plainRead (q : Requester) (r : RegName) (i j : Nat) (c : Chip) : Word × Chip :=
  let v := c.peek q r i j
  let w := r.info.cleared v
  (v, if w = v then c else if r.own j then c.wrq q r w i j else c.wr r w i j)

/-- A 36-bit read of a named register by a requester: what it returns, what it latches (R517) and what it clears. -/
def Chip.regRead (q : Requester) (r : RegName) (i j : Nat) (c : Chip) : Word × Chip :=
  match r with
  | .time_NOW_SECLO => c.readNow q
  | .kerf_COEFDATA => c.readCoef
  | .chute_C_POP => c.popRead q i
  | .mac_STAT =>
    if j = 21 ∨ j = 23 ∨ j = 41 then (c.rd r i j, c.wrq q r (c.rd r i (j + 1)) i (j + 1)) else c.plainRead q r i j
  | .mc_ELOG => if i = 0 then c.readElog q else c.plainRead q r i j
  | .fault_LAST0 => (c.rd r, c.wrq q .fault_LAST1 (c.rd .fault_LAST1))
  | .coredbg_LASTEXC => (c.rd r, c.wrq q .coredbg_LASTPC (c.rd .coredbg_LASTPC))
  | .landing_SQBASE => (0, c)
  | .landing_SQSIZE => (0, c)
  | .landing_SQTAIL => (0, c)
  | _ => c.plainRead q r i j

/-- A 36-bit read at a BAR0 octet offset: an offset that names no register reads as 0 (R12, R36). -/
def Chip.busRead (q : Requester) (off : Nat) (c : Chip) : Word × Chip :=
  match regAt off with
  | none => (0, c)
  | some (r, i, j) => c.regRead q r i j

/-! ## The requesters' accesses -/

/-- Registers answer a requester: after release, and for the PCIe link with the function trained and in D0 (R431, R458,
Table 1.6). The loader's writes are its REGS records alone (R515).
[DEDUCED, log entry 110: safe] -/
def Chip.answers (c : Chip) (q : Requester) : Bool :=
  match q with
  | .loader => false
  | .pcie => c.dev.released && c.dev.pcieUp && !c.dev.d3hot
  | _ => c.dev.released

/-- A 64-bit write of the PCIe link discards a held half and counts it (R433). -/
def Chip.dropHeld (q : Requester) (c : Chip) : Chip :=
  if q == .pcie && (Cells.find? q.idx c.host.held).isSome then
    (c.modHost (fun h => { h with held := Cells.erase q.idx h.held })).bump F.hostdma_CNT_COUNT 1 1
  else c

/-- REGISTER_WRITE: a 36-bit write by a requester; for the PCIe link it is a 64-bit write of the slot. -/
def Chip.writeReg (q : Requester) (off : Nat) (w : Word) (c : Chip) : Chip :=
  if !c.answers q then c.emit (.unsupported off)
  else (c.dropHeld q).busWrite q off w

/-- A 36-bit write, by a requester, of a register whose block acts on it: `f` is the block's operation. -/
def Chip.access (q : Requester) (r : RegName) (i j : Nat) (f : Chip → Chip) (c : Chip) : Chip :=
  if !c.answers q then c.emit (.unsupported (r.addr i j)) else f (c.dropHeld q)

/-- A 36-bit read, by a requester, of a register whose block acts on it. -/
def Chip.accessRead (q : Requester) (r : RegName) (i j : Nat) (f : Chip → Word × Chip) (c : Chip) : Chip :=
  if !c.answers q then c.emit (.unsupported (r.addr i j))
  else (f c).2.emit (.readData q (r.addr i j) (f c).1.toNat)

/-- READ_AND_CLEAR and every other 36-bit read by a requester; the value is returned to it. -/
def Chip.readReg (q : Requester) (off : Nat) (c : Chip) : Chip :=
  if !c.answers q then c.emit (.unsupported off)
  else
    let (v, c) := c.busRead q off
    c.emit (.readData q off v.toNat)

/-- BAR0_LOW_WRITE (R432, R433): the half is held for its slot; one held for another slot is discarded and counted. -/
def Chip.lowWrite (q : Requester) (off v : Nat) (c : Chip) : Chip :=
  if !c.answers q then c.emit (.unsupported off)
  else
    let slot := off / 8
    let lost := match Cells.find? q.idx c.host.held with | some h => h.1 != slot | none => false
    (c.iff lost (Chip.bump F.hostdma_CNT_COUNT 1 1)).modHost (fun h => { h with
      held := Cells.insert q.idx (slot, v % 2 ^ 32) h.held })

/-- BAR0_HIGH_WRITE (R432, R433): the register is written from the held half of the same slot, or from 0. -/
def Chip.highWrite (q : Requester) (off v : Nat) (c : Chip) : Chip :=
  if !c.answers q then c.emit (.unsupported off)
  else
    let slot := off / 8
    let held := Cells.find? q.idx c.host.held
    let lost := match held with | some h => h.1 != slot | none => false
    let low := match held with | some h => if h.1 = slot then h.2 else 0 | none => 0
    let c := (c.iff lost (Chip.bump F.hostdma_CNT_COUNT 1 1)).modHost (fun h => { h with held := Cells.erase q.idx h.held })
    c.busWrite q (slot * 8) (wofNat (v % 16 * 2 ^ 32 + low))

/-- BAR0_LOW_READ (R432): the low half is read, with the effects of a read, and the high bits are latched; or the high half
returns the latched bits of its slot, else the register's present ones. -/
def Chip.halfRead (off : Nat) (high : Bool) (c : Chip) : Chip :=
  if !c.answers .pcie then c.emit (.unsupported off)
  else
    let slot := off / 8
    if high then
      let v := match c.host.highLatch with
        | some (s, b) => if s = slot then b else
          (match regAt (slot * 8) with | some (r, i, j) => wbits (c.peek .pcie r i j) 35 32 | none => 0)
        | none => (match regAt (slot * 8) with | some (r, i, j) => wbits (c.peek .pcie r i j) 35 32 | none => 0)
      c.emit (.readData .pcie (slot * 8 + 4) v)
    else
      let (v, c) := c.busRead .pcie (slot * 8)
      (c.modHost (fun h => { h with highLatch := some (slot, wbits v 35 32) })).emit (.readData .pcie (slot * 8) (wbits v 31 0))

/-- BAR0_BAD_ACCESS (R434): counted; a read returns zero data. -/
def Chip.badAccess (off : Nat) (write : Bool) (c : Chip) : Chip :=
  if !c.answers .pcie then c.emit (.unsupported off)
  else (c.bump F.hostdma_CNT_COUNT 1 0).iff (!write) (Chip.emit (.readData .pcie off 0))

/-! ## The BAR2 window -/

/-- The BAR2 window covers an offset (Table 17.4).
[DEDUCED, log entry 65: safe] -/
def Chip.inBar2 (c : Chip) (off : Nat) : Bool := decide (off < 2 ^ (c.fld F.hostdma_CFG_BAR2SIZE + 30))

/-- The DRAM word of a BAR2 offset (R435). -/
def Chip.bar2Word (c : Chip) (off : Nat) : Nat := c.fld F.hostdma_BAR2BASE_BASE * 16 + off / 8

/-- BAR2_READ (R435, R436): the word, or its halves; an error response returns zero with EP set.
[DEDUCED, log entry 65: safe] -/
def Chip.bar2Read (off : Nat) (part : SlotPart) (c : Chip) : Chip :=
  if !c.answers .pcie || !c.inBar2 off then c.emit (.unsupported off)
  else
    let a := c.bar2Word off
    let slot := off / 8
    let latched := match c.host.highLatch2 with | some (s, b) => if s = slot then some b else none | none => none
    match part, latched with
    | .high, some b => c.emit (.readData .pcie (slot * 8 + 4) b)
    | _, _ =>
      let c := c.readLog Src.BAR2 a 1
      if !c.burstOk (a / 16) then c.emit (.readPoisoned off)
      else
        let w := c.word a
        match part with
        | .whole => c.emit (.readData .pcie (slot * 8) w.toNat)
        | .low => (c.modHost (fun h => { h with highLatch2 := some (slot, wbits w 35 32) })).emit
            (.readData .pcie (slot * 8) (wbits w 31 0))
        | .high => c.emit (.readData .pcie (slot * 8 + 4) (wbits w 35 32))

/-- A word written through BAR2: a masked write of its burst; discarded in the descriptor table, in the flow table, and in a
burst answered with an error (R80, R325, R436). -/
def Chip.bar2Commit (a : Nat) (w : Word) (c : Chip) : Chip :=
  if c.inDescTable a 1 then c.bump F.chan_PROTVIOL_WRITES
  else if c.inFlowTable a 1 then c.bump F.flume_GCNT_COUNT 1 0
  else c.putWord a w Src.BAR2

/-- BAR2_WRITE (R435): halves follow R432 and R433 with their own held state.
[DEDUCED, log entry 65: safe] -/
def Chip.bar2Write (off : Nat) (part : SlotPart) (v : Nat) (c : Chip) : Chip :=
  if !c.answers .pcie || !c.inBar2 off then c.emit (.unsupported off)
  else
    let slot := off / 8
    let a := c.bar2Word off
    let other := match c.host.held2 with | some (s, _) => s != slot | none => false
    match part with
    | .low => (c.iff other (Chip.bump F.hostdma_CNT_COUNT 1 1)).modHost (fun h => { h with held2 := some (slot, v % 2 ^ 32) })
    | .high =>
      let low := match c.host.held2 with | some (s, b) => if s = slot then b else 0 | none => 0
      ((c.iff other (Chip.bump F.hostdma_CNT_COUNT 1 1)).modHost (fun h => { h with held2 := none })).bar2Commit a
        (wofNat (v % 16 * 2 ^ 32 + low))
    | .whole =>
      ((c.iff c.host.held2.isSome (Chip.bump F.hostdma_CNT_COUNT 1 1)).modHost (fun h => { h with held2 := none })).bar2Commit a
        (wofNat v)

/-! ## Writes of the image -/

/-- The status that a block answers an image write with (R515): OK where it carries none.
[DEDUCED, log entry 66: unsafe] -/
def Chip.imageWrite (off : Nat) (w : Word) (c : Chip) : Nat × Chip :=
  match regAt off with
  | none => (St.OK, c)
  | some (r, i, j) =>
    let c := match errField r i with
      | none => c
      | some (f, n) => if f.reg.info.perReq then c.putq .loader f 0 n else c.put f 0 n
    let c := c.regWrite .loader r i j w
    let last := match errField r i with
      | none => 0
      | some (f, n) => if f.reg.info.perReq then c.fldq .loader f n else c.fld f n
    let cmd := match r with
      | .chan_CMD => c.fldq .loader F.chan_CMDSTAT_STATUS
      | .flume_FCMD => c.fldq .loader F.flume_FCMDSTAT_STATUS
      | _ => 0
    (if last ≠ 0 then last else cmd, c)

end Sys2Proof.Machine
end

