-- ==== Sys2Proof/Machine/Encoding.lean ====
section
/-! DEFINITION. The instruction words of the cores: formats of Table 9.6 and the list of Table 9.7 (R245, R246). -/
namespace Sys2Proof.Machine

open Sys2Proof

/-- A field of an instruction word. -/
def opField (w hi lo : Nat) : Nat := nbits w hi lo

/-- The general register named in bits lo + 4 to lo. -/
def regField (w lo : Nat) : GReg := Fin.ofNat 32 (w / 2 ^ lo)

/-- The memory operand of format M. -/
def memField (w : Nat) : MemOp :=
  { upd := w.testBit 29, xa := Fin.ofNat 8 (w / 2 ^ 21), mode := Fin.ofNat 4 (w / 2 ^ 19), sz := Fin.ofNat 4 (w / 2 ^ 17)
    off := BitVec.ofNat 17 w }

/-- The word has S at 0, where its instruction does not take S (R246). -/
def plainS (w : Nat) (op : CoreOp) : Option CoreOp := if w.testBit 29 then none else some op

/-- Format R of OP 0x01 and the FN of its rows. -/
def decodeAlu (w : Nat) : Option CoreOp :=
  let s := w.testBit 29
  let rd := regField w 24
  let ra := regField w 19
  let rb := regField w 14
  let sh : Fin 64 := Fin.ofNat 64 (w / 4)
  if opField w 1 0 ≠ 0 then none
  else match opField w 13 8 with
  | 0x00 => some (.add s rd ra rb)
  | 0x01 => some (.sub s rd ra rb)
  | 0x02 => some (.neg s rd ra)
  | 0x03 => some (.abs s rd ra)
  | 0x04 => plainS w (.and rd ra rb)
  | 0x05 => plainS w (.or rd ra rb)
  | 0x06 => plainS w (.xor rd ra rb)
  | 0x07 => plainS w (.andn rd ra rb)
  | 0x08 => some (.shl s rd ra rb sh)
  | 0x09 => plainS w (.asr rd ra rb sh)
  | 0x0A => plainS w (.lsr rd ra rb sh)
  | 0x0B => plainS w (.asrr rd ra rb sh)
  | 0x0C => plainS w (.min rd ra rb)
  | 0x0D => plainS w (.max rd ra rb)
  | 0x0E => if rd.val = 0 then plainS w (.cmp ra rb) else none
  | 0x0F => plainS w (.cls rd ra)
  | 0x10 => plainS w (.brev rd ra sh)
  | 0x11 => some (.mulf s rd ra rb)
  | 0x12 => some (.muli s rd ra rb)
  | 0x13 => plainS w (.mulh rd ra rb)
  | _ => none

/-- Format A of OP 0x10. -/
def decodeAcc (w : Nat) : Option CoreOp :=
  let s := w.testBit 29
  let ad : AReg := Fin.ofNat 4 (w / 2 ^ 27)
  let as_ : AReg := Fin.ofNat 4 (w / 2 ^ 25)
  let ra := regField w 19
  let rb := regField w 14
  let part : Fin 4 := Fin.ofNat 4 (w / 4)
  if opField w 24 24 ≠ 0 ∨ opField w 1 0 ≠ 0 then none
  else match opField w 13 8 with
  | 0x00 => some (.mac s ad ra rb)
  | 0x01 => some (.msu s ad ra rb)
  | 0x02 => some (.mpy s ad ra rb)
  | 0x03 => plainS w (.clra ad)
  | 0x04 => some (.accr s ad ra (BitVec.ofNat 6 (w / 4)))
  | 0x05 => plainS w (.accw ad rb)
  | 0x06 => some (.adda s ad as_)
  | 0x07 => plainS w (.aget ad ra part)
  | 0x08 => plainS w (.aput ad rb part)
  | _ => none

/-- MOVX of OP 0x20: RB names Xk. -/
def decodeMovx (w : Nat) : Option CoreOp :=
  let rd := regField w 24
  let ra := regField w 19
  let x : XReg := Fin.ofNat 8 (w / 2 ^ 14)
  if opField w 18 17 ≠ 0 ∨ opField w 1 0 ≠ 0 then none
  else match opField w 13 8 with
  | 0x00 => plainS w (.setX x ra)
  | 0x01 => plainS w (.getX rd x)
  | 0x02 => plainS w (.setXB x ra)
  | 0x03 => plainS w (.getXB rd x)
  | 0x04 => plainS w (.setXL x ra)
  | 0x05 => plainS w (.getXL rd x)
  | 0x06 => plainS w (.setTcr ra)
  | 0x07 => plainS w (.getTcr rd)
  | _ => none

/-- Format E, by OP and FN; a row without FN has it at 0.
[DEDUCED, log entry 50: unsafe] -/
def decodeEngine (op w : Nat) : Option CoreOp :=
  let fn := opField w 29 24
  let rd := regField w 19
  let ra := regField w 14
  let rb := regField w 9
  let imm := opField w 8 0
  match op, fn with
  | 0x28, 0 => some .take
  | 0x29, 0 => some (.spawn ra)
  | 0x2A, 0 => if imm < 2 then some (.push ra rb (imm == 1)) else none
  | 0x2B, 0 => if imm < 2 then some (.pop rd rb) else none
  | 0x2C, 0 => if imm < 2 then some (.dropRest rd rb) else none
  | 0x2C, 1 => if imm < 2 then some (.chcCount rd rb) else none
  | 0x2C, 2 => if imm < 2 then some (.chcPkts rd rb) else none
  | 0x2D, 0 => some (.dmovIn ra rb (BitVec.ofNat 8 imm))
  | 0x2D, 1 => some (.dmovOut ra rb (BitVec.ofNat 8 imm))
  | 0x2E, 0 => some (.kreq ra rb)
  | 0x2F, 0 => some (.bsub rd ra (Fin.ofNat 4 imm))
  | 0x30, 0 => some (.mxadd ra rb (Fin.ofNat 16 imm))
  | 0x31, 0 => some (.mxrd ra rb (Fin.ofNat 16 imm))
  | 0x32, 0 => some (.txp ra)
  | 0x33, 0 => some .waite
  | 0x34, 0 => some (.rdtMt rd)
  | 0x34, 1 => some (.rdtSubtick rd)
  | 0x34, 2 => some (.rdtNs rd)
  | 0x34, 3 => some (.rdtCount rd)
  | 0x38, 0 => some (.rgr rd ra)
  | 0x39, 0 => some (.rgw ra rb)
  | 0x3A, 0 => some .reti
  | 0x3B, 0 => some .trap
  | 0x3C, 0 => some .wfi
  | _, _ => none

/-- The instruction that a 36-bit word is (R245, R246); none where it is one that raises ILLEGAL by its word alone.
[DEDUCED, log entry 50: unsafe] -/
def decodeSlot (w : Nat) : Option CoreOp :=
  let s := w.testBit 29
  let rd := regField w 24
  let ra := regField w 19
  let imm : BitVec 19 := BitVec.ofNat 19 w
  match opField w 35 30 with
  | 0x00 => if w = 0 then some .nop else none
  | 0x01 => decodeAlu w
  | 0x02 => some (.addi s rd ra imm)
  | 0x03 => plainS w (.andi rd ra imm)
  | 0x04 => plainS w (.ori rd ra imm)
  | 0x05 => if ra.val = 0 then plainS w (.lui rd imm) else none
  | 0x06 => if rd.val = 0 then plainS w (.cmpi ra imm) else none
  | 0x08 => some (.ld rd (memField w))
  | 0x09 => some (.st rd (memField w))
  | 0x0A => plainS w (.ldp rd ra imm)
  | 0x0B => plainS w (.ldpl rd ra imm)
  | 0x10 => decodeAcc w
  | 0x11 => if opField w 26 24 ≠ 0 ∨ opField w 18 0 ≠ 0 then none
    else some (.tapm s (Fin.ofNat 4 (w / 2 ^ 27)) (Fin.ofNat 8 (w / 2 ^ 21)) (Fin.ofNat 4 (w / 2 ^ 19)))
  | 0x18 => if opField w 24 18 ≠ 0 then none
    else some (.br (Fin.ofNat 16 (w / 2 ^ 26)) (w.testBit 25) (BitVec.ofNat 18 w))
  | 0x19 => if opField w 13 8 ≠ 0 ∨ opField w 1 0 ≠ 0 then none else plainS w (.jr rd ra)
  | 0x1A =>
    let body : Fin 16384 := Fin.ofNat 16384 w
    let lv : Fin 2 := Fin.ofNat 2 (w / 2 ^ 28)
    if s then (if opField w 22 14 ≠ 0 then none else some (.loop lv (some (regField w 23)) 0 body))
    else some (.loop lv none (Fin.ofNat 16384 (w / 2 ^ 14)) body)
  | 0x20 => decodeMovx w
  | 0x21 => plainS w (.csrr rd imm)
  | 0x22 => plainS w (.csrw ra imm)
  | op => decodeEngine op w

end Sys2Proof.Machine
end

