-- ==== Sys2Proof/Machine/Flags.lean ====
section
/-! DEFINITION. Results and flags of core instructions (R248 to R250): the exact result written to a destination of
36 or 80 bits, and the bits of FLAGS that it sets. -/
namespace Sys2Proof.Machine

open Sys2Proof

/-- Bits of FLAGS (Table 9.5): zero. -/
def Fg.Z : Nat := 0
/-- Negative. -/
def Fg.N : Nat := 1
/-- Overflow. -/
def Fg.V : Nat := 2
/-- Empty. -/
def Fg.E : Nat := 3
/-- End. -/
def Fg.T : Nat := 4
/-- Gap. -/
def Fg.P : Nat := 5
/-- Engine error. -/
def Fg.EF : Nat := 6
/-- Sticky saturation. -/
def Fg.SAT : Nat := 7
/-- Custom mode. -/
def Fg.CF : Nat := 8
/-- Carry. -/
def Fg.C : Nat := 9

/-- A result as written to its destination, and the flags it sets. -/
structure Res where
  val : Nat
  flags : List (Nat × Bool)
  deriving DecidableEq, Repr

/-- The exact result fits in `w` bits as a signed value (R248). -/
def fits (w : Nat) (r : Int) : Bool := decide (-(2 ^ (w - 1) : Nat) ≤ r ∧ r < (2 ^ (w - 1) : Nat))

/-- The `w`-bit pattern that the S rule writes for an exact result (R248). -/
def ruleS (w : Nat) (s : Bool) (r : Int) : Nat := unsignedOf w (if s && !fits w r then satN w r else r)

/-- Z and N of a `w`-bit pattern (R250).
[DEDUCED, log entry 51: unsafe] -/
def znFlags (w v : Nat) : List (Nat × Bool) := [(Fg.Z, v == 0), (Fg.N, v.testBit (w - 1))]

/-- An arithmetic result (R248, R250): Z and N from what is written, V where the exact result does not fit, SAT where it
is saturated.
[DEDUCED, log entry 51: unsafe] -/
def arith (w : Nat) (s : Bool) (r : Int) : Res :=
  let v := ruleS w s r
  { val := v, flags := znFlags w v ++ [(Fg.V, !fits w r)] ++ (if s && !fits w r then [(Fg.SAT, true)] else []) }

/-- A logical result: Z and N, V cleared, C unchanged (R250).
[DEDUCED, log entry 51: unsafe] -/
def logic (v : Nat) : Res := { val := v, flags := znFlags 36 v ++ [(Fg.V, false)] }

/-- A result with C added. -/
def Res.withC (b : Bool) (r : Res) : Res := { r with flags := r.flags ++ [(Fg.C, b)] }

/-- The carry of an unsigned sum of two words (R250). -/
def carryAdd (a b : Nat) : Bool := decide (2 ^ 36 ≤ a + b)

/-- The carry of an unsigned difference of two words (R250); the sense of the borrow is not given.
[DESIGN CHOICE, log entry 45: safe] -/
def carrySub (isBorrow : Bool) (a b : Nat) : Bool := if isBorrow then decide (a < b) else decide (b ≤ a)

/-- Flags of a comparison (R250): Z and V of the difference, and N, which is the sign of the exact difference or of the
difference modulo 2^36.
[DESIGN CHOICE, log entry 46: safe] -/
def compare36 (exact : Bool) (a b : Int) : List (Nat × Bool) :=
  let d := a - b
  [(Fg.Z, d == 0), (Fg.N, if exact then decide (d < 0) else (unsignedOf 36 d).testBit 35), (Fg.V, !fits 36 d)]

/-- Flag bits changed. -/
def putFlags (l : List (Nat × Bool)) (f : Nat) : Nat := l.foldl (fun f p => nput f p.1 p.1 (b2n p.2)) f

/-- A branch condition of Table 9.8 over FLAGS; 0xF is ILLEGAL. -/
def condHolds (cond f : Nat) : Bool :=
  let z := f.testBit 0; let n := f.testBit 1
  match cond with
  | 0 => true
  | 1 => z
  | 2 => !z
  | 3 => n
  | 4 => !n
  | 5 => !z && !n
  | 6 => z || n
  | 7 => f.testBit 2
  | 8 => f.testBit 3
  | 9 => !f.testBit 3
  | 10 => f.testBit 4
  | 11 => f.testBit 5
  | 12 => f.testBit 6
  | 13 => f.testBit 9
  | 14 => !f.testBit 9
  | _ => false

end Sys2Proof.Machine
end

