-- ==== Sys2Proof/Machine/Operands.lean ====
section
/-! DEFINITION. Operand forms of core instructions: registers (R240), addresses and their updates (R241), memory access
sizes (R245), program memory (R235), local ranges of engine instructions (R254). -/
namespace Sys2Proof.Machine

open Sys2Proof

/-- A general register: G0 reads as zero (R240). -/
def CoreSt.rg (s : CoreSt) (r : GReg) : Word := if r.val = 0 then 0 else Cells.get 0 r.val s.g

/-- A general register by number. -/
def CoreSt.rgn (s : CoreSt) (n : Nat) : Word := if n % 32 = 0 then 0 else Cells.get 0 (n % 32) s.g

/-- G20 to G26, which a custom function leaves as it found them (R270). -/
def CoreSt.heldG (s : CoreSt) : List Word := (List.range 7).map (fun i => s.rgn (20 + i))

/-- X6 and X7, which a custom function leaves as it found them (R270). -/
def CoreSt.heldX (s : CoreSt) : List Nat := [Cells.get 0 6 s.x, Cells.get 0 7 s.x]

/-- A general register written: a write to G0 is discarded (R240). -/
def CoreSt.wg (n : Nat) (w : Word) (s : CoreSt) : CoreSt :=
  if n % 32 = 0 then s else { s with g := Cells.set 0 (n % 32) w s.g }

/-- The signed value of a general register. -/
def CoreSt.sg (s : CoreSt) (r : GReg) : Int := signed 36 (s.rg r).toNat

/-- The signed value of an accumulator. -/
def CoreSt.sa (s : CoreSt) (a : AReg) : Int := signed 80 (Cells.get 0 a.val s.acc).toNat

/-- An address register Xn. -/
def CoreSt.rx (s : CoreSt) (x : XReg) : Nat := Cells.get 0 x.val s.x
/-- A base register XBn. -/
def CoreSt.rxb (s : CoreSt) (x : XReg) : Nat := Cells.get 0 x.val s.xb
/-- A length register XLn. -/
def CoreSt.rxl (s : CoreSt) (x : XReg) : Nat := Cells.get 0 x.val s.xl

/-- The bits `[n-1:0]` of a number in reverse order. -/
def reverseBits (n v : Nat) : Nat := (List.range n).foldl (fun a i => 2 * a + b2n (v.testBit i)) 0

/-- The size of a power of two from 2 to 65,536 as its exponent, none otherwise (R241). -/
def log2Of (v : Nat) : Option Nat := (List.range' 1 16).find? (fun n => 2 ^ n = v)

/-- Xn after an access that updates it by `off` under MODE, none where the mode's registers do not permit it (R241). -/
def CoreSt.stepX (s : CoreSt) (x : XReg) (mode : Nat) (off : Int) : Option Nat :=
  let d : Int := (s.rx x : Int) - (s.rxb x : Int)
  let l := s.rxl x
  match mode with
  | 0 => some (unsignedOf 16 ((s.rx x : Int) + off))
  | 1 => if l = 0 then none else some (unsignedOf 16 ((s.rxb x : Int) + (d + off) % (l : Int)))
  | _ => match log2Of l with
    | none => none
    | some n => if s.rxb x % l ≠ 0 then none
      else
        let o := (d % (l : Int)).toNat
        let m := (((reverseBits n o : Nat) : Int) + off) % (l : Int)
        some ((s.rxb x + reverseBits n m.toNat) % 65536)

/-- Signed OFF of an access. -/
def memOffset (m : MemOp) : Int := signed 17 m.off.toNat

/-- Words of an access by SZ (R245). -/
def memWords (m : MemOp) : Nat := if m.sz.val = 0 then 1 else if m.sz.val = 1 then 2 else 8

/-- EA of an access (R241). -/
def CoreSt.ea (s : CoreSt) (m : MemOp) : Nat :=
  if m.upd then s.rx m.xa else unsignedOf 16 ((s.rx m.xa : Int) + memOffset m)

/-- The access is not one that Table 9.6 or R241 permits: MODE, SZ, or the register number for its size. -/
def memIllegal (m : MemOp) (r : GReg) : Bool :=
  decide (m.sz.val = 3 ∨ m.mode.val = 3 ∨ (m.upd = false ∧ m.mode.val ≠ 0) ∨ r.val % memWords m ≠ 0)

/-- A word of a channel core's local memory lies in the staging buffer that is not current (R239). -/
def CoreSt.otherBuf (s : CoreSt) (k a : Nat) : Bool :=
  isChannelCore k && decide (0xC000 ≤ a ∧ (a - 0xC000) / 0x2000 ≠ s.buf)

/-- Words 0 to 31 of the current staging buffer (R270). -/
def CoreSt.inHeader (s : CoreSt) (a n : Nat) : Bool := decide (a < bufBase s.buf + 32 ∧ bufBase s.buf < a + n)

/-- Exceptions of an access of `n` words at `a`, updating Xn or not (R239, R241, R270). -/
def CoreSt.accessCauses (s : CoreSt) (k a n : Nat) (store : Bool) (x : XReg) (upd : Bool) (mode : Nat) (off : Int) :
    List Nat :=
  (if a % n ≠ 0 ∨ (upd ∧ (s.stepX x mode off).isNone) then [Ex.ADDRESS] else []) ++
  (if s.otherBuf k a ∨ (store ∧ s.custom k ∧ s.inHeader a n) then [Ex.PROTECT] else [])

/-- A local range of an engine instruction lies wholly in the working memory or in the current staging buffer (R254); a
control core has working memory alone (R239). -/
def CoreSt.rangeOk (s : CoreSt) (k a n : Nat) : Bool :=
  if isChannelCore k then
    decide (a + n ≤ 0xC000 ∨ (bufBase s.buf ≤ a ∧ a + n ≤ bufBase s.buf + 0x2000))
  else decide (a + n ≤ 65536)

/-- PROTECT of R254 for a local range. -/
def CoreSt.rangeCauses (s : CoreSt) (k a n : Nat) : List Nat := if s.rangeOk k a n then [] else [Ex.PROTECT]

/-- The local address that a register names (R254). -/
def CoreSt.localOf (s : CoreSt) (r : GReg) : Nat := wbits (s.rg r) 15 0

/-- A program word that a core reads (R235): program memory below 0x4_0000, the library ROM above it.
[DESIGN CHOICE, log entry 8: safe] -/
def Chip.progRead (c : Chip) (k a : Nat) : Word :=
  if a < 0x40000 then
    let mem := if isChannelCore k then k / 8 else 12
    match Cells.find? (mem * 2 ^ 18 + a) c.boot.prog with
    | some w => w
    | none => Config.progWord mem a
  else Config.romWord (if isChannelCore k then a else 2 ^ 19 + a)

/-- The program memory of a core: its cluster's, or the control program memory (R234). -/
def progMem (k : Nat) : Nat := if isChannelCore k then k / 8 else 12

/-- Words of a core's program memory or library ROM hold an uncorrectable error (R236). -/
def Chip.badProg (c : Chip) (k a n : Nat) : Bool :=
  (List.range n).any (fun i => c.upset (.progWord (progMem k) (a + i)))

/-- Words of a core's local memory hold an uncorrectable error (R239). -/
def Chip.badLocal (c : Chip) (k a n : Nat) : Bool :=
  (List.range n).any (fun i => c.upset (.localWord k ((a + i) % 65536)))

/-- UNCORR of local words that a core reads (R239). -/
def Chip.localCauses (c : Chip) (k a n : Nat) : List Nat := if c.badLocal k a n then [Ex.UNCORR] else []

/-- The address that a core fetches its bundle from: a patch's in the place of the ROM bundle that it names (R268). -/
def Chip.fetchAt (c : Chip) (k : Nat) : Nat :=
  let pc := (c.core k).pc
  match List.find? (fun p => isChannelCore k && p.1 == pc) c.boot.patches with
  | some p => p.2
  | none => pc

/-- The bundle that a core fetches, where the image has written it: the words of slots L and H (R242). -/
def Chip.fetched (c : Chip) (k : Nat) : Option (Word × Word) :=
  let a := c.fetchAt k
  if 0x40000 ≤ a then none
  else match Cells.find? (progMem k * 2 ^ 18 + a) c.boot.prog, Cells.find? (progMem k * 2 ^ 18 + a + 1) c.boot.prog with
    | some l, some h => some (l, h)
    | _, _ => none

/-- Exceptions of a fetch (R236, R245): a word that is uncorrectable, or that is no instruction. -/
def Chip.fetchCauses (c : Chip) (k : Nat) : List Nat :=
  if c.badProg k (c.fetchAt k) 2 then [Ex.UNCORR]
  else match c.fetched k with
    | some (l, h) => if (decodeSlot l.toNat).isNone || (decodeSlot h.toNat).isNone then [Ex.ILLEGAL] else []
    | none => []

/-- A bundle is the one that stands at the core's program address, as far as the image has written it.
[DESIGN CHOICE, log entry 8: safe] -/
def Chip.stands (c : Chip) (k : Nat) (op mate : CoreOp) : Bool :=
  match c.fetched k with
  | none => true
  | some (l, h) => (decodeSlot l.toNat, decodeSlot h.toNat) == (some op, some mate) ||
      (decodeSlot l.toNat, decodeSlot h.toNat) == (some mate, some op)

/-- The program address of LDP and LDPL: RA + IMM, IMM signed.
[DEDUCED, log entry 55: unsafe] -/
def CoreSt.progAddr (s : CoreSt) (ra : GReg) (imm : BitVec 19) : Nat :=
  unsignedOf 36 ((s.rg ra).toNat + signed 19 imm.toNat)

/-- Bundle address after the current one. -/
def CoreSt.nextPc (s : CoreSt) : Nat := (s.pc + 2) % 2 ^ 19

/-- The innermost active loop that a bundle is the last of (R247). -/
def CoreSt.lastOf (s : CoreSt) : Bool :=
  (match s.loop0 with | some l => l.last == s.pc | none => false) ||
  (match s.loop1 with | some l => l.last == s.pc | none => false)

/-- Iterations left as LC0 and LC1 show them (Table 9.5).
[DESIGN CHOICE, log entry 47: safe] -/
def loopLeft : Option LoopSt → Nat
  | none => 0
  | some l => if Config.loopCountsCurrent then l.left else l.left - 1

/-- A free count of core cycles since TAKE last returned: the core's clock is at most 1,500 MHz and at least 600 MHz where
COUNT runs at 1,250 MHz (R233, R494, Table 9.5).
[DESIGN CHOICE, log entry 48: safe] -/
def Chip.itemCycles (c : Chip) (k : Nat) : Nat × Chip :=
  let e := c.count - (c.core k).takeAt
  let (n, c) := c.drawNat
  let low := e * 600 / 1250
  let high := e * 1500 / 1250
  (low + n % (high - low + 1), c)

/-- FLAGS as CSRR reads it: CF is computed (R270). -/
def CoreSt.flagsWord (s : CoreSt) (k : Nat) : Nat := nput s.flags 8 8 (b2n (s.custom k))

/-- A control register other than ITEMCYC as CSRR reads it (Tables 9.5, 9.13); a number in neither table reads 0.
[DEDUCED, log entry 43: unsafe] -/
def CoreSt.readCr (s : CoreSt) (k cr : Nat) : Nat :=
  match cr with
  | 0x00 => s.flagsWord k
  | 0x01 => loopLeft s.loop0
  | 0x02 => loopLeft s.loop1
  | 0x04 => k
  | 0x10 => b2n s.sup * 2 + b2n s.ie
  | 0x11 => s.epc
  | 0x12 => s.ecause
  | 0x13 => s.ivec
  | 0x14 => s.imask
  | 0x15 => s.ipend
  | 0x16 => s.tcmp
  | n => if 0x18 ≤ n ∧ n < 0x20 then (Cells.get 0 (n - 0x18) s.win).toNat else 0

/-- A control register as CSRW writes it (Tables 9.5, 9.13); a write to any other number is ignored.
[DEDUCED, log entry 43: unsafe] [DEDUCED, log entry 44: unsafe] -/
def CoreSt.writeCr (cr : Nat) (w : Word) (s : CoreSt) : CoreSt :=
  match cr with
  | 0x00 => { s with flags := nput (nput s.flags 9 9 (wbits w 9 9)) 7 0 (wbits w 7 0) }
  | 0x10 => { s with sup := wbit w 1, ie := wbit w 0 }
  | 0x11 => { s with epc := wbits w 18 0 }
  | 0x13 => { s with ivec := wbits w 18 0 / 256 * 256 }
  | 0x14 => { s with imask := wbits w 7 0 }
  | 0x15 => { s with ipend := s.ipend - (s.ipend &&& wbits w 7 0) }
  | 0x16 => { s with tcmp := w.toNat, tarmed := true }
  | n => if 0x18 ≤ n ∧ n < 0x20 then { s with win := Cells.set 0 (n - 0x18) w s.win } else s

/-- A DRAM range of bursts lies wholly inside one user window (R264, Table 9.13). -/
def CoreSt.inWindow (s : CoreSt) (b n : Nat) : Bool :=
  (List.range 8).any (fun i =>
    let w := Cells.get 0 i s.win
    decide (wbits w 35 18 * 65536 ≤ b ∧ b + n ≤ (wbits w 35 18 + wbits w 17 0) * 65536))

/-- A control core in user mode. -/
def CoreSt.user (s : CoreSt) (k : Nat) : Bool := !isChannelCore k && !s.sup

end Sys2Proof.Machine
end

