-- ==== Sys2Proof/Machine/Effect.lean ====
section
/-! DEFINITION. What each core instruction writes at the end of its bundle (R246 to R253), when its form raises an
exception (R260), and which registers and classes R243 compares. Scheduler, chute, engine and system instructions act on
the rest of the device beside this; those acts are in Engine.lean. -/
namespace Sys2Proof.Machine

open Sys2Proof

/-- Everything that an instruction writes in its own core. -/
structure Eff where
  g : List (Nat × Word) := []
  acc : List (Nat × AccWord) := []
  x : List (Nat × Nat) := []
  xb : List (Nat × Nat) := []
  xl : List (Nat × Nat) := []
  tcr : Option Word := none
  flags : List (Nat × Bool) := []
  /-- A control register written. -/
  cr : Option (Nat × Word) := none
  /-- Local words written. -/
  mem : List (Nat × Word) := []
  /-- The target of a taken branch. -/
  jump : Option Nat := none
  /-- Where execution goes on after a LOOP with a count of 0. -/
  skip : Option Nat := none
  /-- A hardware loop started: its level and its state. -/
  loop : Option (Nat × LoopSt) := none
  deriving DecidableEq, Repr

/-- A general register receives a result and the flags change with it. -/
def Eff.res (rd : GReg) (r : Res) : Eff := { g := [(rd.val, BitVec.ofNat 36 r.val)], flags := r.flags }

/-- A general register receives a word; no flag changes. -/
def Eff.reg (rd : GReg) (w : Word) : Eff := { g := [(rd.val, w)] }

/-- An accumulator receives a result and the flags change with it. -/
def Eff.accRes (ad : AReg) (r : Res) : Eff := { acc := [(ad.val, BitVec.ofNat 80 r.val)], flags := r.flags }

/-- An accumulator receives a value; no flag changes. -/
def Eff.accVal (ad : AReg) (v : Int) : Eff := { acc := [(ad.val, BitVec.ofInt 80 v)] }

/-- The amount of an R-format shift (R245). -/
def CoreSt.shiftBy (s : CoreSt) (rb : GReg) (sh : Fin 64) : Nat := min 63 (wbits (s.rg rb) 5 0 + sh.val)

/-- Leading sign bits beyond bit 35 (Table 9.7, CLS). -/
def signBits (w : Word) : Nat :=
  let top := wbit w 35
  ((List.range 35).findIdx? (fun i => wbit w (34 - i) != top)).getD 35

/-- Sign-extended immediate of format I. -/
def simm (imm : BitVec 19) : Int := signed 19 imm.toNat

/-- Xn after an access, where the access updates it. -/
def CoreSt.stepped (s : CoreSt) (m : MemOp) : List (Nat × Nat) :=
  if m.upd then [(m.xa.val, (s.stepX m.xa m.mode.val (memOffset m)).getD 0)] else []

/-- Words of local memory as a core reads them. -/
def Chip.loadWords (c : Chip) (k a n : Nat) : List Word := c.localWords k a n

/-- The count of a LOOP: an immediate, or a register, where 2^35 and above count as 0 (R247). -/
def CoreSt.loopCount (s : CoreSt) (reg : Option GReg) (cnt : Fin 16384) : Nat :=
  match reg with
  | none => cnt.val
  | some r => let v := (s.rg r).toNat; if 2 ^ 35 ≤ v then 0 else v

/-- TAPM (R252): one line computed and moved by one sample. -/
def Chip.tapEff (c : Chip) (k : Nat) (st : CoreSt) (s : Bool) (ad : AReg) (xa : XReg) (mode : Fin 4) : Eff :=
  let a := st.rx xa
  let line := c.loadWords k a 8
  let w (i : Nat) : Word := line.getD i 0
  let v (x : Word) : Int := signed 36 x.toNat
  let sum := st.sa ad + v (w 0) * v st.tcr + v (w 2) * v (w 1) + v (w 4) * v (w 3) + v (w 6) * v (w 5)
  { Eff.accRes ad (arith 80 s sum) with
    tcr := some (w 7)
    mem := [(a + 1, st.tcr), (a + 3, w 1), (a + 5, w 3), (a + 7, w 5)]
    x := [(xa.val, (st.stepX xa mode.val 8).getD 0)] }

/-- What an instruction of core `k` in state `s` writes in its own core, where no exception ends its bundle. `draw` is the
number of a free draw, for a result that the spec does not state.
[DESIGN CHOICE, log entry 49: safe] [DEDUCED, log entry 51: unsafe] -/
def Chip.coreEff (c : Chip) (k : Nat) (s : CoreSt) (draw : Nat) : CoreOp → Eff
  | .nop => {}
  | .add sb rd ra rb =>
    .res rd ((arith 36 sb (s.sg ra + s.sg rb)).withC (carryAdd (s.rg ra).toNat (s.rg rb).toNat))
  | .sub sb rd ra rb =>
    .res rd ((arith 36 sb (s.sg ra - s.sg rb)).withC (carrySub Config.carryIsBorrow (s.rg ra).toNat (s.rg rb).toNat))
  | .neg sb rd ra => .res rd (arith 36 sb (-(s.sg ra)))
  | .abs sb rd ra => .res rd (arith 36 sb ((s.sg ra).natAbs : Int))
  | .and rd ra rb => .res rd (logic (s.rg ra &&& s.rg rb).toNat)
  | .or rd ra rb => .res rd (logic (s.rg ra ||| s.rg rb).toNat)
  | .xor rd ra rb => .res rd (logic (s.rg ra ^^^ s.rg rb).toNat)
  | .andn rd ra rb => .res rd (logic (s.rg ra &&& ~~~ s.rg rb).toNat)
  | .shl sb rd ra rb sh => .res rd (arith 36 sb (s.sg ra * (2 ^ s.shiftBy rb sh : Nat)))
  | .asr rd ra rb sh => .res rd (arith 36 false (s.sg ra / (2 ^ s.shiftBy rb sh : Nat)))
  | .lsr rd ra rb sh => .res rd (logic ((s.rg ra).toNat / 2 ^ s.shiftBy rb sh))
  | .asrr rd ra rb sh => .res rd (arith 36 false (roundShift (s.shiftBy rb sh) (s.sg ra)))
  | .min rd ra rb => .res rd (arith 36 false (min (s.sg ra) (s.sg rb)))
  | .max rd ra rb => .res rd (arith 36 false (max (s.sg ra) (s.sg rb)))
  | .cmp ra rb => { flags := compare36 Config.compareExact (s.sg ra) (s.sg rb) }
  | .cls rd ra => .res rd (arith 36 false (signBits (s.rg ra)))
  | .brev rd ra sh =>
    .res rd (logic (if 36 < sh.val then Config.freeNat draw % 2 ^ 36 else reverseBits sh.val (s.rg ra).toNat))
  | .mulf sb rd ra rb => .res rd (arith 36 sb (roundShift 32 (s.sg ra * s.sg rb)))
  | .muli sb rd ra rb => .res rd (arith 36 sb (s.sg ra * s.sg rb))
  | .mulh rd ra rb => .res rd (arith 36 false (s.sg ra * s.sg rb / (2 ^ 36 : Nat)))
  | .addi sb rd ra imm =>
    .res rd ((arith 36 sb (s.sg ra + simm imm)).withC (carryAdd (s.rg ra).toNat (unsignedOf 36 (simm imm))))
  | .andi rd ra imm => .res rd (logic (s.rg ra &&& BitVec.ofNat 36 imm.toNat).toNat)
  | .ori rd ra imm => .res rd (logic (s.rg ra ||| BitVec.ofNat 36 imm.toNat).toNat)
  | .lui rd imm => .res rd (logic (imm.toNat * 2 ^ 17))
  | .cmpi ra imm => { flags := compare36 Config.compareExact (s.sg ra) (simm imm) ++
      [(Fg.C, carrySub Config.carryIsBorrow (s.rg ra).toNat (unsignedOf 36 (simm imm)))] }
  | .ld rd m => { g := ((c.loadWords k (s.ea m) (memWords m)).zipIdx).map (fun p => (rd.val + p.2, p.1)), x := s.stepped m }
  | .st rs m => { mem := (List.range (memWords m)).map (fun i => (s.ea m + i, s.rgn (rs.val + i))), x := s.stepped m }
  | .ldp rd ra imm => .reg rd (c.progRead k (s.progAddr ra imm))
  | .ldpl rd ra imm => { g := (List.range 8).map (fun i => (rd.val + i, c.progRead k (s.progAddr ra imm + i))) }
  | .mac sb ad ra rb => .accRes ad (arith 80 sb (s.sa ad + s.sg ra * s.sg rb))
  | .msu sb ad ra rb => .accRes ad (arith 80 sb (s.sa ad - s.sg ra * s.sg rb))
  | .mpy sb ad ra rb => .accRes ad (arith 80 sb (s.sg ra * s.sg rb))
  | .clra ad => .accVal ad 0
  | .accr sb ad ra sh =>
    let e := signed 6 sh.toNat
    .res ra (arith 36 sb (roundShift (32 - e).toNat (s.sa ad)))
  | .accw ad rb => .accVal ad (s.sg rb * (2 ^ 32 : Nat))
  | .adda sb ad asrc => .accRes ad (arith 80 sb (s.sa ad + s.sa asrc))
  | .aget ad ra part =>
    let v := (Cells.get 0 ad.val s.acc).toNat
    .reg ra (if part.val = 0 then wofNat (nbits v 35 0) else if part.val = 1 then wofNat (nbits v 71 36)
      else wofInt (signed 8 (nbits v 79 72)))
  | .aput ad rb part =>
    let v := (Cells.get 0 ad.val s.acc).toNat
    let w := (s.rg rb).toNat
    { acc := [(ad.val, BitVec.ofNat 80 (if part.val = 0 then nput v 35 0 w else if part.val = 1 then nput v 71 36 w
      else nput v 79 72 w))] }
  | .tapm sb ad xa mode => c.tapEff k s sb ad xa mode
  | .br cond link off =>
    { g := if link then [(27, wofNat s.nextPc)] else []
      jump := if condHolds cond.val (s.flagsWord k) then some (unsignedOf 19 ((s.pc : Int) + 2 + 2 * signed 18 off.toNat))
        else none }
  | .jr rd ra =>
    { g := if rd.val = 0 then [] else [(rd.val, wofNat s.nextPc)], jump := some (wbits (s.rg ra) 18 0) }
  | .loop lv reg cnt body =>
    let n := s.loopCount reg cnt
    if n = 0 then { skip := some ((s.pc + 2 + 2 * body.val) % 2 ^ 19) }
    else { loop := some (lv.val, { first := s.pc + 2, last := s.pc + 2 * body.val, left := n }) }
  | .setX x ra => { x := [(x.val, wbits (s.rg ra) 15 0)] }
  | .getX rd x => .reg rd (wofNat (s.rx x))
  | .setXB x ra => { xb := [(x.val, wbits (s.rg ra) 15 0)] }
  | .getXB rd x => .reg rd (wofNat (s.rxb x))
  | .setXL x ra => { xl := [(x.val, wbits (s.rg ra) 16 0)] }
  | .getXL rd x => .reg rd (wofNat (s.rxl x))
  | .setTcr ra => { tcr := some (s.rg ra) }
  | .getTcr rd => .reg rd s.tcr
  | .csrr rd cr => if cr.toNat = 3 ∧ isChannelCore k then {} else .reg rd (wofNat (s.readCr k cr.toNat))
  | .csrw ra cr => { cr := some (cr.toNat, s.rg ra) }
  | .rdtMt rd => .reg rd (wofNat c.mt)
  | .rdtSubtick rd => .reg rd (wofNat c.subtick)
  | .rdtNs rd => .reg rd (wofNat (launchForm c.now))
  | .rdtCount rd => .reg rd (wofNat c.count)
  | .take => {}
  | .spawn _ => {}
  | .push _ _ _ => {}
  | .pop _ _ => {}
  | .dropRest _ _ => {}
  | .chcCount _ _ => {}
  | .chcPkts _ _ => {}
  | .dmovIn _ _ _ => {}
  | .dmovOut _ _ _ => {}
  | .kreq _ _ => {}
  | .bsub _ _ _ => {}
  | .mxadd _ _ _ => {}
  | .mxrd _ _ _ => {}
  | .txp _ => {}
  | .waite => {}
  | .rgr _ _ => {}
  | .rgw _ _ => {}
  | .reti => {}
  | .trap => {}
  | .wfi => {}

/-! ## Exceptions -/

/-- Exceptions of a chute instruction (R257): the number that RB names, and whether the event chute permits it. -/
def CoreSt.chuteCauses (s : CoreSt) (k : Nat) (rb : GReg) (evtOk : Bool) : List Nat :=
  let v := (s.rg rb).toNat
  if v.testBit 11 then (if isChannelCore k || !evtOk || nbits v 10 0 ≠ 0 then [Ex.PROTECT] else []) else []

/-- Exceptions of a DMOV (R254, R258, R264). -/
def Chip.dmovCauses (c : Chip) (k : Nat) (s : CoreSt) (ra rb : GReg) (n : BitVec 8) : List Nat :=
  let n := n.toNat
  let a := s.localOf ra
  let b := wbits (s.rg rb) 33 0
  if n = 0 then []
  else (if a % 16 ≠ 0 ∨ c.dramBursts < b + n then [Ex.ADDRESS] else []) ++ s.rangeCauses k a (16 * n) ++
    (if s.user k ∧ ¬ s.inWindow b n then [Ex.PROTECT] else [])

/-- A request block's four words (R258, KREQ). -/
def Chip.kreqBlock (c : Chip) (k : Nat) (s : CoreSt) (ra : GReg) : Nat × Nat × Nat × Nat :=
  let w (i : Nat) : Word := c.localWord k (s.localOf ra + i)
  (wbits (w 0) 15 0, (w 1).toNat, wbits (w 2) 15 0, (w 3).toNat)

/-- Exceptions of a KREQ: its request block, its input and its output lie in permitted local ranges (R254). -/
def Chip.kreqCauses (c : Chip) (k : Nat) (s : CoreSt) (ra : GReg) : List Nat :=
  let (ia, n, oa, m) := c.kreqBlock k s ra
  s.rangeCauses k (s.localOf ra) 4 ++ s.rangeCauses k ia n ++ s.rangeCauses k oa m ++ c.localCauses k (s.localOf ra) 4

/-- Exceptions of a BSUB (R254): its descriptor, and the local ranges of a job that R223 would accept.
[DEDUCED, log entry 161: unsafe] -/
def Chip.bsubCauses (c : Chip) (k : Nat) (s : CoreSt) (ra : GReg) : List Nat :=
  let a := s.localOf ra
  let ws := c.localWords k a 8
  let pre := if jobPrior ws then 64 else 0
  s.rangeCauses k a 8 ++ c.localCauses k a 8 ++
  (if c.jobStatus ws true ≠ St.OK then []
   else s.rangeCauses k (wbits (ws.getD 6 0) 33 0) 4 ++
    (if jobSrcLen ws = 0 then []
     else (if jobSrcLocal ws then s.rangeCauses k (jobSrc ws) (jobSrcLen ws) else []) ++
      (if jobDstLocal ws then s.rangeCauses k (jobDst ws - pre) (jobDstLen ws + pre) else [])))

/-- Length in octets of a TXP block. -/
def Chip.txpLen (c : Chip) (k : Nat) (s : CoreSt) (ra : GReg) : Nat := wbits (c.localWord k (s.localOf ra)) 11 0

/-- Words of a TXP block: eight, then the octets in the PACK layout (R258).
[DEDUCED, log entry 57: unsafe] -/
def txpWords (len : Nat) : Nat := 8 + ceilDiv (2 * len) 9

/-- Exceptions of a TXP. -/
def Chip.txpCauses (c : Chip) (k : Nat) (s : CoreSt) (ra : GReg) : List Nat :=
  let len := c.txpLen k s ra
  let n := if len = 0 then 1 else txpWords len
  (if 2048 < len then [Ex.ILLEGAL] else []) ++ s.rangeCauses k (s.localOf ra) n ++ c.localCauses k (s.localOf ra) n

/-- An instruction that CF = 1 forbids (R270). -/
def CoreSt.cfCauses (s : CoreSt) (k : Nat) : List Nat := if s.custom k then [Ex.PROTECT] else []

/-- An instruction of control cores alone (R246), which user mode forbids (R264). -/
def CoreSt.kcCauses (s : CoreSt) (k : Nat) : List Nat :=
  if isChannelCore k then [Ex.ILLEGAL] else if s.user k then [Ex.PROTECT] else []

/-- A register access of a control core at the offset that RA names (R266). -/
def CoreSt.rgCauses (s : CoreSt) (k : Nat) (ra : GReg) : List Nat :=
  s.kcCauses k ++ (if wbits (s.rg ra) 2 0 ≠ 0 then [Ex.ADDRESS] else [])

/-- Exceptions that an instruction raises by itself (R260).
[DEDUCED, log entry 53: unsafe] [DEDUCED, log entry 55: unsafe] -/
def Chip.opCauses (c : Chip) (k : Nat) (s : CoreSt) : CoreOp → List Nat
  | .ld rd m => (if memIllegal m rd then [Ex.ILLEGAL] else []) ++
      s.accessCauses k (s.ea m) (memWords m) false m.xa m.upd m.mode.val (memOffset m) ++ c.localCauses k (s.ea m) (memWords m)
  | .st rs m => (if memIllegal m rs then [Ex.ILLEGAL] else []) ++
      s.accessCauses k (s.ea m) (memWords m) true m.xa m.upd m.mode.val (memOffset m)
  | .ldp _ ra imm => if 0x60000 ≤ s.progAddr ra imm then [Ex.ADDRESS]
      else if c.badProg k (s.progAddr ra imm) 1 then [Ex.UNCORR] else []
  | .ldpl rd ra imm => (if rd.val % 8 ≠ 0 then [Ex.ILLEGAL] else []) ++
      (if 0x60000 ≤ s.progAddr ra imm ∨ s.progAddr ra imm % 8 ≠ 0 then [Ex.ADDRESS]
       else if c.badProg k (s.progAddr ra imm) 8 then [Ex.UNCORR] else [])
  | .aget _ _ part => if part.val = 3 then [Ex.ILLEGAL] else []
  | .aput _ _ part => if part.val = 3 then [Ex.ILLEGAL] else []
  | .tapm _ _ xa mode => (if mode.val = 3 then [Ex.ILLEGAL] else []) ++
      s.accessCauses k (s.rx xa) 8 true xa true mode.val 8 ++ c.localCauses k (s.rx xa) 8
  | .br cond _ _ => if cond.val = 15 ∨ s.lastOf then [Ex.ILLEGAL] else []
  | .jr _ _ => if s.lastOf then [Ex.ILLEGAL] else []
  | .loop lv _ _ body =>
    let nests : Bool := match s.loop0 with
      | none => decide (lv.val = 0)
      | some l => decide (lv.val = 1 ∧ s.pc + 2 * body.val ≤ l.last)
    if body.val = 0 ∨ nests = false ∨ (lv.val = 1 ∧ s.loop1.isSome) then [Ex.ILLEGAL] else []
  | .csrr _ cr => if isChannelCore k ∧ 0x10 ≤ cr.toNat then [Ex.ILLEGAL] else []
  | .csrw _ cr => if 0x10 ≤ cr.toNat then s.kcCauses k else []
  | .take => if isChannelCore k then s.cfCauses k else [Ex.ILLEGAL]
  | .spawn ra => s.cfCauses k ++ s.rangeCauses k (s.localOf ra) 4 ++ c.localCauses k (s.localOf ra) 4
  | .push _ rb _ => s.chuteCauses k rb false
  | .pop _ rb => s.chuteCauses k rb true
  | .dropRest _ rb => s.chuteCauses k rb false
  | .chcCount _ rb => s.chuteCauses k rb true
  | .chcPkts _ rb => s.chuteCauses k rb true
  | .dmovIn ra rb n => s.cfCauses k ++ c.dmovCauses k s ra rb n
  | .dmovOut ra rb n => s.cfCauses k ++ c.dmovCauses k s ra rb n
  | .kreq ra _ => s.cfCauses k ++ c.kreqCauses k s ra
  | .bsub _ ra _ => s.cfCauses k ++ c.bsubCauses k s ra
  | .mxadd ra _ n => s.cfCauses k ++ (if 8 < n.val then [Ex.ILLEGAL] else if n.val = 0 then [] else s.rangeCauses k (s.localOf ra) n.val)
  | .mxrd ra _ n => s.cfCauses k ++ (if 8 < n.val then [Ex.ILLEGAL] else if n.val = 0 then [] else s.rangeCauses k (s.localOf ra) n.val)
  | .txp ra => s.cfCauses k ++ c.txpCauses k s ra
  | .rgr _ ra => s.rgCauses k ra
  | .rgw ra _ => s.rgCauses k ra
  | .reti => s.kcCauses k
  | .trap => if isChannelCore k then [Ex.ILLEGAL] else [Ex.TRAP]
  | .wfi => s.kcCauses k
  | .nop => [] | .add _ _ _ _ => [] | .sub _ _ _ _ => [] | .neg _ _ _ => [] | .abs _ _ _ => []
  | .and _ _ _ => [] | .or _ _ _ => [] | .xor _ _ _ => [] | .andn _ _ _ => []
  | .shl _ _ _ _ _ => [] | .asr _ _ _ _ => [] | .lsr _ _ _ _ => [] | .asrr _ _ _ _ => []
  | .min _ _ _ => [] | .max _ _ _ => [] | .cmp _ _ => [] | .cls _ _ => [] | .brev _ _ _ => []
  | .mulf _ _ _ _ => [] | .muli _ _ _ _ => [] | .mulh _ _ _ => []
  | .addi _ _ _ _ => [] | .andi _ _ _ => [] | .ori _ _ _ => [] | .lui _ _ => [] | .cmpi _ _ => []
  | .mac _ _ _ _ => [] | .msu _ _ _ _ => [] | .mpy _ _ _ _ => [] | .clra _ => []
  | .accr _ _ _ _ => [] | .accw _ _ => [] | .adda _ _ _ => []
  | .setX _ _ => [] | .getX _ _ => [] | .setXB _ _ => [] | .getXB _ _ => []
  | .setXL _ _ => [] | .getXL _ _ => [] | .setTcr _ => [] | .getTcr _ => []
  | .waite => [] | .rdtMt _ => [] | .rdtSubtick _ => [] | .rdtNs _ => [] | .rdtCount _ => []

/-! ## Bundles -/

/-- Classes of Table 9.7. -/
inductive OpClass where
  | alu | mul | acc | ld | st | tap | ctl | eng | sys
  deriving DecidableEq, Repr

/-- The class of an instruction (Table 9.7). -/
def opClass : CoreOp → OpClass
  | .mulf _ _ _ _ => .mul | .muli _ _ _ _ => .mul | .mulh _ _ _ => .mul
  | .ld _ _ => .ld | .ldp _ _ _ => .ld | .ldpl _ _ _ => .ld | .st _ _ => .st
  | .mac _ _ _ _ => .acc | .msu _ _ _ _ => .acc | .mpy _ _ _ _ => .acc | .clra _ => .acc
  | .accr _ _ _ _ => .acc | .accw _ _ => .acc | .adda _ _ _ => .acc | .aget _ _ _ => .acc | .aput _ _ _ => .acc
  | .tapm _ _ _ _ => .tap | .br _ _ _ => .ctl | .jr _ _ => .ctl | .loop _ _ _ _ => .ctl
  | .csrr _ _ => .sys | .csrw _ _ => .sys | .rgr _ _ => .sys | .rgw _ _ => .sys
  | .reti => .sys | .trap => .sys | .wfi => .sys
  | .take => .eng | .spawn _ => .eng | .push _ _ _ => .eng | .pop _ _ => .eng | .dropRest _ _ => .eng
  | .chcCount _ _ => .eng | .chcPkts _ _ => .eng | .dmovIn _ _ _ => .eng | .dmovOut _ _ _ => .eng
  | .kreq _ _ => .eng | .bsub _ _ _ => .eng | .mxadd _ _ _ => .eng | .mxrd _ _ _ => .eng | .txp _ => .eng
  | .waite => .eng | .rdtMt _ => .eng | .rdtSubtick _ => .eng | .rdtNs _ => .eng | .rdtCount _ => .eng
  | .nop => .alu | .add _ _ _ _ => .alu | .sub _ _ _ _ => .alu | .neg _ _ _ => .alu | .abs _ _ _ => .alu
  | .and _ _ _ => .alu | .or _ _ _ => .alu | .xor _ _ _ => .alu | .andn _ _ _ => .alu
  | .shl _ _ _ _ _ => .alu | .asr _ _ _ _ => .alu | .lsr _ _ _ _ => .alu | .asrr _ _ _ _ => .alu
  | .min _ _ _ => .alu | .max _ _ _ => .alu | .cmp _ _ => .alu | .cls _ _ => .alu | .brev _ _ _ => .alu
  | .addi _ _ _ _ => .alu | .andi _ _ _ => .alu | .ori _ _ _ => .alu | .lui _ _ => .alu | .cmpi _ _ => .alu
  | .setX _ _ => .alu | .getX _ _ => .alu | .setXB _ _ => .alu | .getXB _ _ => .alu
  | .setXL _ _ => .alu | .getXL _ _ => .alu | .setTcr _ => .alu | .getTcr _ => .alu

/-- A register as R243 compares them: general, accumulator, address, base, length, TCR, a control register, or PC (Table 9.4). -/
inductive RegRef where
  | g (n : Nat) | acc (n : Nat) | x (n : Nat) | xb (n : Nat) | xl (n : Nat) | tcr | cr (n : Nat) | pc
  deriving DecidableEq, Repr

/-- The registers that an effect writes; flags are control register 0x00.
[DEDUCED, log entry 50: unsafe] -/
def Eff.writes (e : Eff) : List RegRef :=
  e.g.map (fun p => .g p.1) ++ e.acc.map (fun p => .acc p.1) ++ e.x.map (fun p => .x p.1) ++ e.xb.map (fun p => .xb p.1) ++
  e.xl.map (fun p => .xl p.1) ++ (if e.tcr.isSome then [.tcr] else []) ++ (if e.flags.isEmpty then [] else [.cr 0]) ++
  (match e.cr with | some p => [.cr p.1] | none => []) ++
  (match e.loop with | some p => [.cr (1 + p.1)] | none => []) ++
  (if e.skip.isSome then [.pc] else [])

/-- The registers that an instruction writes through the scheduler, a chute, an engine or a system operation, and PC where it
is the instruction's own to write. -/
def lateWrites : CoreOp → List RegRef
  | .take => [.g 28, .g 29, .g 30, .g 31, .x 7, .cr 0, .cr 1, .cr 2, .cr 3, .pc]
  | .br _ _ _ => [.pc]
  | .jr _ _ => [.pc]
  | .dropRest rd _ => [.g rd.val]
  | .pop rd _ => [.g rd.val, .cr 0]
  | .chcCount rd _ => [.g rd.val]
  | .chcPkts rd _ => [.g rd.val]
  | .bsub rd _ _ => [.g rd.val]
  | .rgr rd _ => [.g rd.val]
  | .csrr rd _ => [.g rd.val]
  | .reti => [.cr 0x10, .pc]
  | _ => []

/-- TAPM uses both pumps (R243). -/
def tapClash (a b : CoreOp) : Bool :=
  opClass a == .tap && (opClass b == .ld || opClass b == .st)

/-- The bundle is ILLEGAL under R243: one register written by both slots, two of a class other than ALU, or TAPM
together with a load or store. A LOOP and a BR or JR are two of class CTL.
[DEDUCED, log entry 50: unsafe] -/
def bundleIllegal (a b : CoreOp) (ea eb : Eff) : Bool :=
  let wa := ea.writes ++ lateWrites a
  let wb := eb.writes ++ lateWrites b
  wa.any (fun r => wb.contains r) || (opClass a == opClass b && opClass a != .alu) || tapClash a b || tapClash b a

/-! ## Writing the results -/

/-- An effect's writes to registers and local memory, all from values read before the bundle (R242). -/
def Eff.apply (e : Eff) (s : CoreSt) : CoreSt :=
  let s := e.g.foldl (fun s p => s.wg p.1 p.2) s
  let s := { s with
    acc := e.acc.foldl (fun m p => Cells.set 0 p.1 p.2 m) s.acc
    x := e.x.foldl (fun m p => Cells.set 0 p.1 p.2 m) s.x
    xb := e.xb.foldl (fun m p => Cells.set 0 p.1 p.2 m) s.xb
    xl := e.xl.foldl (fun m p => Cells.set 0 p.1 p.2 m) s.xl
    tcr := e.tcr.getD s.tcr
    flags := putFlags e.flags s.flags
    mem := e.mem.foldl (fun m p => Cells.insert (p.1 % 65536) p.2 m) s.mem }
  match e.cr with
  | some p => s.writeCr p.1 p.2
  | none => s

/-- A loop after a bundle at `at_` has issued and execution would go on at `pc` (R247): at the end of its body, back to its
first bundle, or ended.
[DEDUCED, log entry 53: unsafe] -/
def loopBack (l : Option LoopSt) (at_ pc : Nat) : Option LoopSt × Option Nat :=
  match l with
  | none => (none, none)
  | some l => if pc ≠ l.last + 2 ∨ at_ < l.first ∨ l.last < at_ then (some l, none)
    else if l.left ≤ 1 then (none, none) else (some { l with left := l.left - 1 }, some l.first)

/-- A loop after a taken branch to `pc`: a target outside its body ends it (R247).
[DEDUCED, log entry 53: unsafe] -/
def loopKeep (l : Option LoopSt) (pc : Nat) : Option LoopSt :=
  match l with
  | none => none
  | some l => if l.first ≤ pc ∧ pc ≤ l.last then some l else none

/-- The program address and the hardware loops after a bundle (R247): a taken branch, a skipped body, or the next bundle,
the inner loop's return before the outer one's.
[DEDUCED, log entry 53: unsafe] -/
def CoreSt.goOn (jump skip : Option Nat) (loop : Option (Nat × LoopSt)) (s : CoreSt) : CoreSt :=
  match jump with
  | some t => { s with pc := t, loop0 := loopKeep s.loop0 t, loop1 := loopKeep s.loop1 t }
  | none =>
    let pc := skip.getD s.nextPc
    let (l1, back1) := loopBack s.loop1 s.pc pc
    let here := s.pc
    let s := { s with loop1 := l1 }
    let s := match back1 with
      | some t => { s with pc := t }
      | none =>
        let (l0, back0) := loopBack s.loop0 here pc
        { s with loop0 := l0, pc := back0.getD pc, loop1 := if l0.isNone then none else l1 }
    match loop with
    | some (0, l) => { s with loop0 := some l }
    | some (_, l) => { s with loop1 := some l }
    | none => s

end Sys2Proof.Machine
end

