-- ==== Sys2Proof/Machine/Engine.lean ====
section
/-! DEFINITION. Bundles on the device (R242, R243, R260): the scheduler, chute, engine and system instructions (R254 to
R259, R265, R266), the completion of engine transfers, and the timer. -/
namespace Sys2Proof.Machine

open Sys2Proof

/-- The requester of a control core's register accesses (R266). -/
def kcRequester (k : Nat) : Requester := if k = 96 then .kc0 else if k = 97 then .kc1 else if k = 98 then .kc2 else .kc3

/-- A general register of a core written. -/
def Chip.setReg (k : Nat) (r : GReg) (w : Word) (c : Chip) : Chip := c.modCore k (CoreSt.wg r.val w)

/-- Flags of a core changed. -/
def Chip.setFlags (k : Nat) (l : List (Nat × Bool)) (c : Chip) : Chip :=
  c.modCore k (fun s => { s with flags := putFlags l s.flags })

/-- A transfer started (R258). -/
def Chip.startXfer (k : Nat) (t : Transfer) (c : Chip) : Chip := c.modCore k (fun s => { s with xfers := s.xfers ++ [t] })

/-- RB names the event-timestamp chute (R257). -/
def evtChute (w : Word) : Bool := wbit w 11

/-- SPAWN (R256, R277, R295): the item is posted, or the core stalls. A control core has no cluster of its own: where
CLUSTER names none, the choice is free.
[DESIGN CHOICE, log entry 60: safe] -/
def Chip.spawnOp (k : Nat) (ws : List Word) (c : Chip) : Chip :=
  let (n, c) := c.drawNat
  let w0 := ws.getD 0 0
  let ws := if !isChannelCore k && decide (0xB < wbits w0 35 32) then wput w0 35 32 (n % 12) :: ws.drop 1 else ws
  match c.trySpawn (k / 8) ws with
  | some c => c
  | none => c.modCore k (fun s => { s with wait := .spawn, spawning := ws })

/-- POP (R257).
[DEDUCED, log entry 54: unsafe] -/
def Chip.popOp (k : Nat) (rd : GReg) (b : Word) (c : Chip) : Chip :=
  let (e, c) := if evtChute b then c.popEvt else c.popChute (wbits b 10 0)
  match e with
  | none => (c.setReg k rd 0).setFlags k [(Fg.E, true)]
  | some e => (c.setReg k rd e.word).setFlags k [(Fg.E, false), (Fg.T, e.fin), (Fg.P, e.gap)]

/-- BSUB (R258): the status of R227 or R223 in RD; an accepted job is an in-chain job of the core. That of a control core
takes a shared entry.
[DEDUCED, log entry 161: unsafe] -/
def Chip.bsubOp (k : Nat) (rd : GReg) (a u : Nat) (c : Chip) : Chip :=
  let ws := c.localWords k a 8
  let st := St.pick [c.jobStatus ws true, St.when (!c.flag F.baler_U_CTRL_EN u || c.chanRec) St.NOTREADY,
    St.when (!isChannelCore k && decide (880 ≤ c.fld F.baler_U_OCC_SHARED u)) St.BUSY]
  let c := c.setReg k rd (wofNat st)
  if st ≠ St.OK then c else (c.startXfer k (.bsub u c.serial)).addJob u (.core k) ws []

/-- The bus and first bus sample that MXADD and MXRD name (R258): the sample's low 24 bits, nearest the present one.
[DEDUCED, log entry 58: unsafe] -/
def Chip.mixPlace (c : Chip) (b : Word) : Nat × Nat :=
  let bus := wbits b 35 24
  (bus, extendHalf 24 (wbits b 23 0) (c.busNow bus))

/-- The words of a TXP block (R258).
[DEDUCED, log entry 57: unsafe] -/
def Chip.txpBlock (c : Chip) (k a : Nat) : List Word :=
  c.localWords k a (txpWords (wbits (c.localWord k a) 11 0))

/-- What an instruction does beside its own core's results: `s` is the core before the bundle.
[DEDUCED, log entry 56: unsafe] -/
def Chip.engineOp (k : Nat) (s : CoreSt) (op : CoreOp) (c : Chip) : Chip :=
  match op with
  | .take => (c.modCore k (fun s => { s with wait := .takeDrain })).settleCore k
  | .spawn ra => c.spawnOp k (c.localWords k (s.localOf ra) 4)
  | .push ra rb fin => c.push (wbits (s.rg rb) 10 0) (s.rg ra) fin
  | .pop rd rb => c.popOp k rd (s.rg rb)
  | .dropRest rd rb =>
    let (n, c) := c.dropRest (wbits (s.rg rb) 10 0)
    c.setReg k rd (wofNat n)
  | .chcCount rd rb => c.setReg k rd (if evtChute (s.rg rb) then wofNat c.time.evt.length
      else c.rd .chute_C_COUNT (wbits (s.rg rb) 10 0))
  | .chcPkts rd rb => c.setReg k rd (if evtChute (s.rg rb) then c.rd .time_EVT_COUNT
      else c.rd .chute_C_PKTS (wbits (s.rg rb) 10 0))
  | .dmovIn ra rb n =>
    if n.toNat = 0 then c else c.startXfer k (.dmovIn (s.localOf ra) (wbits (s.rg rb) 33 0) n.toNat)
  | .dmovOut ra rb n =>
    if n.toNat = 0 then c else c.startXfer k (.dmovOut (s.localOf ra) (wbits (s.rg rb) 33 0) n.toNat)
  | .kreq ra rb =>
    let lane := wbits (s.rg rb) 13 0
    let (ia, n, oa, m) := c.kreqBlock k s ra
    if c.owner lane ≠ 1 then c.setFlags k [(Fg.EF, true)] else (c.startXfer k (.kreq lane ia n oa m)).kerfArrive k
  | .bsub rd ra unit => c.bsubOp k rd (s.localOf ra) unit.val
  | .mxadd ra rb n =>
    let (b, first) := c.mixPlace (s.rg rb)
    if n.val = 0 then c else c.startXfer k (.mxadd b first (s.localOf ra) n.val)
  | .mxrd ra rb n =>
    let (b, first) := c.mixPlace (s.rg rb)
    if n.val = 0 then c else c.startXfer k (.mxrd b first (s.localOf ra) n.val)
  | .txp ra => if c.txpLen k s ra = 0 then c else c.startXfer k (.txp (c.txpBlock k (s.localOf ra)))
  | .waite => c.modCore k (fun s => if s.xfers.isEmpty then s else { s with wait := .waite })
  | .rgr rd ra =>
    let (v, c) := c.busRead (kcRequester k) (wbits (s.rg ra) 25 0)
    c.setReg k rd v
  | .rgw ra rb => c.busWrite (kcRequester k) (wbits (s.rg ra) 25 0) (s.rg rb)
  | .csrr rd cr =>
    if cr.toNat = 3 ∧ isChannelCore k then
      let (n, c) := c.itemCycles k
      c.setReg k rd (wofNat n)
    else c
  | .reti => c.modCore k (fun x => { x with pc := s.epc, ie := true, sup := s.prevSup })
  | .wfi => c.modCore k (fun s => if s.ipend &&& s.imask = 0 then { s with wait := .wfi } else s)
  | .trap | .csrw _ _ | .nop => c
  | .add _ _ _ _ | .sub _ _ _ _ | .neg _ _ _ | .abs _ _ _ | .and _ _ _ | .or _ _ _ | .xor _ _ _ | .andn _ _ _ => c
  | .shl _ _ _ _ _ | .asr _ _ _ _ | .lsr _ _ _ _ | .asrr _ _ _ _ | .min _ _ _ | .max _ _ _ | .cmp _ _ => c
  | .cls _ _ | .brev _ _ _ | .mulf _ _ _ _ | .muli _ _ _ _ | .mulh _ _ _ | .addi _ _ _ _ | .andi _ _ _ => c
  | .ori _ _ _ | .lui _ _ | .cmpi _ _ | .ld _ _ | .st _ _ | .ldp _ _ _ | .ldpl _ _ _ => c
  | .mac _ _ _ _ | .msu _ _ _ _ | .mpy _ _ _ _ | .clra _ | .accr _ _ _ _ | .accw _ _ | .adda _ _ _ => c
  | .aget _ _ _ | .aput _ _ _ | .tapm _ _ _ _ | .br _ _ _ | .jr _ _ | .loop _ _ _ _ => c
  | .setX _ _ | .getX _ _ | .setXB _ _ | .getXB _ _ | .setXL _ _ | .getXL _ _ | .setTcr _ | .getTcr _ => c
  | .rdtMt _ | .rdtSubtick _ | .rdtNs _ | .rdtCount _ => c

/-- An instruction that starts a transfer (R258): it stalls while 16 are outstanding.
[DEDUCED, log entry 56: unsafe] -/
def startsXfer : CoreOp → Bool
  | .dmovIn _ _ n => n.toNat != 0
  | .dmovOut _ _ n => n.toNat != 0
  | .mxadd _ _ n => n.val != 0
  | .mxrd _ _ n => n.val != 0
  | .kreq _ _ => true
  | .bsub _ _ _ => true
  | .txp _ => true
  | _ => false

/-- An instruction cannot issue yet: all 16 transfers are outstanding, the core's one Kerf request or in-chain job is
(R151, R209), or port 65 ingress is full (R258).
[DEDUCED, log entry 56: unsafe] [DEDUCED, log entry 161: unsafe] -/
def Chip.stalls (c : Chip) (k : Nat) (s : CoreSt) (op : CoreOp) : Bool :=
  (startsXfer op && decide (16 ≤ s.xfers.length)) ||
  match op with
  | .kreq _ _ => s.hasKreq
  | .bsub _ _ _ => c.coreJob k
  | .txp ra => c.fullFor (c.txpLen k s ra)
  | _ => false

/-- The exceptions that a bundle raises: those of its fetch, or else those of R243 and each slot's own (R260).
[DEDUCED, log entry 50: unsafe] -/
def Chip.bundleCauses (c : Chip) (k : Nat) (s : CoreSt) (op mate : CoreOp) : List Nat :=
  if !(c.fetchCauses k).isEmpty then c.fetchCauses k
  else (if bundleIllegal op mate (c.coreEff k s c.draws op) (c.coreEff k s (c.draws + 1) mate) then [Ex.ILLEGAL] else []) ++
    c.opCauses k s op ++ c.opCauses k s mate

/-- The lowest of a list of causes.
[DESIGN CHOICE, log entry 52: unsafe] -/
def lowestCause : List Nat → Nat
  | [] => 0
  | x :: r => r.foldl min x

/-! ## The library's call of a custom function (R270) -/

/-- The rate code of Table 9.15 of `n` samples over `len` sub-multiples of 48 kHz. -/
def rateCode (n len : Nat) : Nat := if n * 6 ≤ len then 0 else if n * 3 ≤ len then 1 else 2

/-- The library calls the custom function `x` of channel `ch`: the chain has run up to the function's position, and its
samples and the registers of Table 9.15 are in place. Where the samples and the function's state words stand in local memory
is not given.
[DESIGN CHOICE, log entry 21: safe] -/
def Chip.enterCustom (k from_ ch : Nat) (t : ChanSt) (x : CustomSt) (c : Chip) : Chip :=
  let s := c.core k
  let d := c.desc ch
  let pos := dbits d 23 7 6
  let (xs, rx, c) := c.chainTo pos ch d t
  let (a, c) := c.drawNat
  let (b, c) := c.drawNat
  let n := xs.length
  let low := 0xC000 - n + 1
  let r := a % (low + (0x2000 - 32 - n + 1))
  let at_ := if r < low then r else bufBase s.buf + 32 + (r - low)
  let state := bufBase s.buf + 32 + b % (dbits d 24 35 22 - 32 - x.state + 1)
  let ret := (from_ + 2) % 2 ^ 19
  let mt := if pos = 3 then t.frame + 2 * c.period d else t.frame
  let c := c.putLocal k at_ (xs.map wofInt)
  c.modCore k (fun s =>
    let s := { s with
      g := [(1, wofNat n), (2, wofNat (rateCode n t.frameLen)), (3, wofNat mt), (27, wofNat ret)].foldl
        (fun g (p : Nat × Word) => Cells.set 0 p.1 p.2 g) s.g
      x := Cells.set 0 7 (bufBase s.buf) (Cells.set 0 6 state (Cells.set 0 0 at_ s.x)) }
    { s with call := some { pos := pos, ret := ret, addr := at_, n := n, rx := rx, regs := s.heldG, xregs := s.heldX } })

/-- A channel core that runs the library has jumped to the entry of its channel's custom function (R270). -/
def Chip.libraryCall (k from_ : Nat) (c : Chip) : Chip :=
  let s := c.core k
  match s.item with
  | none => c
  | some ch => match Cells.find? ch c.chans with
    | none => c
    | some t =>
      let d := c.desc ch
      let pos := dbits d 23 7 6
      match Cells.find? (dbits d 23 5 0) c.customs with
      | none => c
      | some x =>
        if !isChannelCore k || s.call.isSome || inCustom from_ || s.pc != x.entry || !dFunc d 9 ||
            t.life == 1 || (dbits d 23 7 6 == 3 && dEncoder d == 0) then c
        else c.enterCustom k from_ ch t x

/-- A custom function has returned: the samples that it leaves go on through the chain; those of a function that has changed
G20 to G26, X6 or X7 are not stated.
[DESIGN CHOICE, log entry 21: safe] -/
def Chip.libraryReturn (k : Nat) (c : Chip) : Chip :=
  let s := c.core k
  match s.call with
  | none => c
  | some t =>
    if !isChannelCore k || t.back.isSome || s.pc != t.ret then c
    else
      let (ys, c) := if s.heldG = t.regs ∧ s.heldX = t.xregs then ((c.localWords k t.addr t.n).map sval, c) else c.drawSamples t.n
      c.modCore k (fun s => { s with call := some { t with back := some ys } })

/-- Both slots of a bundle with no exception: the results of both, read from the core before the bundle, then the next
program address, then what they do beside the core (R242), and the library's call of a custom function (R270).
[DEDUCED, log entry 56: unsafe] -/
def Chip.issue (k : Nat) (op mate : CoreOp) (c : Chip) : Chip :=
  let s := c.core k
  let ea := c.coreEff k s c.draws op
  let eb := c.coreEff k s (c.draws + 1) mate
  let c := { c with draws := c.draws + 2 }
  let c := c.modCore k (fun s => (eb.apply (ea.apply s)).goOn (ea.jump.or eb.jump) (ea.skip.or eb.skip) (ea.loop.or eb.loop))
  let c := c.freshWords k ((ea.mem ++ eb.mem).map (fun p => p.1 % 65536))
  (((c.engineOp k s op).engineOp k s mate).libraryCall k s.pc).libraryReturn k

/-- A core issues the bundle of two instructions at its program address (R242, R260): an exception ends it with no result
of either slot; a 17th transfer stalls it (R258). A core that waits issues nothing, and so does one that fetches another
bundle than this.
[DESIGN CHOICE, log entry 52: unsafe] -/
def Chip.bundle (k : Nat) (op mate : CoreOp) (c : Chip) : Chip :=
  let s := c.core k
  let causes := c.bundleCauses k s op mate
  if s.wait ≠ .run then c
  else if !fetchable s.pc then c.exception k Ex.ADDRESS
  else if !(c.stands k op mate) && (c.fetchCauses k).isEmpty then c
  else if !causes.isEmpty then c.exception k (lowestCause causes)
  else if c.stalls k s op || c.stalls k s mate then c
  else c.issue k op mate

/-! ## Completion of transfers -/

/-- A core's transfer removed. -/
def CoreSt.dropXfer (i : Nat) (s : CoreSt) : CoreSt := { s with xfers := s.xfers.eraseIdx i }

/-- A transfer's data moves (R258). -/
def Chip.moveXfer (k : Nat) (t : Transfer) (c : Chip) : Chip :=
  match t with
  | .dmovIn a b n =>
    let ok := c.rangeOk (b * 16) (16 * n)
    let ws := c.words (b * 16) (16 * n)
    let c := (c.readLog Src.CORES (b * 16) (16 * n)).putLocal k a ws
    if ok then c else c.setFlags k [(Fg.EF, true)]
  | .dmovOut a b n =>
    let ok := c.writeOk (b * 16) (16 * n)
    let c := c.putBursts b (c.localWords k a (16 * n)) Src.CORES
    if ok then c else c.setFlags k [(Fg.EF, true)]
  | .mxadd b first a n => c.mixAddAll b first ((c.localWords k a n).map (fun w => signed 36 w.toNat))
  | .mxrd b first a n =>
    let (xs, c) := c.mixReadAll b first n
    c.putLocal k a (xs.map wofInt)
  | .txp ws =>
    let w (i : Nat) : Word := ws.getD i 0
    let len := wbits (w 0) 11 0
    c.internalFrame 65 ((packOut (ws.drop 8)).take len) (wbits (w 2) 29 15) (wbits (w 2) 31 30) (some (w 1).toNat) none
  | .kreq _ _ _ _ _ => c
  | .bsub _ _ => c

/-- Transfers whose completion has a command of its own. -/
def Transfer.separate : Transfer → Bool
  | .kreq _ _ _ _ _ => true
  | .bsub _ _ => true
  | _ => false

/-- A frame of TXP waits while port 65 ingress is full (R258). -/
def Chip.txpWaits (c : Chip) (t : Transfer) : Bool :=
  match t with
  | .txp ws => c.fullFor (wbits (ws.getD 0 0) 11 0)
  | _ => false

/-- ENGINE_TRANSFER_COMPLETE: the i-th outstanding transfer of a core completes (R258); a waiting core goes on when it was
the last. -/
def Chip.xferComplete (k i : Nat) (c : Chip) : Chip :=
  match (c.core k).xfers[i]? with
  | none => c
  | some t => if t.separate || c.txpWaits t then c else ((c.moveXfer k t).modCore k (CoreSt.dropXfer i)).settleCore k

/-- The start of the frame that a core's item plays, and free where it holds no channel's item.
[DESIGN CHOICE, log entry 59: safe] -/
def Chip.itemFrame (k : Nat) (c : Chip) : Nat × Chip :=
  match (c.core k).item with
  | some n => match Cells.find? n c.chans with
    | some s => (s.frame, c)
    | none => c.drawNat
  | none => c.drawNat

/-- KERF_REQUEST_COMPLETE: the Kerf request of a core completes in its turn and its outputs land (R151, R258). An error in the
lane's own state is one of its channel's state (R155).
[DEDUCED, log entry 56: unsafe] -/
def Chip.kerfComplete (k : Nat) (err : KerfErr) (c : Chip) : Chip :=
  let isK (t : Transfer) : Bool := match t with | .kreq _ _ _ _ _ => true | _ => false
  if !c.kerfTurn k then c
  else match (c.core k).xfers.findIdx? isK with
  | none => c
  | some i => match (c.core k).xfers[i]? with
    | some (.kreq lane ia n oa m) =>
      if err = .lane ∨ c.upset (.lane lane) then
        let c := c.heal (.lane lane)
        match (c.core k).item with
        | some ch => ((c.discardItem k ch).modCore k CoreSt.retake).kerfServed k
        | none =>
          let c := ((c.clearLane lane).modCore k (CoreSt.dropXfer i)).kerfServed k
          match List.find? (fun p => dFunc (c.desc p.1) 0 && dbits (c.desc p.1) 6 13 0 == lane) c.chans with
          | some p => (c.chanUncorr p.1).settleCore k
          | none => c.settleCore k
      else
        let (f, c) := c.itemFrame k
        let fi := kerfIn (c.fld F.kerf_LRATE_INRATE lane)
        let fo := kerfOut (c.fld F.kerf_LRATE_OUTRATE lane)
        let n0 := ceilDiv (f * fo) 48000
        let xs := (c.localWords k ia n).map (fun w => signed 36 w.toNat)
        let ms := (List.range m).map (fun i => (n0 + i) * 48000 / fo)
        let (ys, c) := c.runLane lane (ceilDiv (f * fi) 48000 : Nat) xs ms err
        (((c.putLocal k oa (ys.map wofInt)).modCore k (CoreSt.dropXfer i)).kerfServed k).settleCore k
    | _ => c

/-- BALER_JOB_COMPLETE, as the cores see it: a core whose last transfer it was goes on (R255, R259). -/
def Chip.jobComplete (hedge : BalerJob → JobEnd → Chip → Chip) (u : Nat) (mismatch : Option Nat) (c : Chip) : Chip :=
  (c.balerComplete hedge u mismatch).settleCores

/-- TIMER_COMPARE: device time has reached TCMP under R74, and line 0 becomes pending (Table 9.13). -/
def Chip.timerCompare (kc : Nat) (c : Chip) : Chip :=
  let s := c.core (96 + kc)
  if s.tarmed && decide (0 ≤ halfDist 36 (launchForm c.now) s.tcmp) then
    (c.modCore (96 + kc) (fun s => { s with tarmed := false })).lineOn kc 0
  else c

/-- INTERRUPT_TAKEN for a control core: an exception raised from outside the encodings (a fetched word that is ILLEGAL or
UNCORR), else the lowest enabled pending line (R260, R265). -/
def Chip.takenOn (k : Nat) (cause : Option Nat) (c : Chip) : Chip :=
  match cause with
  | none => c.interruptTaken k
  | some e => if (c.core k).wait ≠ .run then c else c.exception k e

end Sys2Proof.Machine
end

