-- ==== Sys2Proof/Machine/Crypto.lean ====
section
/-! DEFINITION. The standard functions that the spec names: SHA-256 and HMAC-SHA-256 (R30, R450), SHA-384 and ECDSA on
P-384 under FIPS 186-5 (R468). Their definitions are those of the standards, not of the spec. -/
namespace Sys2Proof.Machine

open Sys2Proof

/-! ## The SHA-2 family, for words of 32 or 64 bits -/

/-- A number is divided by none of a list. -/
def coprimeTo (n : Nat) (l : List Nat) : Bool := l.all (fun p => n % p != 0)

/-- The primes below a bound. -/
def primesTo : Nat → List Nat
  | 0 => []
  | n + 1 => let l := primesTo n; if 2 ≤ n ∧ coprimeTo n l then l ++ [n] else l

/-- The first 80 primes. -/
def primes80 : List Nat := primesTo 410

/-- The largest number of `b` bits above `a` whose `k`-th power is at most `v`. -/
def rootBits (k v : Nat) : Nat → Nat → Nat
  | 0, a => a
  | b + 1, a => if (a + 2 ^ b) ^ k ≤ v then rootBits k v b (a + 2 ^ b) else rootBits k v b a

/-- The first `w` bits of the fractional part of the `k`-th root of a number (FIPS 180-4). -/
def rootFrac (k w p : Nat) : Nat := rootBits k (p * (2 ^ w) ^ k) (w + 5) 0 % 2 ^ w

/-- Round constants for words of `w` bits. -/
def shaK (w : Nat) : List Nat := primes80.map (rootFrac 3 w)

/-- The parameters of one member of the family: word size, rounds, and the eight rotation and shift amounts of the functions
S0, S1 (three rotations each) and s0, s1 (two rotations and a shift each). -/
structure Sha where
  w : Nat
  rounds : Nat
  big0 : Nat × Nat × Nat
  big1 : Nat × Nat × Nat
  low0 : Nat × Nat × Nat
  low1 : Nat × Nat × Nat
  deriving DecidableEq, Repr

/-- SHA-256. -/
def sha256P : Sha := ⟨32, 64, (2, 13, 22), (6, 11, 25), (7, 18, 3), (17, 19, 10)⟩

/-- SHA-512 and SHA-384. -/
def sha512P : Sha := ⟨64, 80, (28, 34, 39), (14, 18, 41), (1, 8, 7), (19, 61, 6)⟩

/-- Rotation right of a word of `w` bits. -/
def rotr (w n x : Nat) : Nat := x / 2 ^ n + x % 2 ^ n * 2 ^ (w - n)

/-- Three rotations combined. -/
def Sha.rot3 (p : Sha) (r : Nat × Nat × Nat) (x : Nat) : Nat := (rotr p.w r.1 x).xor ((rotr p.w r.2.1 x).xor (rotr p.w r.2.2 x))

/-- Two rotations and a shift combined. -/
def Sha.rot2 (p : Sha) (r : Nat × Nat × Nat) (x : Nat) : Nat := (rotr p.w r.1 x).xor ((rotr p.w r.2.1 x).xor (x / 2 ^ r.2.2))

/-- The message schedule, newest word first, extended by `n` words. -/
def Sha.extend (p : Sha) : Nat → List Nat → List Nat
  | 0, l => l
  | n + 1, l =>
    let w := (p.rot2 p.low1 (l.getD 1 0) + l.getD 6 0 + p.rot2 p.low0 (l.getD 14 0) + l.getD 15 0) % 2 ^ p.w
    Sha.extend p n (w :: l)

/-- One round over the eight working variables. -/
def Sha.round (p : Sha) (v : List Nat) (kw : Nat) : List Nat :=
  let m := 2 ^ p.w
  let g (i : Nat) : Nat := v.getD i 0
  let ch := ((g 4).land (g 5)).xor ((m - 1 - g 4).land (g 6))
  let maj := ((g 0).land (g 1)).xor (((g 0).land (g 2)).xor ((g 1).land (g 2)))
  let t1 := g 7 + p.rot3 p.big1 (g 4) + ch + kw
  let t2 := p.rot3 p.big0 (g 0) + maj
  [(t1 + t2) % m, g 0, g 1, g 2, (g 3 + t1) % m, g 4, g 5, g 6]

/-- One block absorbed. -/
def Sha.block (p : Sha) (k : List Nat) (h : List Nat) (b : List Octet) : List Nat :=
  let ws := (groupsOf (p.w / 8) 16 b).map ofBeOctets
  let sched := (p.extend (p.rounds - 16) ws.reverse).reverse
  let v := (List.zipWith (fun a b => a + b) k sched).foldl p.round h
  List.zipWith (fun a b => (a + b) % 2 ^ p.w) h v

/-- The hash of octets from an initial value: padding, length, blocks. -/
def Sha.hash (p : Sha) (h0 : List Nat) (m : List Octet) : List Octet :=
  let blk := 2 * p.w
  let lenOct := p.w / 4
  let zeros := (blk - (m.length + 1 + lenOct) % blk) % blk
  let padded := m ++ [0x80] ++ List.replicate zeros 0 ++ beOctets lenOct (8 * m.length)
  let k := (shaK p.w).take p.rounds
  ((groupsOf blk (padded.length / blk) padded).foldl (p.block k) h0).flatMap (fun x => beOctets (p.w / 8) x)

/-- SHA-256 of octets: 32 octets.
[PRESUMED, log entry 16: unsafe] -/
def sha256 (m : List Octet) : List Octet := sha256P.hash ((primes80.take 8).map (rootFrac 2 32)) m

/-- SHA-384 of octets: 48 octets.
[PRESUMED, log entry 16: unsafe] -/
def sha384 (m : List Octet) : List Octet := (sha512P.hash (((primes80.drop 8).take 8).map (rootFrac 2 64)) m).take 48

/-- HMAC-SHA-256 under a key of 32 octets.
[PRESUMED, log entry 16: unsafe] -/
def hmac256 (key m : List Octet) : List Octet :=
  let pad (v : Nat) : List Octet := (key ++ List.replicate (64 - key.length) 0).map (fun o => o ^^^ BitVec.ofNat 8 v)
  sha256 (pad 0x5C ++ sha256 (pad 0x36 ++ m))

/-! ## ECDSA on P-384 -/

/-- The prime of the field of P-384. -/
def p384 : Nat :=
  0xfffffffffffffffffffffffffffffffffffffffffffffffffffffffffffffffeffffffff0000000000000000ffffffff

/-- The order of its base point. -/
def n384 : Nat :=
  0xffffffffffffffffffffffffffffffffffffffffffffffffc7634d81f4372ddf581a0db248b0a77aecec196accc52973

/-- The coefficient b of the curve; a is -3. -/
def b384 : Nat :=
  0xb3312fa7e23ee7e4988e056be3f82d19181d9c6efe8141120314088f5013875ac656398d8a2ed19d2a85c8edd3ec2aef

/-- The base point. -/
def g384 : Nat × Nat :=
  (0xaa87ca22be8b05378eb1c71ef320ad746e1d3b628ba79b9859f741e082542a385502f25dbf55296c3a545e3872760ab7,
   0x3617de4a96262c6f5d9e98bf9292dc29f8f41dbd289a147ce9da3113b5f0b8c00a60b1ce1d7e819d7a431d7c90ea0e5f)

/-- `a ^ e` modulo `m`, over the low `n` bits of `e`. -/
def powMod (a m : Nat) : Nat → Nat → Nat
  | 0, _ => 1
  | n + 1, e => let h := powMod (a * a % m) m n (e / 2); if e % 2 = 1 then h * a % m else h

/-- The inverse modulo a prime of at most 384 bits. -/
def invMod (a m : Nat) : Nat := powMod (a % m) m 384 (m - 2)

/-- The sum of two points of the curve; none is the point at infinity. -/
def addPoint : Option (Nat × Nat) → Option (Nat × Nat) → Option (Nat × Nat)
  | none, q => q
  | p, none => p
  | some (x1, y1), some (x2, y2) =>
    let p := p384
    if x1 = x2 ∧ (y1 + y2) % p = 0 then none
    else
      let s := if x1 = x2 then (3 * x1 * x1 + (p - 3)) * invMod (2 * y1) p % p
        else (y2 + p - y1) * invMod (x2 + p - x1) p % p
      let x := (s * s + 2 * p - x1 - x2) % p
      some (x, (s * (x1 + p - x) + p - y1) % p)

/-- A multiple of a point, over the low `n` bits of the factor. -/
def mulPoint (q : Option (Nat × Nat)) : Nat → Nat → Option (Nat × Nat)
  | 0, _ => none
  | n + 1, k => let h := mulPoint (addPoint q q) n (k / 2); if k % 2 = 1 then addPoint h q else h

/-- (r, s) is a valid signature of a hash under a public key (FIPS 186-5).
[PRESUMED, log entry 16: unsafe] -/
def ecdsa384 (x y r s : Nat) (hash : List Octet) : Bool :=
  let onCurve := decide (x < p384 ∧ y < p384) && (y * y % p384 == (x * x * x + (p384 - 3) * x + b384) % p384)
  if !onCurve || r == 0 || s == 0 || decide (n384 ≤ r ∨ n384 ≤ s) then false
  else
    let w := invMod s n384
    let u1 := ofBeOctets hash * w % n384
    let u2 := r * w % n384
    match addPoint (mulPoint (some g384) 384 u1) (mulPoint (some (x, y)) 384 u2) with
    | none => false
    | some q => q.1 % n384 == r

end Sys2Proof.Machine
end

