-- ==== Sys2Proof/Machine/Boot.lean ====
section
/-! DEFINITION. Rails, reset and HELD (R454 to R459, R476, R477), fuses (R460 to R462), flash and image (R463 to R470),
loading (R471, R472) and release (R473). -/
namespace Sys2Proof.Machine

open Sys2Proof

/-! ## HELD and OFF -/

/-- A device in HELD or OFF with nothing brought up: the board's levels, the flash, the fuses and the test port stand; DRAM
content does not survive (R456, R470), and COUNT is cleared (R42). -/
def Chip.blank (c : Chip) : Chip :=
  { draws := c.draws, out := c.out, jtag := c.jtag
    dev := { c.dev with released := false, tripHeld := false, pcieUp := false, d3hot := false }
    fault := { half0 := c.fault.half0, half1 := c.fault.half1 }
    boot := { burned := c.boot.burned }
    regs := c.regs.filter (fun p => p.1 = slotOf .global_MODE 0 0) }

/-- The device enters HELD (R456, R477): everything is abandoned. -/
def Chip.enterHeld (c : Chip) : Chip := (c.blank).enterMode Md.HELD

/-- THERMTRIP_N takes a level (R499). -/
def Chip.setThermtrip (l : Bool) (c : Chip) : Chip :=
  if l = c.dev.thermtripN then c else (c.modDev (fun d => { d with thermtripN := l })).emit (.pin "THERMTRIP_N" 0 l)

/-- RESET_OR_PWROK_FALL (R456): the device is in HELD; a fall of PWROK ends THERMTRIP_N (R499). Without rails only the
levels change. -/
def Chip.resetFall (pwrok : Bool) (c : Chip) : Chip :=
  let c := c.modDev (fun d => if pwrok then { d with pwrok := false } else { d with resetN := false })
  let c := c.iff pwrok (Chip.setThermtrip true)
  if c.mode = Md.OFF then c
  else
    let trip := c.dev.tripHeld
    (c.enterHeld).modDev (fun d => { d with tripHeld := trip && c.mode == Md.HELD })

/-- RAILS_RISE: OFF to HELD (R477). -/
def Chip.railsRise (c : Chip) : Chip :=
  if c.mode ≠ Md.OFF then c else (c.modDev (fun d => { d with rails := true })).enterMode Md.HELD

/-- RAILS_FALL: HELD to OFF, with PWROK low (R477). -/
def Chip.railsFall (c : Chip) : Chip :=
  if c.mode ≠ Md.HELD ∨ c.dev.pwrok then c
  else ({ ((c.modDev (fun d => { d with rails := false, tripHeld := false })).setThermtrip true).enterMode Md.OFF with jtag := {} } : Chip)

/-- THERMAL_TRIP: a sensor has read the trip threshold on two samples (R499).
[DEDUCED, log entry 84: unsafe] -/
def Chip.thermalTrip (c : Chip) : Chip :=
  if !c.ranger.trip || c.mode == Md.HELD || c.mode == Md.OFF then c
  else ((c.enterHeld).modDev (fun d => { d with tripHeld := true })).setThermtrip false

/-- BRINGUP_START (R455, R457, Table 19.1): from HELD, with the rails up, RESET_N and PWROK high, and after a trip every
sensor below 100 C. BOOTSEL is sampled, COUNT starts, and FUSE begins. -/
def Chip.bringupStart (bootsel : Nat) (cool : Bool) (c : Chip) : Chip :=
  if c.mode ≠ Md.HELD ∨ c.dev.rails = false ∨ (c.dev.tripHeld ∧ cool = false) then c
  else
    let c := (c.blank).modDev (fun d => { d with resetN := true, pwrok := true, pcieUp := d.perstN })
    let c := (c.setThermtrip true).enterMode Md.FUSE
    let slots := if bootsel = 0 then [0, 1] else if bootsel = 1 then [1, 0] else if bootsel = 2 then [0] else [0, 1]
    { c with boot := { c.boot with phase := .fuse, bootsel := bootsel, slot := slots.headD 0, left := slots.tail } }

/-! ## Fuses -/

/-- A fuse bit (R460): programmed at delivery, or since.
[DESIGN CHOICE, log entry 13: safe] -/
def Chip.fuse (c : Chip) (i : Nat) : Bool := Config.fuseBit i || c.boot.burned.contains i

/-- A field of the fuses as a number, from its lowest bit (Table 18.2). -/
def Chip.fuses (c : Chip) (lo n : Nat) : Nat := (List.range n).foldl (fun a i => a + b2n (c.fuse (lo + i)) * 2 ^ i) 0

/-- CRC-8 of a rollback value (R462). -/
def crc8 (v : Nat) : Nat :=
  (List.range 64).foldl (fun r i =>
    let s := r * 2 % 256
    if v.testBit (63 - i) != r.testBit 7 then s ^^^ 7 else s) 0

/-- A rollback slot's value, where it is used and valid. -/
def Chip.rollSlot (c : Chip) (j : Nat) : Option Nat :=
  let s := c.fuses (2560 + 72 * j) 72
  if s ≠ 0 ∧ crc8 (s % 2 ^ 64) = s / 2 ^ 64 then some (s % 2 ^ 64) else none

/-- A rollback slot has a bit programmed. -/
def Chip.rollUsed (c : Chip) (j : Nat) : Bool := c.fuses (2560 + 72 * j) 72 != 0

/-- The fused rollback value: the largest of a valid slot, or 0 (R462). -/
def Chip.rollValue (c : Chip) : Nat := (List.range 32).foldl (fun a j => max a ((c.rollSlot j).getD 0)) 0

/-- FUSE_READ_COMPLETE: LOAD begins (R460). -/
def Chip.fuseRead (c : Chip) : Chip :=
  if c.boot.phase ≠ .fuse then c
  else
    let c := c.enterMode Md.LOAD
    { c with boot := { c.boot with phase := .flash } }

/-- FLASH_SETUP_COMPLETE (R464, R465): no valid SFDP, or less than 256 MiB, is HELD with nothing written.
[DESIGN CHOICE, log entry 118: safe] -/
def Chip.flashSetup (sfdp : Bool) (mib : Nat) (c : Chip) : Chip :=
  if c.boot.phase ≠ .flash then c
  else if !sfdp || decide (mib < 256) then c.enterHeld
  else { c with boot := { c.boot with phase := .header } }

/-! ## The image as read -/

/-- The bring-up state changed. -/
def Chip.modBoot (f : BootSt → BootSt) (c : Chip) : Chip := { c with boot := f c.boot }

/-- The slot under trial fails with a status, at an octet of it (R472). -/
def Chip.slotFail (st off : Nat) (c : Chip) : Chip :=
  c.modBoot (fun b => { b with tries := Cells.insert b.slot ⟨st, off⟩ b.tries, phase := .reset })

/-- A number in little-endian octets of a list. -/
def leAt (l : List Octet) (i n : Nat) : Nat := ofLeOctets ((l.drop i).take n)

/-- The checks of the header (R466).
[DEDUCED, log entry 69: unsafe] -/
def headerOk (h : List Octet) : Bool :=
  h.length == 64 && h.take 4 == [0x5A, 0x44, 0x49, 0x4D] && leAt h 4 2 == 1 && decide (leAt h 6 2 < 2) &&
    leAt h 8 4 == 0x9612 && leAt h 12 4 % 4 == 0 && decide (64 ≤ leAt h 12 4 ∧ leAt h 12 4 ≤ 100663096) &&
    ((h.drop 32).take 28).all (fun o => o == 0) && leAt h 60 4 == crc32c (h.take 60)

/-- The records have all been read: the signature block comes next, unless their number disagrees with NREC (R467). -/
def Chip.recordsEnd (off : Nat) (c : Chip) : Chip :=
  if c.boot.image.length ≠ c.boot.total then c
  else if c.boot.nread ≠ c.boot.nrec then c.slotFail St.FORMAT off
  else c.modBoot (fun b => { b with phase := .signature })

/-- IMAGE_HEADER: the 64 octets at the start of the slot are checked (R466). -/
def Chip.imageHeader (h : List Octet) (c : Chip) : Chip :=
  if c.boot.phase ≠ .header then c
  else if !headerOk h then c.slotFail St.FORMAT 0
  else
    let c := c.modBoot (fun b => { b with
      rollFwd := (leAt h 6 2).testBit 0, total := leAt h 12 4, rollback := leAt h 16 8, nrec := leAt h 24 4
      build := leAt h 28 4, image := h, nread := 0, pass1 := [], pass2 := [], phase := .records })
    c.recordsEnd 64

/-- The octets of a record with a payload of `n` octets (Table 18.5). -/
def recordLen (n : Nat) : Nat := ceilDiv (8 + n) 4 * 4 + 4

/-- IMAGE_RECORD_READ: the next record's octets; its frame, CRC, TYPE and count are checked (R467).
[DEDUCED, log entry 69: unsafe] -/
def Chip.imageRecord (l : List Octet) (c : Chip) : Chip :=
  if c.boot.phase ≠ .records then c
  else
    let off := c.boot.image.length
    let ty := leAt l 0 2
    let n := leAt l 4 4
    let len := recordLen n
    let bad := l.length != len || decide (c.boot.total < off + len) || leAt l (len - 4) 4 != crc32c (l.take (len - 4)) ||
      (decide (ty < 0x8000) && decide (ty = 0 ∨ 0xD < ty)) || decide (c.boot.nrec < c.boot.nread + 1)
    if bad then c.slotFail St.FORMAT off
    else
      let r : BootRec := { ty := ty, off := off, payload := (l.drop 8).take n }
      let c := c.modBoot (fun b => { b with
        image := b.image ++ l, nread := b.nread + 1
        pass1 := if ty ≤ 9 then b.pass1 ++ [r] else b.pass1
        pass2 := if 0xA ≤ ty ∧ ty ≤ 0xD then b.pass2 ++ [r] else b.pass2 })
      c.recordsEnd off

/-- SIGNATURE_BLOCK: 200 octets, checked against KEYHASH, the image and the rollback value (R461, R468).
[DESIGN CHOICE, log entry 15: unsafe] -/
def Chip.signatureBlock (l : List Octet) (c : Chip) : Chip :=
  if c.boot.phase ≠ .signature then c
  else
    let key := l.take 97
    let be (a n : Nat) : Nat := ofBeOctets ((l.drop a).take n)
    let good := c.fuse 2520 && decide (ofLeOctets (sha384 key) = c.fuses 2136 384) && (l.headD 0 == 4) &&
      ecdsa384 (be 1 48) (be 49 48) (be 97 48) (be 145 48) (sha384 c.boot.image)
    let st := St.pick [St.when (!good) St.AUTH, St.when (decide (c.boot.rollback < c.rollValue)) St.ROLLBACK]
    if st ≠ St.OK then c.slotFail st c.boot.total else c.modBoot (fun b => { b with phase := .pass1 })

/-! ## Records applied -/

/-- Octets of `n` words in the PACK layout. -/
def packLen (n : Nat) : Nat := 36 * ceilDiv n 8

/-- The head of pass 1 or pass 2 is applied, if it has the TYPE: it leaves the list, or the slot fails at it. -/
def Chip.applyRecord (two : Bool) (ty : Nat) (f : List Octet → Chip → Nat × Chip) (c : Chip) : Chip :=
  if c.boot.phase ≠ (if two then .pass2 else .pass1) then c
  else match (if two then c.boot.pass2 else c.boot.pass1) with
    | [] => c
    | r :: rest =>
      if r.ty ≠ ty then c
      else
        let (st, c) := f r.payload c
        if st ≠ St.OK then c.slotFail st r.off
        else c.modBoot (fun b => if two then { b with pass2 := rest } else { b with pass1 := rest })

/-- Entries applied in order while each is answered with OK. -/
def Chip.inOrder {α : Type} (f : α → Chip → Nat × Chip) : List α → Chip → Nat × Chip
  | [], c => (St.OK, c)
  | x :: r, c =>
    let (st, c) := f x c
    if st ≠ St.OK then (st, c) else Chip.inOrder f r c

/-- Payload cut into entries of `n` octets. -/
def entriesOf (n : Nat) (l : List Octet) : List (List Octet) := groupsOf n (l.length / n) l

/-- One entry of a REGS record (R515): an image write. -/
def Chip.regsEntry (e : List Octet) (c : Chip) : Nat × Chip :=
  let off := leAt e 0 4
  if off % 8 ≠ 0 ∨ 0x4000000 ≤ off then (St.RANGE, c) else c.imageWrite off (wofNat (leAt e 4 8))

/-- A REGS record (R469, R515).
[DEDUCED, log entry 110: safe] -/
def Chip.regsRecord (l : List Octet) (c : Chip) : Nat × Chip :=
  if l.length % 12 ≠ 0 then (St.FORMAT, c) else Chip.inOrder Chip.regsEntry (entriesOf 12 l) c

/-- Words written into program memories from an address on. -/
def Chip.loadProg (mems : List Nat) (a : Nat) (ws : List Word) (c : Chip) : Chip :=
  let c := { c with upsets := c.upsets.filter (fun u => match u with
    | .progWord m x => !(mems.contains m && decide (a ≤ x ∧ x < a + ws.length))
    | _ => true) }
  c.modBoot (fun b => { b with prog := mems.foldl (fun p m =>
    (ws.zipIdx).foldl (fun p x => Cells.insert (m * 2 ^ 18 + a + x.2) x.1 p) p) b.prog })

/-- The twelve cluster program memories. -/
def clusterMems : List Nat := List.range 12

/-- A PROGRAM record (R469).
[DEDUCED, log entry 69: unsafe] -/
def Chip.programRecord (l : List Octet) (c : Chip) : Nat × Chip :=
  let t := leAt l 0 1
  let a := leAt l 4 4
  let n := leAt l 8 4
  let st := St.pick [St.when (l.length ≠ 12 + packLen n) St.FORMAT,
    St.when (1 < t ∨ 0x40000 < a + n ∨ (t = 0 ∧ 0x20000 < a + n)) St.RANGE]
  if st ≠ St.OK then (st, c)
  else (St.OK, c.loadProg (if t = 0 then clusterMems else [12]) a (packIn n (l.drop 12)))

/-- A PATCH record (R268, R469). -/
def Chip.patchRecord (l : List Octet) (c : Chip) : Nat × Chip :=
  let es := (entriesOf 8 l).map (fun e => (leAt e 0 4, leAt e 4 4))
  let all := c.boot.patches ++ es
  let bad := es.any (fun e => decide (e.1 % 2 = 1 ∨ e.1 < 0x40000 ∨ 0x60000 ≤ e.1 ∨ e.2 % 2 = 1 ∨ 0x20000 ≤ e.2))
  let st := St.pick [St.when (l.length % 8 ≠ 0 ∨ (all.map (·.1)).eraseDups.length ≠ all.length) St.FORMAT,
    St.when (bad || decide (64 < all.length)) St.RANGE]
  if st ≠ St.OK then (st, c)
  else (St.OK, (c.modBoot (fun b => { b with patches := all })).put F.coredbg_STATUS_PATCHES all.length)

/-- A CUSTOM record (R269, R469).
[DEDUCED, log entry 69: unsafe] -/
def Chip.customRecord (l : List Octet) (c : Chip) : Nat × Chip :=
  let id := leAt l 0 1
  let mask := leAt l 1 1
  let load := leAt l 4 4
  let entry := leAt l 8 4
  let n := leAt l 20 4
  let st := St.pick [St.when (l.length ≠ 24 + packLen n) St.FORMAT,
    St.when (63 < id ∨ mask = 0 ∨ (Cells.find? id c.customs).isSome ∨ entry < 0x20000 ∨ 0x40000 ≤ entry
      ∨ load < 0x20000 ∨ 0x40000 < load + n ∨ 0x20000 < c.boot.customWords + n) St.RANGE]
  if st ≠ St.OK then (st, c)
  else
    let x : CustomSt := { mask := mask, load := load, entry := entry, cost := leAt l 12 4, state := leAt l 16 4, words := n }
    let c := (c.loadProg clusterMems load (packIn n (l.drop 24))).modBoot (fun b => { b with customWords := b.customWords + n })
    let c := { c with customs := Cells.insert id x c.customs }
    (St.OK, c.put F.coredbg_STATUS_CUSTOMS c.customs.length)

/-- A detector word that Table 6.8 marks FORMAT: FREQ or BW out of range. -/
def detectorBad (w : Word) : Bool :=
  let f := wbits w 34 18
  decide ((1 ≤ f ∧ f ≤ 999) ∨ 80000 < f ∨ wbits w 17 16 = 3)

/-- A TONESET record (R175, R469). -/
def Chip.tonesetRecord (l : List Octet) (c : Chip) : Nat × Chip :=
  let ws := packIn 33 l
  let n := wbits (ws.getD 0 0) 35 30
  if l.length ≠ 180 ∨ n = 0 ∨ (List.range 16).any (fun d => detectorBad (ws.getD (1 + 2 * d) 0)) then (St.FORMAT, c)
  else (St.OK, { c with tonesets := Cells.insert n ws c.tonesets })

/-- A KERFSET record (R469, Table 5.12). -/
def Chip.kerfsetRecord (l : List Octet) (c : Chip) : Nat × Chip :=
  let b := leAt l 0 1
  let s := leAt l 1 1
  let h := wofNat (leAt l 4 8)
  let n := leAt l 12 4
  let st := St.pick [St.when (l.length ≠ 16 + packLen n) St.FORMAT,
    St.when (1 < b ∨ 15 < s ∨ 4096 < n ∨ wbits h 13 7 = 0 ∨ 64 < wbits h 13 7 ∨ 64 < wbits h 6 0) St.RANGE]
  if st ≠ St.OK then (st, c)
  else
    let c := c.writeSetHdr b s h
    (St.OK, ((packIn n (l.drop 16)).zipIdx).foldl (fun c p => c.putCoef ((b * 16 + s) * 4096 + p.2) p.1) c)

/-- A MGMTKEY record (R469). -/
def Chip.mgmtkeyRecord (l : List Octet) (c : Chip) : Nat × Chip :=
  let id := leAt l 0 1
  let st := St.pick [St.when (l.length ≠ 36 ∨ (Cells.find? id c.host.keys).isSome) St.FORMAT, St.when (3 < id) St.RANGE]
  if st ≠ St.OK then (st, c)
  else (St.OK, c.modHost (fun h => { h with keys := Cells.insert id (l.drop 4) h.keys }))

/-- A BOOT record (R469). -/
def Chip.bootRecord (l : List Octet) (c : Chip) : Nat × Chip :=
  let es := (entriesOf 4 l).map (fun e => leAt e 0 4)
  let st := St.pick [St.when (l.length ≠ 16 ∨ c.boot.entries.isSome) St.FORMAT,
    St.when (es.any (fun a => decide (a % 2 = 1 ∨ 0x60000 ≤ a))) St.RANGE]
  if st ≠ St.OK then (st, c) else (St.OK, c.modBoot (fun b => { b with entries := some es }))

/-- The policy registers that hold a field. -/
def polRegs : List RegName := [.ranger_POL0, .ranger_POL1, .ranger_POL2, .ranger_POL3, .ranger_POL4]

/-- A RANGER record (R501). -/
def Chip.rangerRecord (l : List Octet) (c : Chip) : Nat × Chip :=
  let ws := packIn 16 l
  let pairs := polRegs.zip ws
  let reserved := pairs.any (fun p => (p.1.info.written true 0 p.2) != p.2) || (ws.drop 5).any (fun w => w != 0)
  let st := St.pick [St.when (l.length ≠ 72 || reserved) St.FORMAT,
    St.when (pairs.any (fun p => imageRange p.1 p.2)) St.RANGE]
  if st ≠ St.OK then (st, c) else (St.OK, pairs.foldl (fun c p => c.wr p.1 p.2) c)

/-- A DRAMZERO record (R469): whole bursts, so no read is involved. -/
def Chip.dramzeroRecord (l : List Octet) (c : Chip) : Nat × Chip :=
  let a := leAt l 0 8
  let n := leAt l 8 8
  if l.length ≠ 16 then (St.FORMAT, c)
  else if n = 0 then (St.OK, c)
  else if c.dramBursts < a + n then (St.RANGE, c)
  else (St.OK, { c with dram := Cells.clear a (a + n) c.dram, zeroed := (a, n) :: c.zeroed })

/-- A DRAMFILL record (R469, R470). -/
def Chip.dramfillRecord (l : List Octet) (c : Chip) : Nat × Chip :=
  let a := leAt l 0 8
  let n := leAt l 8 4
  let st := St.pick [St.when (l.length ≠ 12 + packLen n ∨ n % 16 ≠ 0) St.FORMAT,
    St.when (n ≠ 0 ∧ c.dramBursts < a + n / 16) St.RANGE]
  if st ≠ St.OK then (st, c) else (St.OK, c.putBursts a (packIn n (l.drop 12)) Src.CTL)

/-- A V6ADDR record (R469).
[DEDUCED, log entry 110: safe] -/
def Chip.v6addrRecord (l : List Octet) (c : Chip) : Nat × Chip :=
  if l.length % 20 ≠ 0 then (St.FORMAT, c)
  else Chip.inOrder (fun e c =>
    if 65535 < leAt e 0 4 then (St.RANGE, c) else c.v6Set (leAt e 0 4) (ofBeOctets (e.drop 4))) (entriesOf 20 l) c

/-- A FLOWS record (R469).
[DEDUCED, log entry 110: safe] -/
def Chip.flowsRecord (l : List Octet) (c : Chip) : Nat × Chip :=
  if l.length % 36 ≠ 0 then (St.FORMAT, c)
  else Chip.inOrder (fun e c => let r := c.flowInsert (packIn 8 e); (r.1, r.2.2)) (entriesOf 36 l) c

/-! ## The end of the passes -/

/-- The cross-field checks at the end of pass 1 (R411, R471, R501).
[DEDUCED, log entry 70: unsafe] -/
def Chip.crossStatus (c : Chip) : Nat :=
  let rates := ((List.range 4).filter (fun k => c.flag F.mc_FP_CFG_EN k)).map (fun k => 4800 + 400 * c.fld F.mc_FP_CFG_RATE k)
  let slow := rates.foldl min 6400
  let chans := 2 ^ (c.fld F.mc_CFG_CHANNELS + 1)
  St.pick [
    St.when c.boot.entries.isNone St.FORMAT,
    St.when (decide (chans * slow * 4500 < c.fld F.chan_DRAMBUDGET_KBPS ∨
      12 * c.fld F.chan_CLCEIL_CEIL < c.fld F.chan_LUCEIL_CEIL) || !c.flag F.mc_FP_CFG_EN 0 ||
      decide (c.fld F.chan_LUCEIL_CEIL ≤ c.fld F.ranger_POL1_ECOLU) ||
      !c.flag F.mc_FP_CFG_EN (c.fld F.ranger_POL2_ECOFP) ||
      decide (c.fld F.ranger_POL3_UPTHR ≤ c.fld F.ranger_POL3_DOWNTHR)) St.RANGE]

/-- PASS1_COMPLETE: every pass-1 record is applied; the cross-field checks, then TRAIN (R471).
[DEDUCED, log entry 70: unsafe] -/
def Chip.pass1Complete (c : Chip) : Chip :=
  if c.boot.phase ≠ .pass1 ∨ !c.boot.pass1.isEmpty then c
  else if c.crossStatus ≠ St.OK then c.slotFail c.crossStatus 0xFFFFFFFF
  else (c.enterMode Md.TRAIN).modBoot (fun b => { b with phase := .train })

/-- BOOTINFO.BOOT for the slots as tried (Table 18.16). -/
def BootSt.word (b : BootSt) (slot advanced : Nat) : Word :=
  let f (s : Nat) : Nat × Nat := match Cells.find? s b.tries with | some t => (1, t.status) | none => (0, 0)
  wofNat (b.bootsel * 2 ^ 34 + slot * 2 ^ 33 + (f 0).1 * 2 ^ 32 + (f 0).2 * 2 ^ 26 + (f 1).1 * 2 ^ 25 + (f 1).2 * 2 ^ 19
    + advanced * 2 ^ 18)

/-- Bring-up ends without a good slot: its entry is written and the device enters HELD (R472, Table 19.9).
[DEDUCED, log entry 71: unsafe] -/
def Chip.bringupFails (c : Chip) : Chip :=
  let off (s : Nat) : Nat := match Cells.find? s c.boot.tries with | some t => t.off | none => 0xFFFFFFFF
  let payload := leOctets 8 (c.boot.word 0 0).toNat ++ leOctets 4 (off 0) ++ leOctets 4 (off 1)
  let c := c.iff (!c.fault.scanned) Chip.scanArea
  let e := c.makeEntry 2 payload
  (c.iff (c.freeEntries != 0) (Chip.writeEntry e)).enterHeld

/-- TRAINING_COMPLETE: the declared ranks and the lanes of the enabled ports have trained, or step 5 fails (R471, R472).
[DESIGN CHOICE, log entry 118: safe] -/
def Chip.trainingComplete (ok : Bool) (c : Chip) : Chip :=
  if c.boot.phase ≠ .train then c
  else if !ok then
    (c.modBoot (fun b => { b with tries := Cells.insert b.slot ⟨St.NOTREADY, 0xFFFFFFFF⟩ b.tries })).bringupFails
  else
    let subs := 2 * 2 ^ (c.fld F.mc_CFG_CHANNELS + 1)
    (c.put F.mc_STATUS_TRAINED (2 ^ subs - 1)).modBoot (fun b => { b with phase := .pass2 })

/-- SLOT_RESET_COMPLETE: every block is as at the start of FUSE, DRAM and fuses apart; the next slot is tried, or bring-up
ends (R472). -/
def Chip.slotReset (c : Chip) : Chip :=
  if c.boot.phase ≠ .reset then c
  else match c.boot.left with
    | [] => c.bringupFails
    | s :: rest =>
      let b := c.boot
      let c : Chip := { c.blank with count := c.count, dev := c.dev, dram := c.dram, zeroed := c.zeroed
                                     fault := { c.fault with queue := [] } }
      let c := c.enterMode Md.LOAD
      { c with boot := { burned := b.burned, phase := .header, bootsel := b.bootsel, slot := s, left := rest, tries := b.tries } }

/-! ## Release (R473) -/

/-- The boot epoch advanced, from 2^32 - 1 to 1, never 0 (R452). -/
def nextEpoch (e : Nat) : Nat := if e + 1 < 2 ^ 32 then e + 1 else 1

/-- The fuse bits of a rollback slot that holds a value. -/
def rollBits (j v : Nat) : List Nat :=
  let s := v + crc8 v * 2 ^ 64
  ((List.range 72).filter (fun i => s.testBit i)).map (fun i => 2560 + 72 * j + i)

/-- Step 2 of R473: whether a slot was programmed, and whether every slot was used.
[DESIGN CHOICE, log entry 14: unsafe] -/
def Chip.advanceRoll (c : Chip) : Bool × Bool × Chip :=
  if !c.boot.rollFwd || decide (c.boot.rollback ≤ c.rollValue) then (false, false, c)
  else match (List.range 32).find? (fun j => !c.rollUsed j) with
    | none => (false, true, c)
    | some j =>
      let s := c.boot.rollback + crc8 c.boot.rollback * 2 ^ 64
      let c := c.emit (.fuse (2560 + 72 * j) ((List.range 72).map (fun i => s.testBit i)))
      (true, false, c.modBoot (fun b => { b with burned := b.burned ++ rollBits j b.rollback }))

/-- Step 3: the BOOTINFO registers (Tables 18.10 to 18.21).
[DEDUCED, log entry 129: unsafe] -/
def Chip.fillBootinfo (advanced full : Bool) (c : Chip) : Chip :=
  let b := c.boot
  let serial := c.fuses 2072 64
  let roll := c.rollValue
  let used := ((List.range 32).filter (fun j => c.rollUsed j)).length
  let c := ((c.put F.bootinfo_IDENT_VENDOR (c.fuses 2048 16)).put F.bootinfo_IDENT_GRADE (c.fuses 2064 2)).put
    F.bootinfo_IDENT_SPEED (c.fuses 2066 4)
  let c := (c.wr .bootinfo_SERIALLO (wofNat serial)).wr .bootinfo_SERIALHI (wofNat (serial / 2 ^ 36))
  let c := (((c.put F.bootinfo_FUSESTAT_ROLLUSED used).put F.bootinfo_FUSESTAT_ROLLFULL (b2n full)).put
    F.bootinfo_FUSESTAT_DBGLOCK (b2n (c.fuse 2521))).put F.bootinfo_FUSESTAT_KEYSET (b2n (c.fuse 2520))
  let c := (c.wr .bootinfo_ROLLLO (wofNat roll)).wr .bootinfo_ROLLHI (wofNat (roll / 2 ^ 36))
  let c := (c.wr .bootinfo_BOOT (b.word b.slot (b2n advanced))).put F.bootinfo_IMAGE_BUILD b.build
  let c := (c.wr .bootinfo_IMGROLLLO (wofNat b.rollback)).wr .bootinfo_IMGROLLHI (wofNat (b.rollback / 2 ^ 36))
  let c := (c.put F.bootinfo_IMGSIZE_TOTAL b.total).wr .bootinfo_BRINGUP (wofNat (c.count / 1250))
  c.put F.coredbg_STATUS_DBGLOCK (b2n (c.fuse 2521))

/-- The cores start (R261, R263, R473): control cores at their BOOT entries in supervisor mode, channel cores in TAKE.
[DESIGN CHOICE, log entry 10: unsafe] [DEDUCED, log entry 62: safe] -/
def Chip.startCores (c : Chip) : Chip :=
  let es := c.boot.entries.getD []
  let c := forRange 4 (fun k c => c.modCore (96 + k) (fun _ => { wait := .run, pc := es.getD k 0 })) c
  forRange 96 (fun k c => c.modCore k (fun _ => { wait := .take, pc := Config.dispatchEntry % 2 ^ 19 })) c

/-- Step 4: the device is released (R473, R516): the loader's copies are discarded, BAR accesses are served, the cores and
the ports that the image enables start, and the mode is ACQUIRE, with the time unit armed (R49), or TEST. -/
def Chip.setFree (c : Chip) : Chip :=
  let m := if c.boot.bootsel = 3 then Md.TEST else Md.ACQUIRE
  let c := ({ c with preqs := [] } : Chip).enterMode m
  let c := (c.put F.fault_BASE_BASE m).put F.time_STATUS_ARMED (b2n (m == Md.ACQUIRE))
  let c := (c.modDev (fun d => { d with released := true })).modBoot (fun b => { b with phase := .done, image := [] })
  let c := forRange 64 (fun p c => if c.flag F.mac_CFG_EN p then c.acquire p else c) c
  c.releaseMem.startGpio.startCores

/-- RELEASE: pass 2 has succeeded and the fault-record area has been scanned (R473, R488).
[DESIGN CHOICE, log entry 2: safe] [DESIGN CHOICE, log entry 14: unsafe] -/
def Chip.release (c : Chip) : Chip :=
  if c.boot.phase ≠ .pass2 ∨ !c.boot.pass2.isEmpty ∨ !c.fault.scanned then c
  else
    let c := c.modBoot (fun b => { b with tries := Cells.insert b.slot ⟨St.OK, 0⟩ b.tries })
    let c := c.modFault (fun f => { f with epoch := nextEpoch f.epoch })
    let c := c.put F.hostdma_EPOCH_EPOCH c.fault.epoch
    let e := c.makeEntry 1 []
    let c := if c.freeEntries = 0 then c.raiseEntry 1 [] else c.writeEntry e
    let (advanced, full, c) := c.advanceRoll
    (c.fillBootinfo advanced full).setFree

/-! ## The fault-record queue after release -/

/-- FAULT_RECORD_WRITTEN: the oldest queued entry is written, where an erased one is left (R489); after a STORM entry the
device enters HELD (R484). -/
def Chip.recordWritten (c : Chip) : Chip :=
  match c.fault.queue with
  | [] => c
  | e :: rest =>
    if c.freeEntries = 0 then c
    else
      let c := (c.modFault (fun f => { f with queue := rest })).writeEntry e
      if e.ty = 6 then c.enterHeld else c

/-- A fault storm ends in HELD within 2 ms, its entry written or not (R484).
[DESIGN CHOICE, log entry 3: safe] -/
def Chip.stormLimit (c : Chip) : Chip :=
  match c.fault.storm with
  | some t => if t + 2500000 ≤ c.count then c.enterHeld else c
  | none => c

end Sys2Proof.Machine
end

