-- ==== Sys2Proof/Machine/Jtag.lean ====
section
/-! DEFINITION. The test port (R508, R461): the TAP of IEEE 1149.1, its instruction and data registers, the boundary
register and the provisioning of fuses. -/
namespace Sys2Proof.Machine

open Sys2Proof

/-- The TAP's next state at a rising edge of JTAG_TCK (R508, IEEE 1149.1). -/
def TapState.next (s : TapState) (tms : Bool) : TapState :=
  match s with
  | .logicReset => if tms then .logicReset else .idle
  | .idle => if tms then .selectDr else .idle
  | .selectDr => if tms then .selectIr else .captureDr
  | .captureDr => if tms then .exit1Dr else .shiftDr
  | .shiftDr => if tms then .exit1Dr else .shiftDr
  | .exit1Dr => if tms then .updateDr else .pauseDr
  | .pauseDr => if tms then .exit2Dr else .pauseDr
  | .exit2Dr => if tms then .updateDr else .shiftDr
  | .updateDr => if tms then .selectDr else .idle
  | .selectIr => if tms then .logicReset else .captureIr
  | .captureIr => if tms then .exit1Ir else .shiftIr
  | .shiftIr => if tms then .exit1Ir else .shiftIr
  | .exit1Ir => if tms then .updateIr else .pauseIr
  | .pauseIr => if tms then .exit2Ir else .pauseIr
  | .exit2Ir => if tms then .updateIr else .shiftIr
  | .updateIr => if tms then .selectDr else .idle

/-- IDCODE (R508). -/
def Chip.idcode (c : Chip) : Nat := 0x1 * 2 ^ 28 + 0x9612 * 2 ^ 12 + c.fuses 2048 11 * 2 + 1

/-- The TAP changed. -/
def Chip.modJtag (f : JtagSt → JtagSt) (c : Chip) : Chip := { c with jtag := f c.jtag }

/-- A register shifted by one bit: JTAG_TDI enters at its far end. -/
def shiftIn (tdi : Bool) : List Bool → List Bool
  | [] => []
  | _ :: r => r ++ [tdi]

/-- The data register that the instruction in force selects, as it is captured: BYPASS, IDCODE, the boundary register with
the levels at the pins, or the provisioning register.
[DEDUCED, log entry 111: safe] -/
def Chip.captured (c : Chip) : List Bool :=
  if c.jtag.code = 1 then (List.range 32).map (fun i => c.idcode.testBit i)
  else if c.jtag.code = 2 ∨ c.jtag.code = 3 then (List.range Config.bsrLength).map (fun i => Config.freeBit (c.draws + i))
  else if c.jtag.code = 5 then (List.range Config.fuseRegLength).map (fun i => Config.freeBit (c.draws + i))
  else [false]

/-- The rising edge of JTAG_TCK: what the present state captures or shifts, and the next state. -/
def Chip.tckRise (tms tdi : Bool) (c : Chip) : Chip :=
  let c := match c.jtag.state with
    | .captureIr => { c with
        draws := c.draws + Config.irLength
        jtag := { c.jtag with ir := (List.range Config.irLength).map (fun i =>
          if i = 0 then true else if i = 1 then false else Config.freeBit (c.draws + i)) } }
    | .shiftIr => c.modJtag (fun j => { j with ir := shiftIn tdi j.ir })
    | .captureDr => { c with draws := c.draws + c.captured.length, jtag := { c.jtag with dr := c.captured } }
    | .shiftDr => c.modJtag (fun j => { j with dr := shiftIn tdi j.dr })
    | _ => c
  c.modJtag (fun j => { j with state := j.state.next tms })

/-- The boundary register drives the pins: EXTEST or CLAMP in force, in any mode from HELD onward (R505, R508). -/
def Chip.boundaryDrives (c : Chip) : Bool :=
  c.jtag.trstN && (c.jtag.code == 3 || c.jtag.code == 4) && c.mode != Md.OFF

/-- The level that the boundary register gives a pin, by its cell: none while the pin takes its functional state. -/
def Chip.pinForced (c : Chip) (cell : Nat) : Option Bool := if c.boundaryDrives then c.jtag.latches[cell]? else none

/-- The pins as the boundary register drives them. -/
def Chip.drivePins (c : Chip) : Chip :=
  if !c.boundaryDrives then c
  else c.jtag.latches.zipIdx.foldl (fun c p => c.emit (.pin "BOUNDARY" p.2 p.1)) c

/-- Fuse provisioning (R461): bits of KEYHASH, KEYSET and DBGLOCK, and of no other field, while KEYSET is 0.
[DESIGN CHOICE, log entry 112: safe] -/
def Chip.provision (bits : List Nat) (c : Chip) : Chip :=
  if c.fuse 2520 then c
  else
    let new := bits.filter (fun b => decide (2136 ≤ b ∧ b ≤ 2521) && !c.fuse b)
    new.foldl (fun c b => (c.modBoot (fun s => { s with
      burned := if s.burned.contains b then s.burned else s.burned ++ [b] })).emit (.fuse b [true])) c

/-- The number that a shift register holds, its first bit the lowest. -/
def bitsNat (l : List Bool) : Nat := l.foldr (fun b n => 2 * n + b2n b) 0

/-- The update that takes effect at the falling edge of JTAG_TCK.
[DESIGN CHOICE, log entry 112: safe] -/
def Chip.tckUpdate (c : Chip) : Chip :=
  match c.jtag.state with
  | .logicReset => c.modJtag (fun j => { j with code := 1 })
  | .updateIr => (c.modJtag (fun j => { j with code := Config.irCode (bitsNat j.ir) })).drivePins
  | .updateDr =>
    if c.jtag.code = 2 ∨ c.jtag.code = 3 then (c.modJtag (fun j => { j with latches := j.dr })).drivePins
    else if c.jtag.code = 5 then c.provision (Config.fuseRegBits c.jtag.dr)
    else c
  | _ => c

/-- The level of JTAG_TDO from a falling edge on: driven in Shift-IR and Shift-DR only (Table 20.3). -/
def JtagSt.out (j : JtagSt) : Option Bool :=
  match j.state with
  | .shiftIr => some (j.ir.headD false)
  | .shiftDr => some (j.dr.headD false)
  | _ => none

/-- JTAG_TDO takes its level, or is released. -/
def Chip.driveTdo (c : Chip) : Chip :=
  match c.jtag.out with
  | some b => (c.modJtag (fun j => { j with tdo := some b })).emit (.tdo b)
  | none => c.modJtag (fun j => { j with tdo := none })

/-- The falling edge of JTAG_TCK: updates take effect, and JTAG_TDO takes its level. -/
def Chip.tckFall (c : Chip) : Chip := c.tckUpdate.driveTdo

/-- The TAP held in Test-Logic-Reset by JTAG_TRST_N (R508): no instruction but IDCODE, every pin in its functional state. -/
def JtagSt.held (j : JtagSt) : JtagSt := { j with trstN := false, state := .logicReset, code := 1, tdo := none }

/-- JTAG_TCK_EDGE: an edge of JTAG_TCK with the levels of JTAG_TRST_N, JTAG_TMS and JTAG_TDI at it (R508). Without rails
the test port has no supply.
[DEDUCED, log entry 111: safe] -/
def Chip.tckEdge (rise trstN tms tdi : Bool) (c : Chip) : Chip :=
  if c.mode = Md.OFF then c
  else if !trstN then c.modJtag JtagSt.held
  else
    let c := c.modJtag (fun j => { j with trstN := true })
    if rise then c.tckRise tms tdi else c.tckFall

/-- JTAG_TRST_N_FALL (R508). -/
def Chip.trstFall (c : Chip) : Chip := c.modJtag JtagSt.held

end Sys2Proof.Machine
end

