-- ==== Sys2Proof/Machine/Mgmt.lean ====
section
/-! DEFINITION. Management datagrams (R30, R450 to R453): judged in order, and their operations run as requester KC0. -/
namespace Sys2Proof.Machine

open Sys2Proof

/-- The UDP datagram of a frame: transport (1 IPv4, 2 IPv6), place of the UDP header, source and destination port. -/
def udpOf (l : List Octet) : Option (Nat × Nat × Nat × Nat) :=
  match layer4Full l with
  | some (tr, p, o, f) => if p = 17 ∧ f = false then some (tr, o, be16 l o, be16 l (o + 2)) else none
  | none => none

/-- Octets exchanged between two places of a frame. -/
def swapAt (i j n : Nat) (l : List Octet) : List Octet :=
  patch (patch l i ((l.drop j).take n)) j ((l.drop i).take n)

/-- The frame that answers a datagram's sender with a payload: addresses and ports exchanged, lengths and checksums
filled in (R453).
[DEDUCED, log entry 68: unsafe] -/
def replyFrame (l : List Octet) (tr o : Nat) (pay : List Octet) : List Octet :=
  let l3 := (tagsOf l).1 + 2
  let h := swapAt 0 6 6 (l.take (o + 8))
  let h := swapAt o (o + 2) 2 h
  let h := if tr = 1 then swapAt (l3 + 12) (l3 + 16) 4 h else swapAt (l3 + 8) (l3 + 24) 16 h
  let ulen := 8 + pay.length
  let h := patch (patch h (o + 4) (beOctets 2 ulen)) (o + 6) [0, 0]
  let h := if tr = 1 then
      let h := patch (patch h (l3 + 2) (beOctets 2 (o - l3 + ulen))) (l3 + 10) [0, 0]
      patch h (l3 + 10) (beOctets 2 (65535 - onesSum ((h.drop l3).take (o - l3)) 0))
    else patch h (l3 + 4) (beOctets 2 (o - l3 - 40 + ulen))
  let addrs := if tr = 1 then (h.drop (l3 + 12)).take 8 else (h.drop (l3 + 8)).take 32
  let sum := onesSum (h.drop o ++ pay) (onesSum addrs (17 + ulen))
  patch h (o + 6) (beOctets 2 (csumOf sum)) ++ pay

/-- A datagram's payload with its tag (R450). -/
def tagged (key body : List Octet) : List Octet := body ++ hmac256 key body

/-- The fixed part of a response (R450): TYPE, KEYID, NOPS, SEQ and DEVICE. -/
def mgmtHead (ty key nops seq dev : Nat) : List Octet :=
  [1, BitVec.ofNat 8 ty, BitVec.ofNat 8 key, BitVec.ofNat 8 nops] ++ beOctets 8 seq ++ beOctets 4 dev ++ List.replicate 16 0

/-- One operation of a datagram, as a 36-bit access by KC0 (R453): its octets in the response.
[DEDUCED, log entry 68: unsafe] -/
def Chip.mgmtOp (op : List Octet) (c : Chip) : List Octet × Chip :=
  let kind := at8 op 0
  let off := be32 op 4
  let val := ofBeOctets ((op.drop 8).take 8)
  let out (st v : Nat) : List Octet := [BitVec.ofNat 8 kind, BitVec.ofNat 8 st, 0, 0] ++ beOctets 4 off ++ beOctets 8 v
  if off % 8 ≠ 0 ∨ 0x3FFFFF8 < off then (out St.RANGE val, c)
  else if kind = 1 then
    let (v, c) := c.busRead .kc0 off
    (out St.OK v.toNat, c)
  else if kind = 2 then (out St.OK val, c.busWrite .kc0 off (wofNat val))
  else (out St.OK val, c)

/-- The operations of a datagram, in order. -/
def Chip.mgmtOps : List (List Octet) → Chip → List Octet × Chip
  | [], c => ([], c)
  | op :: r, c =>
    let (a, c) := c.mgmtOp op
    let (b, c) := Chip.mgmtOps r c
    (a ++ b, c)

/-- The first check of R452: length, VER, TYPE, reserved fields, a KEYID without a key, DEVICE. -/
def Chip.mgmtFormatOk (c : Chip) (pay : List Octet) : Bool :=
  let nops := at8 pay 3
  let ops := (groupsOf 16 nops (pay.drop 32))
  decide (pay.length = 64 + 16 * nops ∧ nops ≤ 80 ∧ at8 pay 0 = 1 ∧ at8 pay 1 = 1) &&
    (Cells.find? (at8 pay 2) c.host.keys).isSome && be32 pay 12 == c.fld F.global_DEVNUM_DEVNUM &&
    ((pay.drop 16).take 16).all (fun o => o == 0) && ops.all (fun p => be16 p 2 == 0)

/-- A management datagram judged (R452) and run (R453). -/
def Chip.mgmtRun (l : List Octet) (tr o : Nat) (c : Chip) : Chip :=
  let pay := (l.drop (o + 8)).take (be16 l (o + 4) - 8)
  let key := at8 pay 2
  let k := Cells.get [] key c.host.keys
  let body := pay.take (pay.length - 32)
  let seq := ofBeOctets ((pay.drop 4).take 8)
  let last := Cells.get 0 key c.host.seqs
  let dev := be32 pay 12
  let send (p : List Octet) (c : Chip) : Chip :=
    c.internalFrame 64 (replyFrame l tr o p) (c.fld F.hostdma_MGMT_SERVICE) (c.fld F.hostdma_MGMT_QUEUE) none none
  if !c.mgmtFormatOk pay then c.bump F.hostdma_CNT_COUNT 1 4
  else if hmac256 k body ≠ pay.drop (pay.length - 32) then c.bump F.hostdma_CNT_COUNT 1 5
  else if seq / 2 ^ 32 ≠ c.fault.epoch then
    send (tagged k (mgmtHead 3 key 0 (c.fault.epoch * 2 ^ 32 + last) dev)) c
  else if seq % 2 ^ 32 ≤ last then c.bump F.hostdma_CNT_COUNT 1 6
  else
    let c := c.modHost (fun h => { h with seqs := Cells.set 0 key (seq % 2 ^ 32) h.seqs })
    let nops := at8 pay 3
    let (r, c) := c.mgmtOps (groupsOf 16 nops (body.drop 32))
    send (tagged k (mgmtHead 2 key nops seq dev ++ r)) c

/-- MGMT_DATAGRAM: the oldest management datagram that has reached port 64 under a flow entry with action CONTROL is
handled by the control-core library (R30, R450); none waits: no effect. With MGMT.EN = 0 it is discarded uncounted.
[DEDUCED, log entry 68: unsafe] -/
def Chip.mgmtDatagram (c : Chip) : Chip :=
  let isMgmt (d : Delivered) : Bool := d.mgmt && match udpOf d.octets with
    | some (_, _, _, dst) => dst == c.fld F.hostdma_MGMT_UDPPORT
    | none => false
  if !c.live then c
  else match c.flume.toCtl.find? isMgmt with
    | none => c
    | some d =>
      let c := c.modFlume (fun x => { x with toCtl := x.toCtl.erase d })
      if !c.flag F.hostdma_MGMT_EN then c
      else match udpOf d.octets with
        | some (tr, o, _, _) => c.mgmtRun d.octets tr o
        | none => c

end Sys2Proof.Machine
end

