-- ==== Sys2Proof/Machine/Events.lean ====
section
/-! DEFINITION. What time brings about (R42, R70, R71, R120, R121), and the commands that join operations of several
blocks: a frame for a channel, space in a ready list, samples of the sensors, and commands written to CHAN.CMD and
FLUME.FCMD. -/
namespace Sys2Proof.Machine

open Sys2Proof

/-- COUNT runs: bring-up has started (R42, R455). -/
def Chip.running (c : Chip) : Bool := c.mode != Md.HELD && c.mode != Md.OFF

/-- What the end of a clock cycle brings: an uncorrectable error in an on-chip memory, if one comes, and in every chute what
arrived in the cycle (R307, R308).
[DESIGN CHOICE, log entry 141: safe] -/
def Chip.cycleEnds (c : Chip) : Chip :=
  ({ c with upsets := ((Config.upset c.count).bind upsetOf).toList ++ c.upsets } : Chip).endChuteCycle

/-- COUNT moves on to a later count: ports of the local audio go on with what is due, and a storm ends in HELD. -/
def Chip.advance (n : Nat) (c : Chip) : Chip :=
  let c := (c.setCount n).cycleEnds
  (forRange 24 (fun n c => c.hgRun n) c.settleLocks).stormLimit

/-- SAMPLE_TICK: COUNT moves on to the first count at which MT has its next value (R70).
[DESIGN CHOICE, log entry 4: safe] -/
def Chip.sampleTick (c : Chip) : Chip :=
  if c.running then c.advance (c.countReaching (tickInstant (c.mt + 1))) else c

/-- One cycle of the clock with no command waiting.
[DESIGN CHOICE, log entry 3: safe] -/
def Chip.idleTick (c : Chip) : Chip := if c.running then (c.setCount (c.count + 1)).cycleEnds.stormLimit else c

/-- BLOCK_BOUNDARY: MT mod B is 0 and the block has not been opened: line 1 becomes pending on the control cores (Table
9.13), and each channel's jitter buffer executes one slip (R71, R121).
[DEDUCED, log entry 5: safe] [DEDUCED, log entry 6: safe] [DEDUCED, log entry 109: unsafe] -/
def Chip.blockBoundary (c : Chip) : Chip :=
  let b := c.mt
  if !c.live || b % c.blockB != 0 || c.time.lastBlock == some b then c
  else
    let c := (c.modTime (fun t => { t with lastBlock := some b })).line 1
    c.chans.foldl (fun c p => if p.2.life = 2 ∨ p.2.life = 4 then c.slip p.1 b else c) c

/-- JB_WINDOW_END: MT mod 48,000 is 0: the window of every channel's jitter buffer ends (R120, R122).
[DEDUCED, log entry 5: safe] [DEDUCED, log entry 6: safe] -/
def Chip.windowEnds (c : Chip) : Chip :=
  let m := c.mt
  if !c.live || m % 48000 != 0 || c.time.lastWindow == some m then c
  else c.chans.foldl (fun c p => c.windowEnd p.1) (c.modTime (fun t => { t with lastWindow := some m }))

/-- CHANNEL_INGRESS_FRAME: the oldest frame delivered at port 65 is given to the channel its flow entry names (R27). -/
def Chip.ingressFrame (c : Chip) : Chip :=
  match c.flume.toChan with
  | [] => c
  | d :: rest =>
    let pay := match udpOf d.octets with
      | some (_, o, _, _) => (d.octets.drop (o + 8)).take (be16 d.octets (o + 4) - 8)
      | none => []
    (c.modFlume (fun x => { x with toChan := rest })).ingressRtp d.dest pay (subtickOf d.inTime)

/-- READY_LIST_SPACE: what a cluster's ready list holds back enters in order (R277). -/
def Chip.readySpace (cl : Nat) (c : Chip) : Chip := c.drainHeld cl (c.slots.length + c.cores.length + 5)

/-- CLUSTER_GATE: every cluster that is due is gated (R495).
[DEDUCED, log entry 5: safe] [DEDUCED, log entry 6: safe] -/
def Chip.gateClusters (c : Chip) : Chip := forRange 12 (fun k c => c.clusterGate k) c

/-- HG_BACKOFF_EXPIRY: the frame of every segment whose back-off has ended is attempted again (R392).
[DEDUCED, log entry 5: safe] [DEDUCED, log entry 6: safe] -/
def Chip.backoffsEnd (c : Chip) : Chip := forRange 24 (fun n c => c.backoffExpiry n) c

/-- The trip threshold in eighths of a degree, by the fuse GRADE: 120 degrees for the E grade, else 115 (R499).
[DEDUCED, log entry 84: unsafe] -/
def Chip.tripAt (c : Chip) : Int := if c.fuses 2064 2 = 2 then 960 else 920

/-- SENSOR_SAMPLE under the device's grade (R493, R499). -/
def Chip.sample (temps : List Int) (domains : List Nat) (total : Nat) (c : Chip) : Chip :=
  c.sensorSample c.tripAt temps domains total

/-- A command written to CHAN.CMD: its fields stand in the requester's copy, and it runs (R92). -/
def Chip.chanOp (q : Requester) (op ch : Nat) (go : Chip → Chip) (c : Chip) : Chip :=
  c.access q .chan_CMD 0 0 (fun c => go ((c.putq q F.chan_CMD_OP op).putq q F.chan_CMD_CHANNEL ch))

/-- A command written to FLUME.FCMD: its fields stand in the requester's copy, and it runs (Table 12.13). -/
def Chip.flowOp (q : Requester) (op i : Nat) (go : Chip → Chip) (c : Chip) : Chip :=
  c.access q .flume_FCMD 0 0 (fun c => go ((c.putq q F.flume_FCMD_OP op).putq q F.flume_FCMD_INDEX i))

/-- A write of FAULT.MODEREQ (R478). -/
def Chip.modeOp (q : Requester) (r : Nat) (c : Chip) : Chip :=
  c.access q .fault_MODEREQ 0 0 (fun c => c.modeRequest q r (Chip.modeGo r))

/-- The counter of MAC.STAT whose low register has a companion: octets received, octets sent, and octets of bad frames
sent (R380). -/
def wideCounter (k : Fin 3) : Nat := if k.val = 0 then 21 else if k.val = 1 then 23 else 41

/-- An access of KERF.COEFDATA: a write of the word given, or a read (R147). -/
def Chip.coefData (q : Requester) (w : Option Word) (c : Chip) : Chip :=
  match w with
  | some w => c.access q .kerf_COEFDATA 0 0 (Chip.writeCoef w)
  | none => c.accessRead q .kerf_COEFDATA 0 0 Chip.readCoef

/-- A write of a SHAPER register of the Boom (R353). -/
def Chip.shaperOp (q : Requester) (node : ShaperNode) (w : Word) (c : Chip) : Chip :=
  match node with
  | .port p => c.access q .boom_PORT_SHAPER p.val 0 (Chip.writePortShaper q p.val w)
  | .tenant t => c.access q .boom_TEN_SHAPER t.val 0 (Chip.writeTenShaper q t.val w)
  | .service n => c.access q .boom_SVC_SHAPER n.val 0 (Chip.writeSvcShaper q n.val w)

/-- A write of an output entry (R385). -/
def Chip.outputOp (q : Requester) (e : OutEntry) (w : Word) (c : Chip) : Chip :=
  match e with
  | .tdm u i => c.access q .audioio_TDM_OUT u.val i.val (Chip.writeOut q .audioio_TDM_OUT u.val i.val w)
  | .madi u i => c.access q .audioio_MADI_OUT u.val i.val (Chip.writeOut q .audioio_MADI_OUT u.val i.val w)

end Sys2Proof.Machine
end

