-- ==== Sys2Proof/Machine/State.lean ====
section
/-! DEFINITION. The state of the block: the device, and the queue of the commands that wait, first in, first out. The
state after reset, and the reasons a step can stop. -/
namespace Sys2Proof.Machine

open Sys2Proof

/-- The device and the commands that wait for it, oldest first. -/
structure State where
  pending : List Instr
  chip : Chip
  deriving DecidableEq, Repr

/-- Why a step stops with a fault: there is no reason. The spec gives every command an effect, an answer to its sender, or
no effect, and the device goes on (safe: no command ends a run).
[DESIGN CHOICE, log entry 114: safe] -/
inductive Fault where
  deriving DecidableEq, Repr

/-- Why a step is refused.
[DESIGN CHOICE, log entry 114: safe] -/
inductive Refusal where
  /-- A command that has no meaning yet: raised by exec alone, for an arm that is rejected by name. No arm is; safe, since the
  step stops. -/
  | notModelled (mnemonic : String)
  deriving DecidableEq, Repr

/-- The device right after reset: the rails are up, RESET_N is low and PWROK high, and the mode is HELD, entered from OFF
(R455, R456, R477); nothing has been brought up, and no command waits. GLOBAL.MODE is the one register that differs from
its value at release.
[DESIGN CHOICE, log entry 1: unsafe] -/
def State.reset : State where
  pending := []
  chip := { regs := [(1, wofNat (Md.OFF * 16 + Md.HELD))] }

end Sys2Proof.Machine
end

