-- ==== Sys2Proof/Machine/Run.lean ====
section
/-! DEFINITION. How a command's effect becomes the next state. COUNT moves with the clock alone (R42), the test port changes
under its own commands and with the rails alone (R508), what bring-up holds changes under the commands of bring-up, and a fuse
bit is programmed by RELEASE and by the test port alone (R461, R473): a command of another kind keeps them. -/
namespace Sys2Proof.Machine
open Sys2Proof

/-- The device as an effect leaves it, with no fuse bit programmed by it. -/
def Chip.keepFuses (old new : Chip) : Chip := { new with boot := { new.boot with burned := old.boot.burned } }

/-- A command that finds the device where it stands: COUNT, the fuses with what bring-up holds, and the test port are kept.
[DESIGN CHOICE, log entry 4: safe] -/
def State.run (s : State) (f : Chip → Chip) : Host.Outcome State Fault Refusal :=
  .next { s with chip := { f s.chip with count := s.chip.count, boot := s.chip.boot, jtag := s.chip.jtag } }

/-- A command of bring-up or of the test port that programs no fuse bit: COUNT and the fuses are kept. -/
def State.runBoot (s : State) (f : Chip → Chip) : Host.Outcome State Fault Refusal :=
  .next { s with chip := s.chip.keepFuses { f s.chip with count := s.chip.count } }

/-- A command that can program fuse bits: COUNT is kept. -/
def State.runFuse (s : State) (f : Chip → Chip) : Host.Outcome State Fault Refusal :=
  .next { s with chip := { f s.chip with count := s.chip.count } }

/-- A command with which COUNT moves: the clock, the rails, and an entry into HELD, where COUNT is 0 (R42). The fuses are
kept. -/
def State.runClock (s : State) (f : Chip → Chip) : Host.Outcome State Fault Refusal :=
  .next { s with chip := s.chip.keepFuses (f s.chip) }

end Sys2Proof.Machine
end

