-- ==== Sys2Proof/Machine/ExecBaler.lean ====
section
/-! DEFINITION. Meanings of the commands: mix buses and the Baler. -/
namespace Sys2Proof.Machine

open Sys2Proof

/-- BUS_ENABLE. A write of CHAN.BUS with EN = 1 (R195). -/
def execBusEnable (q : Requester) (b : Fin 4096) (w : Word) (s : State) : Host.Outcome State Fault Refusal :=
  s.run (Chip.access q .chan_BUS b.val 0 (Chip.writeBus q b.val (wput w 35 35 1)))

/-- BUS_DISABLE. A write of CHAN.BUS with EN = 0 (R195). -/
def execBusDisable (q : Requester) (b : Fin 4096) (w : Word) (s : State) : Host.Outcome State Fault Refusal :=
  s.run (Chip.access q .chan_BUS b.val 0 (Chip.writeBus q b.val (wput w 35 35 0)))

/-- MIX_BLOCK_OPEN. A sum block of a bus opens (R197). -/
def execMixBlockOpen (b : Fin 4096) (s : State) : Host.Outcome State Fault Refusal :=
  s.run (Chip.openBlock b.val)

/-- MIX_BLOCK_CLOSE. A sum block of a bus closes (R197). -/
def execMixBlockClose (b : Fin 4096) (s : State) : Host.Outcome State Fault Refusal :=
  s.run (Chip.closeBlock b.val)

/-- BALER_SUBMIT. A write of BALER.SUBMIT (R227). -/
def execBalerSubmit (q : Requester) (u : Fin 4) (s : State) : Host.Outcome State Fault Refusal :=
  s.run (Chip.access q .baler_SUBMIT 0 0 (Chip.balerSubmit q u.val))

/-- BALER_JOB_START. A unit picks its next job (R210). -/
def execBalerJobStart (u : Fin 4) (s : State) : Host.Outcome State Fault Refusal :=
  s.run (Chip.balerStart u.val)

/-- BALER_JOB_COMPLETE. The running job of a unit ends; `mismatch` is the block at which in-line verification failed
(R225, R231). -/
def execBalerJobComplete (u : Fin 4) (mismatch : Option Nat) (s : State) : Host.Outcome State Fault Refusal :=
  s.run (Chip.jobComplete Chip.hedgeEnd u.val mismatch)

end Sys2Proof.Machine
end

