-- ==== Sys2Proof/Machine/ExecBoom.lean ====
section
/-! DEFINITION. Meanings of the commands: the Boom. -/
namespace Sys2Proof.Machine

open Sys2Proof

/-- BOOM_SELECT. A port selects its next frame (R347). -/
def execBoomSelect (p : Fin 67) (s : State) : Host.Outcome State Fault Refusal :=
  s.run (Chip.boomSelect p.val)

/-- FRAME_TRANSMIT_END. A frame's transmission ends (R344). -/
def execFrameTransmitEnd (p : Fin 67) (s : State) : Host.Outcome State Fault Refusal :=
  s.run (Chip.transmitEnd p.val)

/-- SHAPER_WRITE. A write of a SHAPER register (R353). -/
def execShaperWrite (q : Requester) (node : ShaperNode) (w : Word) (s : State) : Host.Outcome State Fault Refusal :=
  s.run (Chip.shaperOp q node w)

/-- BQUOTA_WRITE. A write of BOOM.TEN.BQUOTA (R357). -/
def execBquotaWrite (q : Requester) (t : Fin 4096) (w : Word) (s : State) : Host.Outcome State Fault Refusal :=
  s.run (Chip.access q .boom_TEN_BQUOTA t.val 0 (Chip.writeBquota q t.val w))

/-- TENANT_CFG_WRITE. A write of BOOM.TEN.CFG (R342). -/
def execTenantCfgWrite (q : Requester) (t : Fin 4096) (w : Word) (s : State) : Host.Outcome State Fault Refusal :=
  s.run (Chip.access q .boom_TEN_CFG t.val 0 (Chip.writeTenCfg q t.val w))

/-- SERVICE_CFG_WRITE. A write of BOOM.SVC.CFG (R342). -/
def execServiceCfgWrite (q : Requester) (n : Fin 32768) (w : Word) (s : State) : Host.Outcome State Fault Refusal :=
  s.run (Chip.access q .boom_SVC_CFG n.val 0 (Chip.writeSvcCfg q n.val w))

/-- POLICER_CFG_WRITE. A write of BOOM.POL.CFG (R355). -/
def execPolicerCfgWrite (q : Requester) (n : Fin 65536) (w : Word) (s : State) : Host.Outcome State Fault Refusal :=
  s.run (Chip.access q .boom_POL_CFG n.val 0 (Chip.writePolicer q n.val w))

end Sys2Proof.Machine
end

