-- ==== Sys2Proof/Machine/ExecBoot.lean ====
section
/-! DEFINITION. Meanings of the commands: rails, reset, bring-up and the image. -/
namespace Sys2Proof.Machine

open Sys2Proof

/-- RAILS_RISE. The rails rise (R477). -/
def execRailsRise (s : State) : Host.Outcome State Fault Refusal :=
  s.runClock Chip.railsRise

/-- RAILS_FALL. The rails fall (R477). -/
def execRailsFall (s : State) : Host.Outcome State Fault Refusal :=
  s.runClock Chip.railsFall

/-- RESET_OR_PWROK_FALL. RESET_N or PWROK falls (R456). -/
def execResetOrPwrokFall (pwrok : Bool) (s : State) : Host.Outcome State Fault Refusal :=
  s.runClock (Chip.resetFall pwrok)

/-- BRINGUP_START. Bring-up starts; BOOTSEL, and whether every sensor reads below 100 degrees (R455, R457). -/
def execBringupStart (bootsel : Fin 4) (cool : Bool) (s : State) : Host.Outcome State Fault Refusal :=
  s.runClock (Chip.bringupStart bootsel.val cool)

/-- FUSE_READ_COMPLETE. Every fuse bit has been read (R460). -/
def execFuseReadComplete (s : State) : Host.Outcome State Fault Refusal :=
  s.runBoot Chip.fuseRead

/-- FLASH_SETUP_COMPLETE. SFDP has been read: its validity and the flash's size (R464, R465). -/
def execFlashSetupComplete (sfdp : Bool) (mib : Nat) (s : State) : Host.Outcome State Fault Refusal :=
  s.runClock (Chip.flashSetup sfdp mib)

/-- IMAGE_HEADER. The header of a slot as read (R466). -/
def execImageHeader (octets : List Octet) (s : State) : Host.Outcome State Fault Refusal :=
  s.runBoot (Chip.imageHeader octets)

/-- IMAGE_RECORD_READ. A record of the image as read (R467). -/
def execImageRecordRead (octets : List Octet) (s : State) : Host.Outcome State Fault Refusal :=
  s.runBoot (Chip.imageRecord octets)

/-- SLOT_RESET_COMPLETE. The block reset after a failed slot ends (R472). -/
def execSlotResetComplete (s : State) : Host.Outcome State Fault Refusal :=
  s.runClock Chip.slotReset

/-- SIGNATURE_BLOCK. The signature block as read (R468). -/
def execSignatureBlock (octets : List Octet) (s : State) : Host.Outcome State Fault Refusal :=
  s.runBoot (Chip.signatureBlock octets)

/-- REGS. The next record of its pass, of TYPE 1, is applied (R469, R515). -/
def execRegsRecord (s : State) : Host.Outcome State Fault Refusal :=
  s.runBoot (Chip.applyRecord false 1 Chip.regsRecord)

/-- PROGRAM. The next record of its pass, of TYPE 2, is applied (R469). -/
def execProgramRecord (s : State) : Host.Outcome State Fault Refusal :=
  s.runBoot (Chip.applyRecord false 2 Chip.programRecord)

/-- PATCH. The next record of its pass, of TYPE 3, is applied (R268). -/
def execPatchRecord (s : State) : Host.Outcome State Fault Refusal :=
  s.runBoot (Chip.applyRecord false 3 Chip.patchRecord)

/-- CUSTOM. The next record of its pass, of TYPE 4, is applied (R269). -/
def execCustomRecord (s : State) : Host.Outcome State Fault Refusal :=
  s.runBoot (Chip.applyRecord false 4 Chip.customRecord)

/-- TONESET. The next record of its pass, of TYPE 5, is applied (R175). -/
def execTonesetRecord (s : State) : Host.Outcome State Fault Refusal :=
  s.runBoot (Chip.applyRecord false 5 Chip.tonesetRecord)

/-- KERFSET. The next record of its pass, of TYPE 6, is applied (R469). -/
def execKerfsetRecord (s : State) : Host.Outcome State Fault Refusal :=
  s.runBoot (Chip.applyRecord false 6 Chip.kerfsetRecord)

/-- MGMTKEY. The next record of its pass, of TYPE 7, is applied (R469). -/
def execMgmtkeyRecord (s : State) : Host.Outcome State Fault Refusal :=
  s.runBoot (Chip.applyRecord false 7 Chip.mgmtkeyRecord)

/-- BOOT. The next record of its pass, of TYPE 8, is applied (R469). -/
def execBootRecord (s : State) : Host.Outcome State Fault Refusal :=
  s.runBoot (Chip.applyRecord false 8 Chip.bootRecord)

/-- RANGER. The next record of its pass, of TYPE 9, is applied (R501). -/
def execRangerRecord (s : State) : Host.Outcome State Fault Refusal :=
  s.runBoot (Chip.applyRecord false 9 Chip.rangerRecord)

/-- DRAMZERO. The next record of its pass, of TYPE 10, is applied (R469). -/
def execDramzeroRecord (s : State) : Host.Outcome State Fault Refusal :=
  s.runBoot (Chip.applyRecord true 10 Chip.dramzeroRecord)

/-- DRAMFILL. The next record of its pass, of TYPE 11, is applied (R470). -/
def execDramfillRecord (s : State) : Host.Outcome State Fault Refusal :=
  s.runBoot (Chip.applyRecord true 11 Chip.dramfillRecord)

/-- V6ADDR. The next record of its pass, of TYPE 12, is applied (R469). -/
def execV6addrRecord (s : State) : Host.Outcome State Fault Refusal :=
  s.runBoot (Chip.applyRecord true 12 Chip.v6addrRecord)

/-- FLOWS. The next record of its pass, of TYPE 13, is applied (R469). -/
def execFlowsRecord (s : State) : Host.Outcome State Fault Refusal :=
  s.runBoot (Chip.applyRecord true 13 Chip.flowsRecord)

/-- PASS1_COMPLETE. Pass 1 ends (R471). -/
def execPass1Complete (s : State) : Host.Outcome State Fault Refusal :=
  s.runBoot Chip.pass1Complete

/-- TRAINING_COMPLETE. Training ends (R471, R472). -/
def execTrainingComplete (ok : Bool) (s : State) : Host.Outcome State Fault Refusal :=
  s.runClock (Chip.trainingComplete ok)

/-- RELEASE. The device is released (R473). -/
def execRelease (s : State) : Host.Outcome State Fault Refusal :=
  s.runFuse Chip.release

/-- FAULT_AREA_SCAN_END. The scan of the fault-record area ends (R488). -/
def execFaultAreaScanEnd (s : State) : Host.Outcome State Fault Refusal :=
  s.run Chip.scanEnd

end Sys2Proof.Machine
end

