-- ==== Sys2Proof/Machine/ExecChannel.lean ====
section
/-! DEFINITION. Meanings of the commands: channels and their jitter buffers. -/
namespace Sys2Proof.Machine

open Sys2Proof

/-- ACTIVATE. The ACTIVATE command (R89, R92 to R102). -/
def execActivate (q : Requester) (ch : Fin 32768) (s : State) : Host.Outcome State Fault Refusal :=
  s.run (Chip.chanOp q 1 ch.val (Chip.activate q ch.val))

/-- UPDATE. The UPDATE command (R93). -/
def execUpdate (q : Requester) (ch : Fin 32768) (s : State) : Host.Outcome State Fault Refusal :=
  s.run (Chip.chanOp q 2 ch.val (Chip.update q ch.val))

/-- DEACTIVATE. The DEACTIVATE command (R89). -/
def execDeactivate (q : Requester) (ch : Fin 32768) (s : State) : Host.Outcome State Fault Refusal :=
  s.run (Chip.chanOp q 3 ch.val (Chip.deactivate q ch.val))

/-- RESTART. The RESTART command (R90). -/
def execRestart (q : Requester) (ch : Fin 32768) (s : State) : Host.Outcome State Fault Refusal :=
  s.run (Chip.chanOp q 4 ch.val (Chip.restart q ch.val))

/-- READ. The READ command (R92). -/
def execRead (q : Requester) (ch : Fin 32768) (s : State) : Host.Outcome State Fault Refusal :=
  s.run (Chip.chanOp q 5 ch.val (Chip.readDesc q ch.val))

/-- CHANNEL_FIRST_FRAME. The first frame boundary of a PENDING channel (R89, Table 3.7). -/
def execChannelFirstFrame (ch : Fin 32768) (s : State) : Host.Outcome State Fault Refusal :=
  s.run (Chip.firstFrame ch.val)

/-- UPDATE_APPLY. An accepted UPDATE applies at its frame boundary (R93, R282). -/
def execUpdateApply (ch : Fin 32768) (s : State) : Host.Outcome State Fault Refusal :=
  s.run (Chip.applyUpdate ch.val)

/-- CHANNEL_RESTART_RESUME. A RESTARTING channel becomes ACTIVE at a block boundary (R90). -/
def execChannelRestartResume (ch : Fin 32768) (s : State) : Host.Outcome State Fault Refusal :=
  s.run (Chip.resumeRestart ch.val)

/-- CHANNEL_INGRESS_FRAME. The oldest frame terminated to a channel is judged and stored or discarded (R27, R116). -/
def execChannelIngressFrame (s : State) : Host.Outcome State Fault Refusal :=
  s.run Chip.ingressFrame

/-- JB_WINDOW_END. A 48,000-sample window ends (R120, R122). -/
def execJbWindowEnd (s : State) : Host.Outcome State Fault Refusal :=
  s.run Chip.windowEnds

end Sys2Proof.Machine
end

