-- ==== Sys2Proof/Machine/ExecChute.lean ====
section
/-! DEFINITION. Meanings of the commands: chutes. -/
namespace Sys2Proof.Machine

open Sys2Proof

/-- CHUTE_PUSH_WRITE. A write of CHUTE.C[n].PUSH (R298). -/
def execChutePushWrite (q : Requester) (n : Fin 2048) (w : Word) (s : State) : Host.Outcome State Fault Refusal :=
  s.run (Chip.access q .chute_C_PUSH n.val 0 (Chip.push n.val w false))

/-- CHUTE_PUSHEND_WRITE. A write of CHUTE.C[n].PUSHEND (R298). -/
def execChutePushendWrite (q : Requester) (n : Fin 2048) (w : Word) (s : State) : Host.Outcome State Fault Refusal :=
  s.run (Chip.access q .chute_C_PUSHEND n.val 0 (Chip.push n.val w true))

/-- CHUTE_POP_READ. A read of CHUTE.C[n].POP (R298). -/
def execChutePopRead (q : Requester) (n : Fin 2048) (s : State) : Host.Outcome State Fault Refusal :=
  s.run (Chip.accessRead q .chute_C_POP n.val 0 (Chip.popRead q n.val))

/-- CHUTE_WORD_ARRIVE. The oldest word under way to a chute reaches it (R298, R300, R303), alone or in the cycle of the pop or
DROPREST that follows (R306, R307). -/
def execChuteWordArrive (a : Arrival) (s : State) : Host.Outcome State Fault Refusal :=
  s.run (Chip.wordArrives a.chute.val a.paired)

/-- CHUTE_DROPREST_WRITE. A write of CHUTE.DROPREST (R306). -/
def execChuteDroprestWrite (q : Requester) (n : Fin 2048) (s : State) : Host.Outcome State Fault Refusal :=
  s.run (Chip.access q .chute_DROPREST 0 0 (Chip.dropRestWrite q n.val))

/-- CHUTE_CFG_WRITE. A write of CHUTE.C[n].CFG with FORCE = 0 (R308). -/
def execChuteCfgWrite (q : Requester) (n : Fin 2048) (w : Word) (s : State) : Host.Outcome State Fault Refusal :=
  s.run (Chip.access q .chute_C_CFG n.val 0 (Chip.writeChuteCfg q n.val (wput w 35 35 0)))

/-- CHUTE_CFG_FORCE. A write of CHUTE.C[n].CFG with FORCE = 1 (R309). -/
def execChuteCfgForce (q : Requester) (n : Fin 2048) (w : Word) (s : State) : Host.Outcome State Fault Refusal :=
  s.run (Chip.access q .chute_C_CFG n.val 0 (Chip.writeChuteCfg q n.val (wput w 35 35 1)))

/-- CHUTE_CFG_APPLY. Deferred settings apply once the chute is empty (R308). -/
def execChuteCfgApply (n : Fin 2048) (s : State) : Host.Outcome State Fault Refusal :=
  s.run (Chip.settleChute n.val)

end Sys2Proof.Machine
end

