-- ==== Sys2Proof/Machine/ExecCore.lean ====
section
/-! DEFINITION. Meanings of the commands: the instructions of the cores. -/
namespace Sys2Proof.Machine

open Sys2Proof

/-- NOP. The instruction does nothing (R246). -/
def execNop (k : CoreId) (mate : CoreOp) (s : State) : Host.Outcome State Fault Refusal :=
  s.run (Chip.bundle k.val (.nop) mate)

/-- ADD. RD = RA + RB under S (R246, R248). -/
def execAdd (k : CoreId) (sat : Bool) (rd ra rb : GReg) (mate : CoreOp) (s : State) : Host.Outcome State Fault Refusal :=
  s.run (Chip.bundle k.val (.add sat rd ra rb) mate)

/-- SUB. RD = RA - RB under S (R246, R248). -/
def execSub (k : CoreId) (sat : Bool) (rd ra rb : GReg) (mate : CoreOp) (s : State) : Host.Outcome State Fault Refusal :=
  s.run (Chip.bundle k.val (.sub sat rd ra rb) mate)

/-- NEG. RD = -RA under S (R246, R248). -/
def execNeg (k : CoreId) (sat : Bool) (rd ra : GReg) (mate : CoreOp) (s : State) : Host.Outcome State Fault Refusal :=
  s.run (Chip.bundle k.val (.neg sat rd ra) mate)

/-- ABS. RD = |RA| under S (R246, R248). -/
def execAbs (k : CoreId) (sat : Bool) (rd ra : GReg) (mate : CoreOp) (s : State) : Host.Outcome State Fault Refusal :=
  s.run (Chip.bundle k.val (.abs sat rd ra) mate)

/-- AND. RD = RA AND RB (R246). -/
def execAnd (k : CoreId) (rd ra rb : GReg) (mate : CoreOp) (s : State) : Host.Outcome State Fault Refusal :=
  s.run (Chip.bundle k.val (.and rd ra rb) mate)

/-- OR. RD = RA OR RB (R246). -/
def execOr (k : CoreId) (rd ra rb : GReg) (mate : CoreOp) (s : State) : Host.Outcome State Fault Refusal :=
  s.run (Chip.bundle k.val (.or rd ra rb) mate)

/-- XOR. RD = RA XOR RB (R246). -/
def execXor (k : CoreId) (rd ra rb : GReg) (mate : CoreOp) (s : State) : Host.Outcome State Fault Refusal :=
  s.run (Chip.bundle k.val (.xor rd ra rb) mate)

/-- ANDN. RD = RA AND NOT RB (R246). -/
def execAndn (k : CoreId) (rd ra rb : GReg) (mate : CoreOp) (s : State) : Host.Outcome State Fault Refusal :=
  s.run (Chip.bundle k.val (.andn rd ra rb) mate)

/-- SHL. A left shift under S (R246, R248). -/
def execShl (k : CoreId) (sat : Bool) (rd ra rb : GReg) (sh : Fin 64) (mate : CoreOp) (s : State) : Host.Outcome State Fault Refusal :=
  s.run (Chip.bundle k.val (.shl sat rd ra rb sh) mate)

/-- ASR. An arithmetic right shift that truncates (R246). -/
def execAsr (k : CoreId) (rd ra rb : GReg) (sh : Fin 64) (mate : CoreOp) (s : State) : Host.Outcome State Fault Refusal :=
  s.run (Chip.bundle k.val (.asr rd ra rb sh) mate)

/-- LSR. A logical right shift (R246). -/
def execLsr (k : CoreId) (rd ra rb : GReg) (sh : Fin 64) (mate : CoreOp) (s : State) : Host.Outcome State Fault Refusal :=
  s.run (Chip.bundle k.val (.lsr rd ra rb sh) mate)

/-- ASRR. An arithmetic right shift that rounds halves up (R249). -/
def execAsrr (k : CoreId) (rd ra rb : GReg) (sh : Fin 64) (mate : CoreOp) (s : State) : Host.Outcome State Fault Refusal :=
  s.run (Chip.bundle k.val (.asrr rd ra rb sh) mate)

/-- MIN. The signed minimum (R246). -/
def execMin (k : CoreId) (rd ra rb : GReg) (mate : CoreOp) (s : State) : Host.Outcome State Fault Refusal :=
  s.run (Chip.bundle k.val (.min rd ra rb) mate)

/-- MAX. The signed maximum (R246). -/
def execMax (k : CoreId) (rd ra rb : GReg) (mate : CoreOp) (s : State) : Host.Outcome State Fault Refusal :=
  s.run (Chip.bundle k.val (.max rd ra rb) mate)

/-- CMP. The flags of RA - RB (R250). -/
def execCmp (k : CoreId) (ra rb : GReg) (mate : CoreOp) (s : State) : Host.Outcome State Fault Refusal :=
  s.run (Chip.bundle k.val (.cmp ra rb) mate)

/-- CLS. The leading sign bits of RA (R246). -/
def execCls (k : CoreId) (rd ra : GReg) (mate : CoreOp) (s : State) : Host.Outcome State Fault Refusal :=
  s.run (Chip.bundle k.val (.cls rd ra) mate)

/-- BREV. The low SH bits of RA reversed (R246). -/
def execBrev (k : CoreId) (rd ra : GReg) (sh : Fin 64) (mate : CoreOp) (s : State) : Host.Outcome State Fault Refusal :=
  s.run (Chip.bundle k.val (.brev rd ra sh) mate)

/-- MULF. A fractional product, rounded (R249). -/
def execMulf (k : CoreId) (sat : Bool) (rd ra rb : GReg) (mate : CoreOp) (s : State) : Host.Outcome State Fault Refusal :=
  s.run (Chip.bundle k.val (.mulf sat rd ra rb) mate)

/-- MULI. An integer product (R248). -/
def execMuli (k : CoreId) (sat : Bool) (rd ra rb : GReg) (mate : CoreOp) (s : State) : Host.Outcome State Fault Refusal :=
  s.run (Chip.bundle k.val (.muli sat rd ra rb) mate)

/-- MULH. Bits 71 to 36 of a product (R246). -/
def execMulh (k : CoreId) (rd ra rb : GReg) (mate : CoreOp) (s : State) : Host.Outcome State Fault Refusal :=
  s.run (Chip.bundle k.val (.mulh rd ra rb) mate)

/-- ADDI. RD = RA + IMM under S (R248). -/
def execAddi (k : CoreId) (sat : Bool) (rd ra : GReg) (imm : BitVec 19) (mate : CoreOp) (s : State) : Host.Outcome State Fault Refusal :=
  s.run (Chip.bundle k.val (.addi sat rd ra imm) mate)

/-- ANDI. RD = RA AND IMM (R246). -/
def execAndi (k : CoreId) (rd ra : GReg) (imm : BitVec 19) (mate : CoreOp) (s : State) : Host.Outcome State Fault Refusal :=
  s.run (Chip.bundle k.val (.andi rd ra imm) mate)

/-- ORI. RD = RA OR IMM (R246). -/
def execOri (k : CoreId) (rd ra : GReg) (imm : BitVec 19) (mate : CoreOp) (s : State) : Host.Outcome State Fault Refusal :=
  s.run (Chip.bundle k.val (.ori rd ra imm) mate)

/-- LUI. RD = IMM shifted left by 17 bits (R246). -/
def execLui (k : CoreId) (rd : GReg) (imm : BitVec 19) (mate : CoreOp) (s : State) : Host.Outcome State Fault Refusal :=
  s.run (Chip.bundle k.val (.lui rd imm) mate)

/-- CMPI. The flags of RA - IMM (R250). -/
def execCmpi (k : CoreId) (ra : GReg) (imm : BitVec 19) (mate : CoreOp) (s : State) : Host.Outcome State Fault Refusal :=
  s.run (Chip.bundle k.val (.cmpi ra imm) mate)

/-- LD. A load of a word, double or line from local memory (R241). -/
def execLd (k : CoreId) (rd : GReg) (m : MemOp) (mate : CoreOp) (s : State) : Host.Outcome State Fault Refusal :=
  s.run (Chip.bundle k.val (.ld rd m) mate)

/-- ST. A store of a word, double or line to local memory (R241). -/
def execSt (k : CoreId) (rs : GReg) (m : MemOp) (mate : CoreOp) (s : State) : Host.Outcome State Fault Refusal :=
  s.run (Chip.bundle k.val (.st rs m) mate)

/-- LDP. A load of a word from program memory (R246). -/
def execLdp (k : CoreId) (rd ra : GReg) (imm : BitVec 19) (mate : CoreOp) (s : State) : Host.Outcome State Fault Refusal :=
  s.run (Chip.bundle k.val (.ldp rd ra imm) mate)

/-- LDPL. A load of a line from program memory (R246). -/
def execLdpl (k : CoreId) (rd ra : GReg) (imm : BitVec 19) (mate : CoreOp) (s : State) : Host.Outcome State Fault Refusal :=
  s.run (Chip.bundle k.val (.ldpl rd ra imm) mate)

/-- MAC. A product added to an accumulator (R250). -/
def execMac (k : CoreId) (sat : Bool) (ad : AReg) (ra rb : GReg) (mate : CoreOp) (s : State) : Host.Outcome State Fault Refusal :=
  s.run (Chip.bundle k.val (.mac sat ad ra rb) mate)

/-- MSU. A product subtracted from an accumulator (R250). -/
def execMsu (k : CoreId) (sat : Bool) (ad : AReg) (ra rb : GReg) (mate : CoreOp) (s : State) : Host.Outcome State Fault Refusal :=
  s.run (Chip.bundle k.val (.msu sat ad ra rb) mate)

/-- MPY. A product written to an accumulator (R250). -/
def execMpy (k : CoreId) (sat : Bool) (ad : AReg) (ra rb : GReg) (mate : CoreOp) (s : State) : Host.Outcome State Fault Refusal :=
  s.run (Chip.bundle k.val (.mpy sat ad ra rb) mate)

/-- CLRA. An accumulator cleared (R246). -/
def execClra (k : CoreId) (ad : AReg) (mate : CoreOp) (s : State) : Host.Outcome State Fault Refusal :=
  s.run (Chip.bundle k.val (.clra ad) mate)

/-- ACCR. An accumulator read scaled and rounded (R249). -/
def execAccr (k : CoreId) (sat : Bool) (ad : AReg) (ra : GReg) (sh : BitVec 6) (mate : CoreOp) (s : State) : Host.Outcome State Fault Refusal :=
  s.run (Chip.bundle k.val (.accr sat ad ra sh) mate)

/-- ACCW. A register written into an accumulator (R246). -/
def execAccw (k : CoreId) (ad : AReg) (rb : GReg) (mate : CoreOp) (s : State) : Host.Outcome State Fault Refusal :=
  s.run (Chip.bundle k.val (.accw ad rb) mate)

/-- ADDA. One accumulator added to another (R248). -/
def execAdda (k : CoreId) (sat : Bool) (ad asrc : AReg) (mate : CoreOp) (s : State) : Host.Outcome State Fault Refusal :=
  s.run (Chip.bundle k.val (.adda sat ad asrc) mate)

/-- AGET. One part of an accumulator read (R246). -/
def execAget (k : CoreId) (ad : AReg) (ra : GReg) (part : Fin 4) (mate : CoreOp) (s : State) : Host.Outcome State Fault Refusal :=
  s.run (Chip.bundle k.val (.aget ad ra part) mate)

/-- APUT. One part of an accumulator written (R246). -/
def execAput (k : CoreId) (ad : AReg) (rb : GReg) (part : Fin 4) (mate : CoreOp) (s : State) : Host.Outcome State Fault Refusal :=
  s.run (Chip.bundle k.val (.aput ad rb part) mate)

/-- TAPM. Four filter taps, and the tap line moved by one sample (R252, R253). -/
def execTapm (k : CoreId) (sat : Bool) (ad : AReg) (xa : XReg) (mode : Fin 4) (mate : CoreOp) (s : State) : Host.Outcome State Fault Refusal :=
  s.run (Chip.bundle k.val (.tapm sat ad xa mode) mate)

/-- BR. A branch on a condition (R246). -/
def execBr (k : CoreId) (cond : Fin 16) (link : Bool) (off : BitVec 18) (mate : CoreOp) (s : State) : Host.Outcome State Fault Refusal :=
  s.run (Chip.bundle k.val (.br cond link off) mate)

/-- JR. A jump to a register address (R246). -/
def execJr (k : CoreId) (rd ra : GReg) (mate : CoreOp) (s : State) : Host.Outcome State Fault Refusal :=
  s.run (Chip.bundle k.val (.jr rd ra) mate)

/-- LOOP. A hardware loop starts (R247). -/
def execLoop (k : CoreId) (lv : Fin 2) (reg : Option GReg) (cnt body : Fin 16384) (mate : CoreOp) (s : State) : Host.Outcome State Fault Refusal :=
  s.run (Chip.bundle k.val (.loop lv reg cnt body) mate)

/-- MOVX_SET_X. The address register Xk written (R246). -/
def execMovxSetX (k : CoreId) (x : XReg) (ra : GReg) (mate : CoreOp) (s : State) : Host.Outcome State Fault Refusal :=
  s.run (Chip.bundle k.val (.setX x ra) mate)

/-- MOVX_GET_X. The address register Xk read (R246). -/
def execMovxGetX (k : CoreId) (rd : GReg) (x : XReg) (mate : CoreOp) (s : State) : Host.Outcome State Fault Refusal :=
  s.run (Chip.bundle k.val (.getX rd x) mate)

/-- MOVX_SET_XB. The address register XBk written (R246). -/
def execMovxSetXB (k : CoreId) (x : XReg) (ra : GReg) (mate : CoreOp) (s : State) : Host.Outcome State Fault Refusal :=
  s.run (Chip.bundle k.val (.setXB x ra) mate)

/-- MOVX_GET_XB. The address register XBk read (R246). -/
def execMovxGetXB (k : CoreId) (rd : GReg) (x : XReg) (mate : CoreOp) (s : State) : Host.Outcome State Fault Refusal :=
  s.run (Chip.bundle k.val (.getXB rd x) mate)

/-- MOVX_SET_XL. The address register XLk written (R246). -/
def execMovxSetXL (k : CoreId) (x : XReg) (ra : GReg) (mate : CoreOp) (s : State) : Host.Outcome State Fault Refusal :=
  s.run (Chip.bundle k.val (.setXL x ra) mate)

/-- MOVX_GET_XL. The address register XLk read (R246). -/
def execMovxGetXL (k : CoreId) (rd : GReg) (x : XReg) (mate : CoreOp) (s : State) : Host.Outcome State Fault Refusal :=
  s.run (Chip.bundle k.val (.getXL rd x) mate)

/-- MOVX_SET_TCR. The TAPM carry register written (R253). -/
def execMovxSetTcr (k : CoreId) (ra : GReg) (mate : CoreOp) (s : State) : Host.Outcome State Fault Refusal :=
  s.run (Chip.bundle k.val (.setTcr ra) mate)

/-- MOVX_GET_TCR. The TAPM carry register read (R253). -/
def execMovxGetTcr (k : CoreId) (rd : GReg) (mate : CoreOp) (s : State) : Host.Outcome State Fault Refusal :=
  s.run (Chip.bundle k.val (.getTcr rd) mate)

/-- CSRR. A control register read (R240, Tables 9.5 and 9.13). -/
def execCsrr (k : CoreId) (rd : GReg) (cr : BitVec 19) (mate : CoreOp) (s : State) : Host.Outcome State Fault Refusal :=
  s.run (Chip.bundle k.val (.csrr rd cr) mate)

/-- CSRW. A control register written (R240, Tables 9.5 and 9.13). -/
def execCsrw (k : CoreId) (ra : GReg) (cr : BitVec 19) (mate : CoreOp) (s : State) : Host.Outcome State Fault Refusal :=
  s.run (Chip.bundle k.val (.csrw ra cr) mate)

/-- TAKE. The item the core holds completes, and the core waits for the next (R255, R285). -/
def execTake (k : CoreId) (mate : CoreOp) (s : State) : Host.Outcome State Fault Refusal :=
  s.run (Chip.bundle k.val (.take) mate)

/-- SPAWN. A work item posted to the spawn pool (R256). -/
def execSpawn (k : CoreId) (ra : GReg) (mate : CoreOp) (s : State) : Host.Outcome State Fault Refusal :=
  s.run (Chip.bundle k.val (.spawn ra) mate)

/-- PUSH. A word handed to a chute (R257, R298). -/
def execPush (k : CoreId) (ra rb : GReg) (fin : Bool) (mate : CoreOp) (s : State) : Host.Outcome State Fault Refusal :=
  s.run (Chip.bundle k.val (.push ra rb fin) mate)

/-- POP. A word popped from a chute (R257). -/
def execPop (k : CoreId) (rd rb : GReg) (mate : CoreOp) (s : State) : Host.Outcome State Fault Refusal :=
  s.run (Chip.bundle k.val (.pop rd rb) mate)

/-- CHC_DROPREST. DROPREST of a chute (R306). -/
def execChcDroprest (k : CoreId) (regs : RdRb) (mate : CoreOp) (s : State) : Host.Outcome State Fault Refusal :=
  s.run (Chip.bundle k.val (.dropRest regs.rd regs.rb) mate)

/-- CHC_COUNT. The count of a chute (R257). -/
def execChcCount (k : CoreId) (rd rb : GReg) (mate : CoreOp) (s : State) : Host.Outcome State Fault Refusal :=
  s.run (Chip.bundle k.val (.chcCount rd rb) mate)

/-- CHC_PKTS. The packet count of a chute (R257). -/
def execChcPkts (k : CoreId) (rd rb : GReg) (mate : CoreOp) (s : State) : Host.Outcome State Fault Refusal :=
  s.run (Chip.bundle k.val (.chcPkts rd rb) mate)

/-- DMOV_IN. A transfer of bursts from DRAM started (R258). -/
def execDmovIn (k : CoreId) (ra rb : GReg) (n : BitVec 8) (mate : CoreOp) (s : State) : Host.Outcome State Fault Refusal :=
  s.run (Chip.bundle k.val (.dmovIn ra rb n) mate)

/-- DMOV_OUT. A transfer of bursts to DRAM started (R258). -/
def execDmovOut (k : CoreId) (ra rb : GReg) (n : BitVec 8) (mate : CoreOp) (s : State) : Host.Outcome State Fault Refusal :=
  s.run (Chip.bundle k.val (.dmovOut ra rb n) mate)

/-- KREQ. A frame handed to a Kerf lane (R258). -/
def execKreq (k : CoreId) (ra rb : GReg) (mate : CoreOp) (s : State) : Host.Outcome State Fault Refusal :=
  s.run (Chip.bundle k.val (.kreq ra rb) mate)

/-- BSUB. An in-chain Baler job submitted (R258). -/
def execBsub (k : CoreId) (rd ra : GReg) (unit : Fin 4) (mate : CoreOp) (s : State) : Host.Outcome State Fault Refusal :=
  s.run (Chip.bundle k.val (.bsub rd ra unit) mate)

/-- MXADD. Contributions to a mix bus started (R258). -/
def execMxadd (k : CoreId) (ra rb : GReg) (n : Fin 16) (mate : CoreOp) (s : State) : Host.Outcome State Fault Refusal :=
  s.run (Chip.bundle k.val (.mxadd ra rb n) mate)

/-- MXRD. A read of bus output samples started (R258). -/
def execMxrd (k : CoreId) (ra rb : GReg) (n : Fin 16) (mate : CoreOp) (s : State) : Host.Outcome State Fault Refusal :=
  s.run (Chip.bundle k.val (.mxrd ra rb n) mate)

/-- TXP. A frame block sent into the Flume (R258). -/
def execTxp (k : CoreId) (ra : GReg) (mate : CoreOp) (s : State) : Host.Outcome State Fault Refusal :=
  s.run (Chip.bundle k.val (.txp ra) mate)

/-- WAITE. The core waits until its transfers have completed (R259). -/
def execWaite (k : CoreId) (mate : CoreOp) (s : State) : Host.Outcome State Fault Refusal :=
  s.run (Chip.bundle k.val (.waite) mate)

/-- RDT_MT. MT36 read (R259). -/
def execRdtMt (k : CoreId) (rd : GReg) (mate : CoreOp) (s : State) : Host.Outcome State Fault Refusal :=
  s.run (Chip.bundle k.val (.rdtMt rd) mate)

/-- RDT_SUBTICK. The sub-tick count read (R259). -/
def execRdtSubtick (k : CoreId) (rd : GReg) (mate : CoreOp) (s : State) : Host.Outcome State Fault Refusal :=
  s.run (Chip.bundle k.val (.rdtSubtick rd) mate)

/-- RDT_NS. Device time in launch-time form read (R259). -/
def execRdtNs (k : CoreId) (rd : GReg) (mate : CoreOp) (s : State) : Host.Outcome State Fault Refusal :=
  s.run (Chip.bundle k.val (.rdtNs rd) mate)

/-- RDT_COUNT. COUNT [35:0] read (R259). -/
def execRdtCount (k : CoreId) (rd : GReg) (mate : CoreOp) (s : State) : Host.Outcome State Fault Refusal :=
  s.run (Chip.bundle k.val (.rdtCount rd) mate)

/-- RGR. A BAR0 register read by a control core (R266). -/
def execRgr (k : CoreId) (rd ra : GReg) (mate : CoreOp) (s : State) : Host.Outcome State Fault Refusal :=
  s.run (Chip.bundle k.val (.rgr rd ra) mate)

/-- RGW. A BAR0 register written by a control core (R266). -/
def execRgw (k : CoreId) (ra rb : GReg) (mate : CoreOp) (s : State) : Host.Outcome State Fault Refusal :=
  s.run (Chip.bundle k.val (.rgw ra rb) mate)

/-- RETI. Return from an exception or interrupt (R265). -/
def execReti (k : CoreId) (mate : CoreOp) (s : State) : Host.Outcome State Fault Refusal :=
  s.run (Chip.bundle k.val (.reti) mate)

/-- TRAP. The TRAP exception (R260). -/
def execTrap (k : CoreId) (mate : CoreOp) (s : State) : Host.Outcome State Fault Refusal :=
  s.run (Chip.bundle k.val (.trap) mate)

/-- WFI. Wait for an enabled interrupt line (R265). -/
def execWfi (k : CoreId) (mate : CoreOp) (s : State) : Host.Outcome State Fault Refusal :=
  s.run (Chip.bundle k.val (.wfi) mate)

end Sys2Proof.Machine
end

