-- ==== Sys2Proof/Machine/ExecFlume.lean ====
section
/-! DEFINITION. Meanings of the commands: frames and the Flume. -/
namespace Sys2Proof.Machine

open Sys2Proof

/-- FRAME_RECEIVE. The next octets of a frame on a physical port, its last ones with the FCS (R25). -/
def execFrameReceive (p : Fin 64) (octets : List Octet) (last phyErr : Bool) (s : State) : Host.Outcome State Fault Refusal :=
  s.run (Chip.frameReceive p.val octets last phyErr)

/-- FLOW_CACHE_MISS_COMPLETE. The lookup of the oldest waiting frame of an ingress port has been read (R321). -/
def execFlowCacheMissComplete (p : Fin 67) (s : State) : Host.Outcome State Fault Refusal :=
  s.run (Chip.missComplete p.val)

/-- FLOW_INSERT. The INSERT command (R324). -/
def execFlowInsert (q : Requester) (s : State) : Host.Outcome State Fault Refusal :=
  s.run (Chip.flowOp q 1 0 (Chip.cmdInsert q))

/-- FLOW_DELETE. The DELETE command (R324). -/
def execFlowDelete (q : Requester) (s : State) : Host.Outcome State Fault Refusal :=
  s.run (Chip.flowOp q 2 0 (Chip.cmdDelete q))

/-- FLOW_LOOKUP. The LOOKUP command (R324). -/
def execFlowLookup (q : Requester) (s : State) : Host.Outcome State Fault Refusal :=
  s.run (Chip.flowOp q 3 0 (Chip.cmdLookup q))

/-- FLOW_MODIFY. The MODIFY command (R324). -/
def execFlowModify (q : Requester) (s : State) : Host.Outcome State Fault Refusal :=
  s.run (Chip.flowOp q 4 0 (Chip.cmdModify q))

/-- V6SET. The V6SET command (R324). -/
def execV6set (q : Requester) (i : Fin 65536) (s : State) : Host.Outcome State Fault Refusal :=
  s.run (Chip.flowOp q 5 i.val (Chip.cmdV6set q i.val))

/-- V6CLEAR. The V6CLEAR command (R324). -/
def execV6clear (q : Requester) (i : Fin 65536) (s : State) : Host.Outcome State Fault Refusal :=
  s.run (Chip.flowOp q 6 i.val (Chip.cmdV6clear q i.val))

/-- LAUNCH_TIME_REACHED. The launch time of a queue's head is reached (R329). -/
def execLaunchTimeReached (queue : Fin 131072) (s : State) : Host.Outcome State Fault Refusal :=
  s.run (Chip.launchReached queue.val)

/-- GATE_CHANGE_REQUEST. A write of GCTRL with CHANGE = 1 (R335). -/
def execGateChangeRequest (q : Requester) (p : Fin 64) (w : Word) (s : State) : Host.Outcome State Fault Refusal :=
  s.run (Chip.access q .flume_PORT_GCTRL p.val 0 (Chip.writeGctrl q p.val (wput w 35 35 1)))

/-- GATE_CHANGE_ABORT. A write of GCTRL with ABORT = 1 (R336). -/
def execGateChangeAbort (q : Requester) (p : Fin 64) (w : Word) (s : State) : Host.Outcome State Fault Refusal :=
  s.run (Chip.access q .flume_PORT_GCTRL p.val 0 (Chip.writeGctrl q p.val (wput w 34 34 1)))

/-- GATE_LIST_EXCHANGE. The lists change places at the start instant of a pending change (R336). -/
def execGateListExchange (p : Fin 64) (s : State) : Host.Outcome State Fault Refusal :=
  s.run (Chip.settleGates p.val)

/-- GATE_INTERVAL_END. A gate interval or cycle ends (R334, R329, R376). -/
def execGateIntervalEnd (p : Fin 64) (s : State) : Host.Outcome State Fault Refusal :=
  s.run (Chip.gateInterval p.val)

/-- CUT_THROUGH_THRESHOLD. The buffered part of a queue's head reaches CTEFF (R327). -/
def execCutThroughThreshold (queue : Fin 131072) (s : State) : Host.Outcome State Fault Refusal :=
  s.run (Chip.cutReached queue.val)

end Sys2Proof.Machine
end

