-- ==== Sys2Proof/Machine/ExecHost.lean ====
section
/-! DEFINITION. Meanings of the commands: the host link. -/
namespace Sys2Proof.Machine

open Sys2Proof

/-- PCIE_FLR. A Function Level Reset (R431). -/
def execPcieFlr (s : State) : Host.Outcome State Fault Refusal :=
  s.run (Chip.config Chip.flr)

/-- PERST_N_FALL. PERST_N falls (R458). -/
def execPerstNFall (s : State) : Host.Outcome State Fault Refusal :=
  s.run Chip.perstFall

/-- D3HOT_ENTRY. The function enters D3hot (R431). -/
def execD3hotEntry (s : State) : Host.Outcome State Fault Refusal :=
  s.run (Chip.config (Chip.setD3 true))

/-- RING_ENABLE. A write of R.CFG with EN = 1 (R438). -/
def execRingEnable (q : Requester) (r : Fin 16) (w : Word) (s : State) : Host.Outcome State Fault Refusal :=
  s.run (Chip.access q .hostdma_R_CFG r.val 0 (Chip.writeRingCfg q r.val (wput w 35 35 1)))

/-- RING_DISABLE. A write of R.CFG with EN = 0 (R438). -/
def execRingDisable (q : Requester) (r : Fin 16) (w : Word) (s : State) : Host.Outcome State Fault Refusal :=
  s.run (Chip.access q .hostdma_R_CFG r.val 0 (Chip.writeRingCfg q r.val (wput w 35 35 0)))

/-- RING_TAIL_WRITE. A write of R.TAIL (R438). -/
def execRingTailWrite (q : Requester) (r : Fin 16) (w : Word) (s : State) : Host.Outcome State Fault Refusal :=
  s.run (Chip.access q .hostdma_R_TAIL r.val 0 (Chip.writeRingTail q r.val w))

/-- RING_TX. A TX descriptor and the frame it names in host memory (R442). -/
def execRingTx (r : Fin 16) (q0 q1 q2 : BitVec 64) (octets : List Octet) (s : State) : Host.Outcome State Fault Refusal :=
  s.run (Chip.ringTx r.val q0.toNat q1.toNat q2.toNat octets)

/-- RING_RX_FRAME. A frame selected at port 66, with the RX descriptors the ring fetches for it (R443). -/
def execRingRxFrame (descs : List (Nat × Nat)) (s : State) : Host.Outcome State Fault Refusal :=
  s.run (Chip.ringRx descs)

/-- RING_COPY. A COPY descriptor, with the host memory that it reads (R444). -/
def execRingCopy (r : Fin 16) (q0 q1 q2 : BitVec 64) (octets : List Octet) (s : State) : Host.Outcome State Fault Refusal :=
  s.run (Chip.ringCopy r.val q0.toNat q1.toNat q2.toNat octets)

/-- RING_CAPTURE. A CAPTURE descriptor; whether record word 2 changed meanwhile (R445). -/
def execRingCapture (r : Fin 16) (q0 q1 q2 : BitVec 64) (changed : Bool) (s : State) : Host.Outcome State Fault Refusal :=
  s.run (Chip.ringCapture r.val q0.toNat q1.toNat q2.toNat changed)

/-- DESCRIPTOR_COMPLETE. The oldest fetched descriptor of a ring completes (R440). -/
def execDescriptorComplete (r : Fin 16) (s : State) : Host.Outcome State Fault Refusal :=
  s.run (Chip.descComplete r.val)

/-- HOST_READ_TIMEOUT. A read of host memory is not answered within 50 ms (R437). -/
def execHostReadTimeout (r : Fin 16) (q0 q1 q2 : BitVec 64) (s : State) : Host.Outcome State Fault Refusal :=
  s.run (Chip.hostTimeout r.val q0.toNat q1.toNat q2.toNat)

/-- MSIX_MODERATION_EXPIRY. A ring's moderation interval ends (R446). -/
def execMsixModerationExpiry (r : Fin 16) (s : State) : Host.Outcome State Fault Refusal :=
  s.run (Chip.moderationEnd r.val)

/-- MSIX_UNMASK. A vector, or the function, is unmasked (R448). -/
def execMsixUnmask (fn : Bool) (vec : Fin 256) (s : State) : Host.Outcome State Fault Refusal :=
  s.run (Chip.unmask fn vec.val)

/-- MGMT_DATAGRAM. The oldest management datagram is judged and its operations run (R452, R453). -/
def execMgmtDatagram (s : State) : Host.Outcome State Fault Refusal :=
  s.run Chip.mgmtDatagram

end Sys2Proof.Machine
end

