-- ==== Sys2Proof/Machine/ExecItems.lean ====
section
/-! DEFINITION. Meanings of the commands: work items, interrupts and submission queues. -/
namespace Sys2Proof.Machine

open Sys2Proof

/-- INTERRUPT_TAKEN. A control core takes a pending exception, or the lowest enabled line, between bundles (R260, R265). -/
def execInterruptTaken (kc : Fin 4) (cause : Option (Fin 6)) (s : State) : Host.Outcome State Fault Refusal :=
  s.run (Chip.takenOn (96 + kc.val) (cause.map (fun e => e.val)))

/-- WATCHDOG. An item that has run longer than four periods (R260). -/
def execWatchdog (k : Fin 96) (s : State) : Host.Outcome State Fault Refusal :=
  s.run (Chip.watchdog k.val)

/-- TIMER_COMPARE. Device time reaches TCMP (R263). -/
def execTimerCompare (kc : Fin 4) (s : State) : Host.Outcome State Fault Refusal :=
  s.run (Chip.timerCompare kc.val)

/-- MBOX_WRITE. A write of COREDBG.MBOX[k] (R265). -/
def execMboxWrite (q : Requester) (k : Fin 4) (w : Word) (s : State) : Host.Outcome State Fault Refusal :=
  s.run (Chip.access q .coredbg_MBOX k.val 0 (Chip.writeMbox q k.val w))

/-- ENGINE_TRANSFER_COMPLETE. The i-th outstanding transfer of a core completes (R258). -/
def execEngineTransferComplete (k : CoreId) (i : Fin 16) (s : State) : Host.Outcome State Fault Refusal :=
  s.run (Chip.xferComplete k.val i.val)

/-- ITEM_RELEASE. A slot's release tick is reached (R275).
[DEDUCED, log entry 5: safe] -/
def execItemRelease (n : Fin 65536) (s : State) : Host.Outcome State Fault Refusal :=
  s.run (Chip.releaseItem n.val)

/-- READY_LIST_SPACE. Space frees in a ready list (R277). -/
def execReadyListSpace (cl : Fin 12) (s : State) : Host.Outcome State Fault Refusal :=
  s.run (Chip.readySpace cl.val)

/-- ITEM_ASSIGN. The head item of a ready list is given a staging buffer (R278). -/
def execItemAssign (cl : Fin 12) (s : State) : Host.Outcome State Fault Refusal :=
  s.run (Chip.assignItem cl.val)

/-- ITEM_LANDED. The last word of an item's state is in its staging buffer (R279, R283). -/
def execItemLanded (place : Fin 192) (s : State) : Host.Outcome State Fault Refusal :=
  s.run (Chip.itemLanded place.val)

/-- ITEM_DISPATCH. A landed item is delivered to its core (R284). -/
def execItemDispatch (k : Fin 96) (s : State) : Host.Outcome State Fault Refusal :=
  s.run (Chip.itemDispatch k.val)

/-- WRITE_BACK_COMPLETE. A completed item has been written back (R281). -/
def execWriteBackComplete (place : Fin 192) (s : State) : Host.Outcome State Fault Refusal :=
  s.run (Chip.writeBack place.val)

/-- SQ_SUBMIT. The next SUBMIT entry of a queue is decided (R293). -/
def execSqSubmit (q : Requester) (s : State) : Host.Outcome State Fault Refusal :=
  s.run (Chip.submit q)

/-- SQ_CANCEL. The next CANCEL entry of a queue is decided (R294). -/
def execSqCancel (q : Requester) (s : State) : Host.Outcome State Fault Refusal :=
  s.run (Chip.cancel q)

/-- SQBASE_WRITE. A write of LANDING.SQBASE (R291). -/
def execSqbaseWrite (q : Requester) (w : Word) (s : State) : Host.Outcome State Fault Refusal :=
  s.run (Chip.access q .landing_SQBASE 0 0 (Chip.writeSqBase q w))

/-- SQSIZE_WRITE. A write of LANDING.SQSIZE (R291). -/
def execSqsizeWrite (q : Requester) (w : Word) (s : State) : Host.Outcome State Fault Refusal :=
  s.run (Chip.access q .landing_SQSIZE 0 0 (Chip.writeSqSize q w))

/-- SQTAIL_WRITE. A write of LANDING.SQTAIL (R292). -/
def execSqtailWrite (q : Requester) (w : Word) (s : State) : Host.Outcome State Fault Refusal :=
  s.run (Chip.access q .landing_SQTAIL 0 0 (Chip.writeSqTail q w))

end Sys2Proof.Machine
end

