-- ==== Sys2Proof/Machine/ExecKerf.lean ====
section
/-! DEFINITION. Meanings of the commands: the Kerf filter engine. -/
namespace Sys2Proof.Machine

open Sys2Proof

/-- KERF_SWAP_REQUEST. A write of KERF.GANG with SWAP = 1 (R148). -/
def execKerfSwapRequest (q : Requester) (g : Fin 16384) (w : Word) (s : State) : Host.Outcome State Fault Refusal :=
  s.run (Chip.access q .kerf_GANG g.val 0 (Chip.writeGang g.val (wput w 30 30 1)))

/-- KERF_SWAP_POINT. A pending bank swap takes effect (R148). -/
def execKerfSwapPoint (g : Fin 16384) (s : State) : Host.Outcome State Fault Refusal :=
  s.run (Chip.swapPoint g.val)

/-- RING_LANE_ENABLE. A write of KERF.LRATE with EN = 1 (R152). -/
def execRingLaneEnable (q : Requester) (l : Fin 16384) (w : Word) (s : State) : Host.Outcome State Fault Refusal :=
  s.run (Chip.access q .kerf_LRATE l.val 0 (Chip.writeLrate l.val (wput w 33 33 1)))

/-- RING_LANE_STOP. A write of KERF.LRATE with EN = 0 (R154). -/
def execRingLaneStop (q : Requester) (l : Fin 16384) (w : Word) (s : State) : Host.Outcome State Fault Refusal :=
  s.run (Chip.access q .kerf_LRATE l.val 0 (Chip.writeLrate l.val (wput w 33 33 0)))

/-- RING_LANE_RELEASE. OWNER of a stopped ring lane becomes FREE (R154). -/
def execRingLaneRelease (l : Fin 16384) (s : State) : Host.Outcome State Fault Refusal :=
  s.run (Chip.ringRelease l.val)

/-- RING_BLOCK_COMPUTE. A ring lane's block of outputs is computed and written (R153, R155). -/
def execRingBlockCompute (l : Fin 16384) (err : KerfErr) (s : State) : Host.Outcome State Fault Refusal :=
  s.run (Chip.ringBlock l.val err)

/-- KERF_REQUEST_COMPLETE. The oldest Kerf request of a core completes (R151, R155, R258). -/
def execKerfRequestComplete (k : CoreId) (err : KerfErr) (s : State) : Host.Outcome State Fault Refusal :=
  s.run (Chip.kerfComplete k.val err)

end Sys2Proof.Machine
end

