-- ==== Sys2Proof/Machine/ExecLocal.lean ====
section
/-! DEFINITION. Meanings of the commands: Hedgerow, TDM, MADI and GPIO. -/
namespace Sys2Proof.Machine

open Sys2Proof

/-- SEGMENT_ENABLE. A write of SEG.CFG with EN = 1 (R388). -/
def execSegmentEnable (q : Requester) (n : Fin 24) (w : Word) (s : State) : Host.Outcome State Fault Refusal :=
  s.run (Chip.access q .hedge_SEG_CFG n.val 0 (Chip.writeSegCfg n.val (wput w 35 35 1)))

/-- SEGMENT_DISABLE. A write of SEG.CFG with EN = 0 (R388). -/
def execSegmentDisable (q : Requester) (n : Fin 24) (w : Word) (s : State) : Host.Outcome State Fault Refusal :=
  s.run (Chip.access q .hedge_SEG_CFG n.val 0 (Chip.writeSegCfg n.val (wput w 35 35 0)))

/-- SEGMENT_RECALL. A write of SEG.CFG with RECALL = 1 (R388). -/
def execSegmentRecall (q : Requester) (n : Fin 24) (w : Word) (s : State) : Host.Outcome State Fault Refusal :=
  s.run (Chip.access q .hedge_SEG_CFG n.val 0 (Chip.writeSegCfg n.val (wput w 34 34 1)))

/-- HEDGEROW_CYCLE_START. A 4 ms cycle of a segment starts (R388). -/
def execHedgerowCycleStart (n : Fin 24) (s : State) : Host.Outcome State Fault Refusal :=
  s.run (Chip.cycleStart n.val)

/-- POLL_TIMEOUT. 300 us after a POLL without a REPLY (R390). -/
def execPollTimeout (n : Fin 24) (s : State) : Host.Outcome State Fault Refusal :=
  s.run (Chip.pollTimeout n.val)

/-- HG_REPLY_RECEIVED. A REPLY frame on a segment (R390). -/
def execHgReplyReceived (n : Fin 24) (octets : List Octet) (s : State) : Host.Outcome State Fault Refusal :=
  s.run (Chip.replyReceived n.val octets)

/-- HG_AUDIO_RECEIVED. An upstream AUDIO frame on a segment (R393). -/
def execHgAudioReceived (n : Fin 24) (octets : List Octet) (s : State) : Host.Outcome State Fault Refusal :=
  s.run (Chip.audioReceived n.val octets)

/-- HG_CONTROL_RECEIVED. A CONTROL frame on a segment (R396). -/
def execHgControlReceived (n : Fin 24) (octets : List Octet) (s : State) : Host.Outcome State Fault Refusal :=
  s.run (Chip.controlReceived n.val octets)

/-- HG_CONTROL_SEND. A whole packet waiting in CTLTX is sent (R396). -/
def execHgControlSend (n : Fin 24) (s : State) : Host.Outcome State Fault Refusal :=
  s.run (Chip.controlSend n.val)

/-- HG_COLLISION. COL signals a collision (R392). -/
def execHgCollision (n : Fin 24) (s : State) : Host.Outcome State Fault Refusal :=
  s.run (Chip.collision n.val)

/-- HG_BACKOFF_EXPIRY. The back-off delay of every segment that is due ends (R392). -/
def execHgBackoffExpiry (s : State) : Host.Outcome State Fault Refusal :=
  s.run Chip.backoffsEnd

/-- HG_DOWN_ENABLE. A write of SEG.DOWN with EN = 1 (R391). -/
def execHgDownEnable (q : Requester) (n i : Fin 24) (w : Word) (s : State) : Host.Outcome State Fault Refusal :=
  s.run (Chip.access q .hedge_SEG_DOWN n.val i.val (Chip.writeDown n.val i.val (wput w 35 35 1)))

/-- MDIO_WRITE. HEDGE.MDIO GO with OP write (R387). -/
def execMdioWrite (q : Requester) (w : Word) (s : State) : Host.Outcome State Fault Refusal :=
  s.run (Chip.access q .hedge_MDIO 0 0 (Chip.writeMdio q (wput (wput w 35 35 1) 33 32 1)))

/-- MDIO_READ. HEDGE.MDIO GO with OP read (R387). -/
def execMdioRead (q : Requester) (w : Word) (s : State) : Host.Outcome State Fault Refusal :=
  s.run (Chip.access q .hedge_MDIO 0 0 (Chip.writeMdio q (wput (wput w 35 35 1) 33 32 2)))

/-- MDIO_COMPLETE. An MDIO access completes, a read with the PHY's data (R387). -/
def execMdioComplete (data : BitVec 16) (s : State) : Host.Outcome State Fault Refusal :=
  s.run (Chip.mdioComplete data.toNat)

/-- TDM_ENABLE. A write of TDM.CFG with EN = 1 (R400). -/
def execTdmEnable (q : Requester) (u : Fin 8) (w : Word) (s : State) : Host.Outcome State Fault Refusal :=
  s.run (Chip.access q .audioio_TDM_CFG u.val 0 (Chip.writeTdmCfg q u.val (wput w 35 35 1)))

/-- TDM_FRAME. A TDM frame starts; its input slot words (R399). -/
def execTdmFrame (u : Fin 8) (ins : List Nat) (s : State) : Host.Outcome State Fault Refusal :=
  s.run (Chip.tdmFrame u.val ins)

/-- MADI_ENABLE. A write of MADI.CFG with EN = 1 (R401). -/
def execMadiEnable (q : Requester) (u : Fin 4) (w : Word) (s : State) : Host.Outcome State Fault Refusal :=
  s.run (Chip.access q .audioio_MADI_CFG u.val 0 (Chip.writeMadiCfg q u.val (wput w 35 35 1)))

/-- MADI_FRAME_RECEIVED. A MADI frame: each channel's active bit, parity error and audio bits (R402). -/
def execMadiFrameReceived (u : Fin 4) (ins : List (Bool × Bool × Nat)) (s : State) : Host.Outcome State Fault Refusal :=
  s.run (Chip.madiReceive u.val ins)

/-- MADI_FRAME_TRANSMIT. A MADI frame begins (R401). -/
def execMadiFrameTransmit (u : Fin 4) (s : State) : Host.Outcome State Fault Refusal :=
  s.run (Chip.madiTransmit u.val)

/-- OUTPUT_ENTRY_ENABLE. EN of a TDM or MADI output entry (R385). -/
def execOutputEntryEnable (q : Requester) (e : OutEntry) (w : Word) (s : State) : Host.Outcome State Fault Refusal :=
  s.run (Chip.outputOp q e (wput w 35 35 1))

/-- GPIO_INPUT_EDGE. A GPIO pin changes level (R403). -/
def execGpioInputEdge (g : Fin 32) (level : Bool) (s : State) : Host.Outcome State Fault Refusal :=
  s.run (Chip.gpioEdge g.val level)

/-- GPIO_DEBOUNCE_EXPIRY. A new GPIO level has been stable (R403). -/
def execGpioDebounceExpiry (g : Fin 32) (s : State) : Host.Outcome State Fault Refusal :=
  s.run (Chip.gpioExpiry g.val)

/-- GPIO_TIMED_QUEUE. A write of GPIO.TGO with GO = 1 (R404). -/
def execGpioTimedQueue (q : Requester) (w : Word) (s : State) : Host.Outcome State Fault Refusal :=
  s.run (Chip.access q .audioio_GPIO_TGO 0 0 (Chip.writeTgo q (wput w 35 35 1)))

/-- GPIO_TIMED_APPLY. The earliest timed change that is due (R404). -/
def execGpioTimedApply (s : State) : Host.Outcome State Fault Refusal :=
  s.run Chip.timedApply

end Sys2Proof.Machine
end

