-- ==== Sys2Proof/Machine/ExecMac.lean ====
section
/-! DEFINITION. Meanings of the commands: the Ethernet ports. -/
namespace Sys2Proof.Machine

open Sys2Proof

/-- PORT_ENABLE. A write of MAC.CFG with EN = 1 (R360). -/
def execPortEnable (q : Requester) (p : Fin 64) (w : Word) (s : State) : Host.Outcome State Fault Refusal :=
  s.run (Chip.access q .mac_CFG p.val 0 (Chip.writeMacCfg q p.val (wput w 35 35 1)))

/-- PORT_DISABLE. A write of MAC.CFG with EN = 0 (R364). -/
def execPortDisable (q : Requester) (p : Fin 64) (w : Word) (s : State) : Host.Outcome State Fault Refusal :=
  s.run (Chip.access q .mac_CFG p.val 0 (Chip.writeMacCfg q p.val (wput w 35 35 0)))

/-- LINK_ALIGNED. Every lane of a port aligns; the skew of the latest lane in 2^-4 ns, and the faults that stand (R361,
R364). -/
def execLinkAligned (p : Fin 64) (skew : Nat) (hiber localSets remoteSets : Bool) (s : State) : Host.Outcome State Fault Refusal :=
  s.run (Chip.linkAligned p.val skew hiber localSets remoteSets)

/-- LINK_ALIGNMENT_LOST. A lane loses alignment; the lanes that keep block lock (R364). -/
def execLinkAlignmentLost (p : Fin 64) (locks : BitVec 8) (s : State) : Host.Outcome State Fault Refusal :=
  s.run (Chip.alignmentLost p.val locks.toNat)

/-- LINK_FAULT. High BER or fault ordered sets on an UP port (R364). -/
def execLinkFault (p : Fin 64) (hiber localSets remoteSets : Bool) (s : State) : Host.Outcome State Fault Refusal :=
  s.run (Chip.linkFault p.val hiber localSets remoteSets)

/-- LINK_FAULT_CLEAR. 128 columns without fault, with high BER clear (R364). -/
def execLinkFaultClear (p : Fin 64) (skew : Nat) (s : State) : Host.Outcome State Fault Refusal :=
  s.run (Chip.linkFaultClear p.val skew)

/-- TX_UNDERRUN. A transmitting frame's next octet is not buffered (R372). -/
def execTxUnderrun (p : Fin 64) (s : State) : Host.Outcome State Fault Refusal :=
  s.run (Chip.underrun p.val)

/-- CTADAPT_CLEAR. A write of MAC.CTADAPT with CLR = 1 (R373). -/
def execCtadaptClear (q : Requester) (p : Fin 64) (s : State) : Host.Outcome State Fault Refusal :=
  s.run (Chip.access q .mac_CTADAPT p.val 0 (Chip.clearAdapt p.val))

/-- PREEMPT_ENABLE. A write of MAC.PREEMPT with EN = 1 (R375). -/
def execPreemptEnable (q : Requester) (p : Fin 64) (w : Word) (s : State) : Host.Outcome State Fault Refusal :=
  s.run (Chip.access q .mac_PREEMPT p.val 0 (Chip.writePreempt q p.val (wput w 35 35 1)))

/-- VERIFY_TIMER_EXPIRY. The verify timer expires (R375). -/
def execVerifyTimerExpiry (p : Fin 64) (s : State) : Host.Outcome State Fault Refusal :=
  s.run (Chip.verifyTimer p.val)

/-- VERIFY_MPACKET_RECEIVED. A verify mPacket is received (R375). -/
def execVerifyMpacketReceived (p : Fin 64) (s : State) : Host.Outcome State Fault Refusal :=
  s.run (Chip.verifyReceived p.val)

/-- RESPOND_MPACKET_RECEIVED. A respond mPacket is received (R375). -/
def execRespondMpacketReceived (p : Fin 64) (s : State) : Host.Outcome State Fault Refusal :=
  s.run (Chip.respondReceived p.val)

/-- FRAGMENT_RECEIVED. A fragment of a preemptable frame is received (R377). -/
def execFragmentReceived (p : Fin 64) (start : Bool) (count : Fin 4) (octets : List Octet) (final mcrcOk : Bool) (s : State) : Host.Outcome State Fault Refusal :=
  s.run (Chip.fragmentReceived p.val start count.val octets final mcrcOk)

end Sys2Proof.Machine
end

