-- ==== Sys2Proof/Machine/ExecMemory.lean ====
section
/-! DEFINITION. Meanings of the commands: the memory controller. -/
namespace Sys2Proof.Machine

open Sys2Proof

/-- DRAM_REQUEST. A read, write or masked write reaches the controller (R413, R414). -/
def execDramRequest (src : Fin 9) (host write : Bool) (burst : BitVec 34) (mask : BitVec 16) (ws : List Word) (s : State) : Host.Outcome State Fault Refusal :=
  s.run (Chip.dramRequest src.val host burst.toNat write mask.toNat ws)

/-- DRAM_COMMAND_ISSUE. A subchannel issues its next command (R415). -/
def execDramCommandIssue (sc : Fin 16) (s : State) : Host.Outcome State Fault Refusal :=
  s.run (Chip.dramIssue sc.val)

/-- DRAM_READ_COMPLETE. The oldest read in flight returns, with the error pattern of its transfer (R409, R420). -/
def execDramReadComplete (sc : Fin 16) (pattern : BitVec 640) (s : State) : Host.Outcome State Fault Refusal :=
  s.run (Chip.dramReadComplete sc.val pattern.toNat)

/-- REFRESH_DUE. A tREFI of a rank (R416). -/
def execRefreshDue (sc : Fin 16) (rank : Fin 4) (s : State) : Host.Outcome State Fault Refusal :=
  s.run (Chip.refreshDue sc.val rank.val)

/-- REFRESH_WINDOW_END. A refresh window ends (R417 to R419). -/
def execRefreshWindowEnd (s : State) : Host.Outcome State Fault Refusal :=
  s.run Chip.windowDone

/-- CA_PARITY_ALERT. ALERT_n of a subchannel: how many of its last requests may have been lost (R421). -/
def execCaParityAlert (sc : Fin 16) (n : Fin 65) (s : State) : Host.Outcome State Fault Refusal :=
  s.run (Chip.parityAlert sc.val n.val)

/-- SCRUB_READ. A patrol scrub read (R422). -/
def execScrubRead (pattern : BitVec 640) (s : State) : Host.Outcome State Fault Refusal :=
  s.run (Chip.scrubRead pattern.toNat)

/-- DRIFT_PAUSE_START. A drift pause begins; the ranks that report a high temperature (R426, R496). -/
def execDriftPauseStart (sc : Fin 16) (hot : BitVec 4) (s : State) : Host.Outcome State Fault Refusal :=
  s.run (Chip.pauseStart sc.val hot.toNat)

/-- DRIFT_PAUSE_END. A drift pause ends; the lanes sampled late and early (R426). -/
def execDriftPauseEnd (sc : Fin 16) (up down : BitVec 40) (s : State) : Host.Outcome State Fault Refusal :=
  s.run (Chip.pauseEnd sc.val up.toNat down.toNat)

/-- FREQ_POINT_REQUEST. A write of MC.FPREQ (R427). -/
def execFreqPointRequest (q : Requester) (w : Word) (s : State) : Host.Outcome State Fault Refusal :=
  s.run (Chip.access q .mc_FPREQ 0 0 (Chip.writeFpreq q w))

/-- FREQ_CHANGE_START. A requested change of frequency point starts (R428). -/
def execFreqChangeStart (s : State) : Host.Outcome State Fault Refusal :=
  s.run Chip.changeStart

/-- FREQ_CHANGE_COMPLETE. The change of frequency point finishes (R428). -/
def execFreqChangeComplete (s : State) : Host.Outcome State Fault Refusal :=
  s.run Chip.changeComplete

end Sys2Proof.Machine
end

