-- ==== Sys2Proof/Machine/ExecModes.lean ====
section
/-! DEFINITION. Meanings of the commands: modes, faults and RECOVERY. -/
namespace Sys2Proof.Machine

open Sys2Proof

/-- REQUEST_RUN. A write of FAULT.MODEREQ with REQ = 1 (R478, Table 19.2). -/
def execRequestRun (q : Requester) (s : State) : Host.Outcome State Fault Refusal :=
  s.run (Chip.modeOp q 1)

/-- REQUEST_ECO. A write of FAULT.MODEREQ with REQ = 2 (R478, Table 19.2). -/
def execRequestEco (q : Requester) (s : State) : Host.Outcome State Fault Refusal :=
  s.run (Chip.modeOp q 2)

/-- REQUEST_DRAIN. A write of FAULT.MODEREQ with REQ = 3 (R478, Table 19.2). -/
def execRequestDrain (q : Requester) (s : State) : Host.Outcome State Fault Refusal :=
  s.run (Chip.modeOp q 3)

/-- REQUEST_TEST. A write of FAULT.MODEREQ with REQ = 4 (R478, Table 19.2). -/
def execRequestTest (q : Requester) (s : State) : Host.Outcome State Fault Refusal :=
  s.run (Chip.modeOp q 4)

/-- RECOVER_CHANNEL. A write of FAULT.MODEREQ with REQ = 5 (R478, Table 19.2). -/
def execRecoverChannel (q : Requester) (s : State) : Host.Outcome State Fault Refusal :=
  s.run (Chip.modeOp q 5)

/-- RECOVER_FORWARDING. A write of FAULT.MODEREQ with REQ = 6 (R478, Table 19.2). -/
def execRecoverForwarding (q : Requester) (s : State) : Host.Outcome State Fault Refusal :=
  s.run (Chip.modeOp q 6)

/-- RECOVER_BOTH. A write of FAULT.MODEREQ with REQ = 7 (R478, Table 19.2). -/
def execRecoverBoth (q : Requester) (s : State) : Host.Outcome State Fault Refusal :=
  s.run (Chip.modeOp q 7)

/-- STEP_REQUEST. A write of FAULT.MODEREQ with REQ = 8 (R478, Table 19.2). -/
def execStepRequest (q : Requester) (s : State) : Host.Outcome State Fault Refusal :=
  s.run (Chip.modeOp q 8)

/-- FATAL_FAULT. A fatal fault of a source of Table 19.4; `chan` names the domain where the source can lie in either
(R481). -/
def execFatalFault (source : Fin 64) (chan : Bool) (s : State) : Host.Outcome State Fault Refusal :=
  s.run (Chip.fatalFault source.val chan)

/-- RECOVERY_FLUSH_END. The Flush phase of a domain ends (R485). -/
def execRecoveryFlushEnd (chan : Bool) (s : State) : Host.Outcome State Fault Refusal :=
  s.run (Chip.flushEnd chan)

/-- RECOVERY_CHECK_END. The Check phase of a domain ends, or finds a word that stays bad (R485). -/
def execRecoveryCheckEnd (chan bad : Bool) (s : State) : Host.Outcome State Fault Refusal :=
  s.run (Chip.checkEnd chan bad)

/-- RECOVERY_COMPLETE. RECOVERY of a domain completes (R485). -/
def execRecoveryComplete (chan : Bool) (s : State) : Host.Outcome State Fault Refusal :=
  s.run (Chip.recoveryComplete chan)

/-- FAULT_RECORD_WRITTEN. A queued entry has been written (R489, R484). -/
def execFaultRecordWritten (s : State) : Host.Outcome State Fault Refusal :=
  s.runClock Chip.recordWritten

/-- FLASH_HALF_ERASED. The erase of the inactive half ends (R488). -/
def execFlashHalfErased (s : State) : Host.Outcome State Fault Refusal :=
  s.run Chip.halfErased

/-- PFAIL_N_FALL. PFAIL_N has been low for 1 us (R490). -/
def execPfailNFall (s : State) : Host.Outcome State Fault Refusal :=
  s.run Chip.pfail

end Sys2Proof.Machine
end

