-- ==== Sys2Proof/Machine/ExecPins.lean ====
section
/-! DEFINITION. Meanings of the commands: pins of the link and of the test port. -/
namespace Sys2Proof.Machine

open Sys2Proof

/-- PERST_N_RISE. PERST_N rises (R458). -/
def execPerstNRise (s : State) : Host.Outcome State Fault Refusal :=
  s.run Chip.perstRise

/-- D3HOT_EXIT. The function returns to D0 (R431). -/
def execD3hotExit (s : State) : Host.Outcome State Fault Refusal :=
  s.run (Chip.config (Chip.setD3 false))

/-- HG_FRAME_FORMAT_DISCARD. A Hedgerow frame that fails the checks of R389. -/
def execHgFrameFormatDiscard (n : Fin 24) (octets : List Octet) (s : State) : Host.Outcome State Fault Refusal :=
  s.run (Chip.formatDiscard n.val octets)

/-- JTAG_TCK_EDGE. An edge of JTAG_TCK, with the levels of JTAG_TRST_N, JTAG_TMS and JTAG_TDI (R508, R461). -/
def execJtagTckEdge (rise trstN tms tdi : Bool) (s : State) : Host.Outcome State Fault Refusal :=
  s.runFuse (Chip.tckEdge rise trstN tms tdi)

/-- JTAG_TRST_N_FALL. JTAG_TRST_N falls (R508). -/
def execJtagTrstNFall (s : State) : Host.Outcome State Fault Refusal :=
  s.runBoot Chip.trstFall

end Sys2Proof.Machine
end

