-- ==== Sys2Proof/Machine/ExecRanger.lean ====
section
/-! DEFINITION. Meanings of the commands: the Ranger. -/
namespace Sys2Proof.Machine

open Sys2Proof

/-- SENSOR_SAMPLE. The readings of the 64 sensors in eighths of a degree, and the mean powers of the domains and the
package in mW (R493). -/
def execSensorSample (temps : List Int) (domains : List Nat) (total : Nat) (s : State) : Host.Outcome State Fault Refusal :=
  s.run (Chip.sample temps domains total)

/-- THROTTLE_STEP. A step of the throttle (R498). -/
def execThrottleStep (s : State) : Host.Outcome State Fault Refusal :=
  s.run Chip.throttleStep

/-- THROTTLE_RESTORE. A step of the throttle is given back (R498). -/
def execThrottleRestore (s : State) : Host.Outcome State Fault Refusal :=
  s.run Chip.throttleRestore

/-- TDP_CAP_STEP. A step of the power cap (R497). -/
def execTdpCapStep (s : State) : Host.Outcome State Fault Refusal :=
  s.run Chip.capStep

/-- TDP_CAP_RESTORE. A step of the power cap is given back (R497). -/
def execTdpCapRestore (s : State) : Host.Outcome State Fault Refusal :=
  s.run Chip.capRestore

/-- UTILISATION_PERIOD. The mean utilisations of the last 1 ms in per cent: 12 clusters and the control cores (R495). -/
def execUtilisationPeriod (uses : List Nat) (s : State) : Host.Outcome State Fault Refusal :=
  s.run (Chip.utilPeriod uses)

/-- OPP_CHANGE_COMPLETE. A change of operating point completes (R494). -/
def execOppChangeComplete (g : Fin 13) (s : State) : Host.Outcome State Fault Refusal :=
  s.run (Chip.oppComplete g.val)

/-- CLUSTER_GATE. Every idle cluster that is due is gated (R495). -/
def execClusterGate (s : State) : Host.Outcome State Fault Refusal :=
  s.run Chip.gateClusters

/-- THERMAL_TRIP. A sensor has read the trip threshold twice (R499). -/
def execThermalTrip (s : State) : Host.Outcome State Fault Refusal :=
  s.runClock Chip.thermalTrip

/-- PMB_ALERT. PMB_ALERT_N low: whether each listed converter's STATUS_WORD shows a fault (R500). -/
def execPmbAlert (faults : List Bool) (s : State) : Host.Outcome State Fault Refusal :=
  s.run (Chip.pmbAlert faults)

end Sys2Proof.Machine
end

