-- ==== Sys2Proof/Machine/ExecRegisters.lean ====
section
/-! DEFINITION. Meanings of the commands: register accesses and reads with an effect. -/
namespace Sys2Proof.Machine

open Sys2Proof

/-- REGISTER_WRITE. A 36-bit write of the register at a BAR0 octet offset (R11, R12, R36, R515). -/
def execRegisterWrite (q : Requester) (off : BitVec 26) (w : Word) (s : State) : Host.Outcome State Fault Refusal :=
  s.run (Chip.writeReg q off.toNat w)

/-- READ_AND_CLEAR. A 36-bit read of the register at a BAR0 octet offset; an RC field is cleared by it (R11). -/
def execReadAndClear (q : Requester) (off : BitVec 26) (s : State) : Host.Outcome State Fault Refusal :=
  s.run (Chip.readReg q off.toNat)

/-- BAR0_LOW_WRITE. A 32-bit write of the low half of a slot (R432, R433). -/
def execBar0LowWrite (q : Requester) (off : BitVec 26) (v : BitVec 32) (s : State) : Host.Outcome State Fault Refusal :=
  s.run (Chip.lowWrite q off.toNat v.toNat)

/-- BAR0_HIGH_WRITE. A 32-bit write of the high half of a slot (R432, R433). -/
def execBar0HighWrite (q : Requester) (off : BitVec 26) (v : BitVec 32) (s : State) : Host.Outcome State Fault Refusal :=
  s.run (Chip.highWrite q off.toNat v.toNat)

/-- BAR0_LOW_READ. A 32-bit read of the low half of a slot, or of the high half after it (R432). -/
def execBar0LowRead (off : BitVec 26) (high : Bool) (s : State) : Host.Outcome State Fault Refusal :=
  s.run (Chip.halfRead off.toNat high)

/-- BAR0_BAD_ACCESS. A BAR0 access of another size or alignment (R434). -/
def execBar0BadAccess (off : BitVec 26) (write : Bool) (s : State) : Host.Outcome State Fault Refusal :=
  s.run (Chip.badAccess off.toNat write)

/-- BAR2_READ. A host read through the BAR2 window (R435, R436). -/
def execBar2Read (off : BitVec 40) (part : SlotPart) (s : State) : Host.Outcome State Fault Refusal :=
  s.run (Chip.bar2Read off.toNat part)

/-- BAR2_WRITE. A host write through the BAR2 window (R435, R80, R325). -/
def execBar2Write (off : BitVec 40) (part : SlotPart) (v : BitVec 64) (s : State) : Host.Outcome State Fault Refusal :=
  s.run (Chip.bar2Write off.toNat part v.toNat)

/-- TIME_NOW_READ. A read of TIME.NOW_SECLO (R47). -/
def execTimeNowRead (q : Requester) (s : State) : Host.Outcome State Fault Refusal :=
  s.run (Chip.accessRead q .time_NOW_SECLO 0 0 (Chip.readNow q))

/-- MAC_COUNTER_LOW_READ. A read of the low register of a 72-bit MAC counter (R380). -/
def execMacCounterLowRead (q : Requester) (p : Fin 64) (k : Fin 3) (s : State) : Host.Outcome State Fault Refusal :=
  s.run (Chip.accessRead q .mac_STAT p.val (wideCounter k) (Chip.regRead q .mac_STAT p.val (wideCounter k)))

/-- FAULT_LAST_READ. A read of FAULT.LAST[0] (R517). -/
def execFaultLastRead (q : Requester) (s : State) : Host.Outcome State Fault Refusal :=
  s.run (Chip.accessRead q .fault_LAST0 0 0 (Chip.regRead q .fault_LAST0 0 0))

/-- COREDBG_LASTEXC_READ. A read of COREDBG.LASTEXC (R517). -/
def execCoredbgLastexcRead (q : Requester) (s : State) : Host.Outcome State Fault Refusal :=
  s.run (Chip.accessRead q .coredbg_LASTEXC 0 0 (Chip.regRead q .coredbg_LASTEXC 0 0))

/-- MC_ELOG_READ. A read of MC.ELOG[0] (R424). -/
def execMcElogRead (q : Requester) (s : State) : Host.Outcome State Fault Refusal :=
  s.run (Chip.accessRead q .mc_ELOG 0 0 (Chip.readElog q))

/-- KERF_COEFDATA_ACCESS. A write of a word to KERF.COEFDATA, or a read of it (R147). -/
def execKerfCoefdataAccess (q : Requester) (w : Option Word) (s : State) : Host.Outcome State Fault Refusal :=
  s.run (Chip.coefData q w)

end Sys2Proof.Machine
end

