-- ==== Sys2Proof/Machine/ExecTime.lean ====
section
/-! DEFINITION. Meanings of the commands: the time unit. -/
namespace Sys2Proof.Machine

open Sys2Proof

/-- SAMPLE_TICK. Media time advances to the next sample index (R70). -/
def execSampleTick (s : State) : Host.Outcome State Fault Refusal :=
  s.runClock Chip.sampleTick

/-- BLOCK_BOUNDARY. A sample tick at which MT mod B is 0 opens a new block (R71, R121). -/
def execBlockBoundary (s : State) : Host.Outcome State Fault Refusal :=
  s.run Chip.blockBoundary

/-- TIME_RATE_WRITE. A write of TIME.RATE (R45, R46). -/
def execTimeRateWrite (q : Requester) (w : Word) (s : State) : Host.Outcome State Fault Refusal :=
  s.run (Chip.access q .time_RATE 0 0 (Chip.writeRate w.toNat))

/-- STEP_GO. A write of TIME.STEP_NS with GO = 1 (R48). -/
def execStepGo (q : Requester) (w : Word) (s : State) : Host.Outcome State Fault Refusal :=
  s.run (Chip.access q .time_STEP_NS 0 0 (Chip.writeStepNs (wput w 35 35 1)))

/-- TIME_SOURCE_WRITE. A write of TIME.CTRL (R53). -/
def execTimeSourceWrite (q : Requester) (w : Word) (s : State) : Host.Outcome State Fault Refusal :=
  s.run (Chip.access q .time_CTRL 0 0 (Chip.writeTimeCtrl w))

/-- SERVO_EXCHANGE. The servo completes an exchange: its four times, or two and the mean path delay, in 2^-16 ns, the Sync
interval, COUNT at its beginning, and whether its master is the chosen one and a record of it was lost (R68, R53). -/
def execServoExchange (t1 t2 t3 t4 : Nat) (peer : Option Nat) (log : Int) (begun : Nat) (master gap : Bool) (s : State) : Host.Outcome State Fault Refusal :=
  s.run (Chip.servoExchange t1 t2 t3 t4 peer log begun master gap)

/-- HOLDOVER_TIMEOUT. No valid exchange for HOLDMS (R53, R69). -/
def execHoldoverTimeout (s : State) : Host.Outcome State Fault Refusal :=
  s.run Chip.holdoverTimeout

/-- PPS_IN_EDGE. An edge of PPS_IN (R77). -/
def execPpsInEdge (rising : Bool) (s : State) : Host.Outcome State Fault Refusal :=
  s.run (Chip.ppsIn rising)

/-- PPS_OUT_EDGE. PPS_OUT takes its level (R76). -/
def execPpsOutEdge (s : State) : Host.Outcome State Fault Refusal :=
  s.run Chip.ppsOut

/-- WCLK_OUT_EDGE. WCLK_OUT takes its level (R76). -/
def execWclkOutEdge (s : State) : Host.Outcome State Fault Refusal :=
  s.run Chip.wclkOut

/-- FREQ_OUT_EDGE. FREQ_OUT takes its level (R76). -/
def execFreqOutEdge (s : State) : Host.Outcome State Fault Refusal :=
  s.run Chip.freqOut

end Sys2Proof.Machine
end

