-- ==== Sys2Proof/Machine/Dispatch.lean ====
section
/-! DEFINITION. What each command does: one direct call of its meaning. -/
namespace Sys2Proof.Machine
open Sys2Proof
/-- The effect of a command on everything but the queue. -/
def exec (i : Instr) (s : State) : Host.Outcome State Fault Refusal :=
  match i with
  | .registerWrite q off w => Sys2Proof.Machine.execRegisterWrite q off w s
  | .readAndClear q off => Sys2Proof.Machine.execReadAndClear q off s
  | .bar0LowWrite q off v => Sys2Proof.Machine.execBar0LowWrite q off v s
  | .bar0HighWrite q off v => Sys2Proof.Machine.execBar0HighWrite q off v s
  | .bar0LowRead off high => Sys2Proof.Machine.execBar0LowRead off high s
  | .bar0BadAccess off write => Sys2Proof.Machine.execBar0BadAccess off write s
  | .bar2Read off part => Sys2Proof.Machine.execBar2Read off part s
  | .bar2Write off part v => Sys2Proof.Machine.execBar2Write off part v s
  | .timeNowRead q => Sys2Proof.Machine.execTimeNowRead q s
  | .macCounterLowRead q p k => Sys2Proof.Machine.execMacCounterLowRead q p k s
  | .faultLastRead q => Sys2Proof.Machine.execFaultLastRead q s
  | .coredbgLastexcRead q => Sys2Proof.Machine.execCoredbgLastexcRead q s
  | .mcElogRead q => Sys2Proof.Machine.execMcElogRead q s
  | .kerfCoefdataAccess q w => Sys2Proof.Machine.execKerfCoefdataAccess q w s
  | .sampleTick => Sys2Proof.Machine.execSampleTick s
  | .blockBoundary => Sys2Proof.Machine.execBlockBoundary s
  | .timeRateWrite q w => Sys2Proof.Machine.execTimeRateWrite q w s
  | .stepGo q w => Sys2Proof.Machine.execStepGo q w s
  | .timeSourceWrite q w => Sys2Proof.Machine.execTimeSourceWrite q w s
  | .servoExchange t1 t2 t3 t4 peer log begun master gap => Sys2Proof.Machine.execServoExchange t1 t2 t3 t4 peer log begun master gap s
  | .holdoverTimeout => Sys2Proof.Machine.execHoldoverTimeout s
  | .ppsInEdge rising => Sys2Proof.Machine.execPpsInEdge rising s
  | .ppsOutEdge => Sys2Proof.Machine.execPpsOutEdge s
  | .wclkOutEdge => Sys2Proof.Machine.execWclkOutEdge s
  | .freqOutEdge => Sys2Proof.Machine.execFreqOutEdge s
  | .activate q ch => Sys2Proof.Machine.execActivate q ch s
  | .update q ch => Sys2Proof.Machine.execUpdate q ch s
  | .deactivate q ch => Sys2Proof.Machine.execDeactivate q ch s
  | .restart q ch => Sys2Proof.Machine.execRestart q ch s
  | .read q ch => Sys2Proof.Machine.execRead q ch s
  | .channelFirstFrame ch => Sys2Proof.Machine.execChannelFirstFrame ch s
  | .updateApply ch => Sys2Proof.Machine.execUpdateApply ch s
  | .channelRestartResume ch => Sys2Proof.Machine.execChannelRestartResume ch s
  | .channelIngressFrame => Sys2Proof.Machine.execChannelIngressFrame s
  | .jbWindowEnd => Sys2Proof.Machine.execJbWindowEnd s
  | .kerfSwapRequest q g w => Sys2Proof.Machine.execKerfSwapRequest q g w s
  | .kerfSwapPoint g => Sys2Proof.Machine.execKerfSwapPoint g s
  | .ringLaneEnable q l w => Sys2Proof.Machine.execRingLaneEnable q l w s
  | .ringLaneStop q l w => Sys2Proof.Machine.execRingLaneStop q l w s
  | .ringLaneRelease l => Sys2Proof.Machine.execRingLaneRelease l s
  | .ringBlockCompute l err => Sys2Proof.Machine.execRingBlockCompute l err s
  | .kerfRequestComplete k err => Sys2Proof.Machine.execKerfRequestComplete k err s
  | .busEnable q b w => Sys2Proof.Machine.execBusEnable q b w s
  | .busDisable q b w => Sys2Proof.Machine.execBusDisable q b w s
  | .mixBlockOpen b => Sys2Proof.Machine.execMixBlockOpen b s
  | .mixBlockClose b => Sys2Proof.Machine.execMixBlockClose b s
  | .balerSubmit q u => Sys2Proof.Machine.execBalerSubmit q u s
  | .balerJobStart u => Sys2Proof.Machine.execBalerJobStart u s
  | .balerJobComplete u mismatch => Sys2Proof.Machine.execBalerJobComplete u mismatch s
  | .nop k mate => Sys2Proof.Machine.execNop k mate s
  | .add k sat rd ra rb mate => Sys2Proof.Machine.execAdd k sat rd ra rb mate s
  | .sub k sat rd ra rb mate => Sys2Proof.Machine.execSub k sat rd ra rb mate s
  | .neg k sat rd ra mate => Sys2Proof.Machine.execNeg k sat rd ra mate s
  | .abs k sat rd ra mate => Sys2Proof.Machine.execAbs k sat rd ra mate s
  | .and k rd ra rb mate => Sys2Proof.Machine.execAnd k rd ra rb mate s
  | .or k rd ra rb mate => Sys2Proof.Machine.execOr k rd ra rb mate s
  | .xor k rd ra rb mate => Sys2Proof.Machine.execXor k rd ra rb mate s
  | .andn k rd ra rb mate => Sys2Proof.Machine.execAndn k rd ra rb mate s
  | .shl k sat rd ra rb sh mate => Sys2Proof.Machine.execShl k sat rd ra rb sh mate s
  | .asr k rd ra rb sh mate => Sys2Proof.Machine.execAsr k rd ra rb sh mate s
  | .lsr k rd ra rb sh mate => Sys2Proof.Machine.execLsr k rd ra rb sh mate s
  | .asrr k rd ra rb sh mate => Sys2Proof.Machine.execAsrr k rd ra rb sh mate s
  | .min k rd ra rb mate => Sys2Proof.Machine.execMin k rd ra rb mate s
  | .max k rd ra rb mate => Sys2Proof.Machine.execMax k rd ra rb mate s
  | .cmp k ra rb mate => Sys2Proof.Machine.execCmp k ra rb mate s
  | .cls k rd ra mate => Sys2Proof.Machine.execCls k rd ra mate s
  | .brev k rd ra sh mate => Sys2Proof.Machine.execBrev k rd ra sh mate s
  | .mulf k sat rd ra rb mate => Sys2Proof.Machine.execMulf k sat rd ra rb mate s
  | .muli k sat rd ra rb mate => Sys2Proof.Machine.execMuli k sat rd ra rb mate s
  | .mulh k rd ra rb mate => Sys2Proof.Machine.execMulh k rd ra rb mate s
  | .addi k sat rd ra imm mate => Sys2Proof.Machine.execAddi k sat rd ra imm mate s
  | .andi k rd ra imm mate => Sys2Proof.Machine.execAndi k rd ra imm mate s
  | .ori k rd ra imm mate => Sys2Proof.Machine.execOri k rd ra imm mate s
  | .lui k rd imm mate => Sys2Proof.Machine.execLui k rd imm mate s
  | .cmpi k ra imm mate => Sys2Proof.Machine.execCmpi k ra imm mate s
  | .ld k rd m mate => Sys2Proof.Machine.execLd k rd m mate s
  | .st k rs m mate => Sys2Proof.Machine.execSt k rs m mate s
  | .ldp k rd ra imm mate => Sys2Proof.Machine.execLdp k rd ra imm mate s
  | .ldpl k rd ra imm mate => Sys2Proof.Machine.execLdpl k rd ra imm mate s
  | .mac k sat ad ra rb mate => Sys2Proof.Machine.execMac k sat ad ra rb mate s
  | .msu k sat ad ra rb mate => Sys2Proof.Machine.execMsu k sat ad ra rb mate s
  | .mpy k sat ad ra rb mate => Sys2Proof.Machine.execMpy k sat ad ra rb mate s
  | .clra k ad mate => Sys2Proof.Machine.execClra k ad mate s
  | .accr k sat ad ra sh mate => Sys2Proof.Machine.execAccr k sat ad ra sh mate s
  | .accw k ad rb mate => Sys2Proof.Machine.execAccw k ad rb mate s
  | .adda k sat ad asrc mate => Sys2Proof.Machine.execAdda k sat ad asrc mate s
  | .aget k ad ra part mate => Sys2Proof.Machine.execAget k ad ra part mate s
  | .aput k ad rb part mate => Sys2Proof.Machine.execAput k ad rb part mate s
  | .tapm k sat ad xa mode mate => Sys2Proof.Machine.execTapm k sat ad xa mode mate s
  | .br k cond link off mate => Sys2Proof.Machine.execBr k cond link off mate s
  | .jr k rd ra mate => Sys2Proof.Machine.execJr k rd ra mate s
  | .loop k lv reg cnt body mate => Sys2Proof.Machine.execLoop k lv reg cnt body mate s
  | .movxSetX k x ra mate => Sys2Proof.Machine.execMovxSetX k x ra mate s
  | .movxGetX k rd x mate => Sys2Proof.Machine.execMovxGetX k rd x mate s
  | .movxSetXB k x ra mate => Sys2Proof.Machine.execMovxSetXB k x ra mate s
  | .movxGetXB k rd x mate => Sys2Proof.Machine.execMovxGetXB k rd x mate s
  | .movxSetXL k x ra mate => Sys2Proof.Machine.execMovxSetXL k x ra mate s
  | .movxGetXL k rd x mate => Sys2Proof.Machine.execMovxGetXL k rd x mate s
  | .movxSetTcr k ra mate => Sys2Proof.Machine.execMovxSetTcr k ra mate s
  | .movxGetTcr k rd mate => Sys2Proof.Machine.execMovxGetTcr k rd mate s
  | .csrr k rd cr mate => Sys2Proof.Machine.execCsrr k rd cr mate s
  | .csrw k ra cr mate => Sys2Proof.Machine.execCsrw k ra cr mate s
  | .take k mate => Sys2Proof.Machine.execTake k mate s
  | .spawn k ra mate => Sys2Proof.Machine.execSpawn k ra mate s
  | .push k ra rb fin mate => Sys2Proof.Machine.execPush k ra rb fin mate s
  | .pop k rd rb mate => Sys2Proof.Machine.execPop k rd rb mate s
  | .chcDroprest k regs mate => Sys2Proof.Machine.execChcDroprest k regs mate s
  | .chcCount k rd rb mate => Sys2Proof.Machine.execChcCount k rd rb mate s
  | .chcPkts k rd rb mate => Sys2Proof.Machine.execChcPkts k rd rb mate s
  | .dmovIn k ra rb n mate => Sys2Proof.Machine.execDmovIn k ra rb n mate s
  | .dmovOut k ra rb n mate => Sys2Proof.Machine.execDmovOut k ra rb n mate s
  | .kreq k ra rb mate => Sys2Proof.Machine.execKreq k ra rb mate s
  | .bsub k rd ra unit mate => Sys2Proof.Machine.execBsub k rd ra unit mate s
  | .mxadd k ra rb n mate => Sys2Proof.Machine.execMxadd k ra rb n mate s
  | .mxrd k ra rb n mate => Sys2Proof.Machine.execMxrd k ra rb n mate s
  | .txp k ra mate => Sys2Proof.Machine.execTxp k ra mate s
  | .waite k mate => Sys2Proof.Machine.execWaite k mate s
  | .rdtMt k rd mate => Sys2Proof.Machine.execRdtMt k rd mate s
  | .rdtSubtick k rd mate => Sys2Proof.Machine.execRdtSubtick k rd mate s
  | .rdtNs k rd mate => Sys2Proof.Machine.execRdtNs k rd mate s
  | .rdtCount k rd mate => Sys2Proof.Machine.execRdtCount k rd mate s
  | .rgr k rd ra mate => Sys2Proof.Machine.execRgr k rd ra mate s
  | .rgw k ra rb mate => Sys2Proof.Machine.execRgw k ra rb mate s
  | .reti k mate => Sys2Proof.Machine.execReti k mate s
  | .trap k mate => Sys2Proof.Machine.execTrap k mate s
  | .wfi k mate => Sys2Proof.Machine.execWfi k mate s
  | .interruptTaken kc cause => Sys2Proof.Machine.execInterruptTaken kc cause s
  | .watchdog k => Sys2Proof.Machine.execWatchdog k s
  | .timerCompare kc => Sys2Proof.Machine.execTimerCompare kc s
  | .mboxWrite q k w => Sys2Proof.Machine.execMboxWrite q k w s
  | .engineTransferComplete k n => Sys2Proof.Machine.execEngineTransferComplete k n s
  | .itemRelease n => Sys2Proof.Machine.execItemRelease n s
  | .readyListSpace cl => Sys2Proof.Machine.execReadyListSpace cl s
  | .itemAssign cl => Sys2Proof.Machine.execItemAssign cl s
  | .itemLanded place => Sys2Proof.Machine.execItemLanded place s
  | .itemDispatch k => Sys2Proof.Machine.execItemDispatch k s
  | .writeBackComplete place => Sys2Proof.Machine.execWriteBackComplete place s
  | .sqSubmit q => Sys2Proof.Machine.execSqSubmit q s
  | .sqCancel q => Sys2Proof.Machine.execSqCancel q s
  | .sqbaseWrite q w => Sys2Proof.Machine.execSqbaseWrite q w s
  | .sqsizeWrite q w => Sys2Proof.Machine.execSqsizeWrite q w s
  | .sqtailWrite q w => Sys2Proof.Machine.execSqtailWrite q w s
  | .chutePushWrite q n w => Sys2Proof.Machine.execChutePushWrite q n w s
  | .chutePushendWrite q n w => Sys2Proof.Machine.execChutePushendWrite q n w s
  | .chutePopRead q n => Sys2Proof.Machine.execChutePopRead q n s
  | .chuteWordArrive a => Sys2Proof.Machine.execChuteWordArrive a s
  | .chuteDroprestWrite q n => Sys2Proof.Machine.execChuteDroprestWrite q n s
  | .chuteCfgWrite q n w => Sys2Proof.Machine.execChuteCfgWrite q n w s
  | .chuteCfgForce q n w => Sys2Proof.Machine.execChuteCfgForce q n w s
  | .chuteCfgApply n => Sys2Proof.Machine.execChuteCfgApply n s
  | .frameReceive p octets last phyErr => Sys2Proof.Machine.execFrameReceive p octets last phyErr s
  | .flowCacheMissComplete p => Sys2Proof.Machine.execFlowCacheMissComplete p s
  | .flowInsert q => Sys2Proof.Machine.execFlowInsert q s
  | .flowDelete q => Sys2Proof.Machine.execFlowDelete q s
  | .flowLookup q => Sys2Proof.Machine.execFlowLookup q s
  | .flowModify q => Sys2Proof.Machine.execFlowModify q s
  | .v6set q n => Sys2Proof.Machine.execV6set q n s
  | .v6clear q n => Sys2Proof.Machine.execV6clear q n s
  | .launchTimeReached queue => Sys2Proof.Machine.execLaunchTimeReached queue s
  | .gateChangeRequest q p w => Sys2Proof.Machine.execGateChangeRequest q p w s
  | .gateChangeAbort q p w => Sys2Proof.Machine.execGateChangeAbort q p w s
  | .gateListExchange p => Sys2Proof.Machine.execGateListExchange p s
  | .gateIntervalEnd p => Sys2Proof.Machine.execGateIntervalEnd p s
  | .cutThroughThreshold queue => Sys2Proof.Machine.execCutThroughThreshold queue s
  | .boomSelect p => Sys2Proof.Machine.execBoomSelect p s
  | .frameTransmitEnd p => Sys2Proof.Machine.execFrameTransmitEnd p s
  | .shaperWrite q node w => Sys2Proof.Machine.execShaperWrite q node w s
  | .bquotaWrite q t w => Sys2Proof.Machine.execBquotaWrite q t w s
  | .tenantCfgWrite q t w => Sys2Proof.Machine.execTenantCfgWrite q t w s
  | .serviceCfgWrite q n w => Sys2Proof.Machine.execServiceCfgWrite q n w s
  | .policerCfgWrite q n w => Sys2Proof.Machine.execPolicerCfgWrite q n w s
  | .portEnable q p w => Sys2Proof.Machine.execPortEnable q p w s
  | .portDisable q p w => Sys2Proof.Machine.execPortDisable q p w s
  | .linkAligned p skew hiber localSets remoteSets => Sys2Proof.Machine.execLinkAligned p skew hiber localSets remoteSets s
  | .linkAlignmentLost p locks => Sys2Proof.Machine.execLinkAlignmentLost p locks s
  | .linkFault p hiber localSets remoteSets => Sys2Proof.Machine.execLinkFault p hiber localSets remoteSets s
  | .linkFaultClear p skew => Sys2Proof.Machine.execLinkFaultClear p skew s
  | .txUnderrun p => Sys2Proof.Machine.execTxUnderrun p s
  | .ctadaptClear q p => Sys2Proof.Machine.execCtadaptClear q p s
  | .preemptEnable q p w => Sys2Proof.Machine.execPreemptEnable q p w s
  | .verifyTimerExpiry p => Sys2Proof.Machine.execVerifyTimerExpiry p s
  | .verifyMpacketReceived p => Sys2Proof.Machine.execVerifyMpacketReceived p s
  | .respondMpacketReceived p => Sys2Proof.Machine.execRespondMpacketReceived p s
  | .fragmentReceived p start count octets final mcrcOk => Sys2Proof.Machine.execFragmentReceived p start count octets final mcrcOk s
  | .segmentEnable q n w => Sys2Proof.Machine.execSegmentEnable q n w s
  | .segmentDisable q n w => Sys2Proof.Machine.execSegmentDisable q n w s
  | .segmentRecall q n w => Sys2Proof.Machine.execSegmentRecall q n w s
  | .hedgerowCycleStart n => Sys2Proof.Machine.execHedgerowCycleStart n s
  | .pollTimeout n => Sys2Proof.Machine.execPollTimeout n s
  | .hgReplyReceived n octets => Sys2Proof.Machine.execHgReplyReceived n octets s
  | .hgAudioReceived n octets => Sys2Proof.Machine.execHgAudioReceived n octets s
  | .hgControlReceived n octets => Sys2Proof.Machine.execHgControlReceived n octets s
  | .hgControlSend n => Sys2Proof.Machine.execHgControlSend n s
  | .hgCollision n => Sys2Proof.Machine.execHgCollision n s
  | .hgBackoffExpiry => Sys2Proof.Machine.execHgBackoffExpiry s
  | .hgDownEnable q n e w => Sys2Proof.Machine.execHgDownEnable q n e w s
  | .mdioWrite q w => Sys2Proof.Machine.execMdioWrite q w s
  | .mdioRead q w => Sys2Proof.Machine.execMdioRead q w s
  | .mdioComplete data => Sys2Proof.Machine.execMdioComplete data s
  | .tdmEnable q u w => Sys2Proof.Machine.execTdmEnable q u w s
  | .tdmFrame u ins => Sys2Proof.Machine.execTdmFrame u ins s
  | .madiEnable q u w => Sys2Proof.Machine.execMadiEnable q u w s
  | .madiFrameReceived u ins => Sys2Proof.Machine.execMadiFrameReceived u ins s
  | .madiFrameTransmit u => Sys2Proof.Machine.execMadiFrameTransmit u s
  | .outputEntryEnable q e w => Sys2Proof.Machine.execOutputEntryEnable q e w s
  | .gpioInputEdge g level => Sys2Proof.Machine.execGpioInputEdge g level s
  | .gpioDebounceExpiry g => Sys2Proof.Machine.execGpioDebounceExpiry g s
  | .gpioTimedQueue q w => Sys2Proof.Machine.execGpioTimedQueue q w s
  | .gpioTimedApply => Sys2Proof.Machine.execGpioTimedApply s
  | .dramRequest src host write burst mask ws => Sys2Proof.Machine.execDramRequest src host write burst mask ws s
  | .dramCommandIssue sc => Sys2Proof.Machine.execDramCommandIssue sc s
  | .dramReadComplete sc pattern => Sys2Proof.Machine.execDramReadComplete sc pattern s
  | .refreshDue sc rank => Sys2Proof.Machine.execRefreshDue sc rank s
  | .refreshWindowEnd => Sys2Proof.Machine.execRefreshWindowEnd s
  | .caParityAlert sc n => Sys2Proof.Machine.execCaParityAlert sc n s
  | .scrubRead pattern => Sys2Proof.Machine.execScrubRead pattern s
  | .driftPauseStart sc hot => Sys2Proof.Machine.execDriftPauseStart sc hot s
  | .driftPauseEnd sc up down => Sys2Proof.Machine.execDriftPauseEnd sc up down s
  | .freqPointRequest q w => Sys2Proof.Machine.execFreqPointRequest q w s
  | .freqChangeStart => Sys2Proof.Machine.execFreqChangeStart s
  | .freqChangeComplete => Sys2Proof.Machine.execFreqChangeComplete s
  | .pcieFlr => Sys2Proof.Machine.execPcieFlr s
  | .perstNFall => Sys2Proof.Machine.execPerstNFall s
  | .d3hotEntry => Sys2Proof.Machine.execD3hotEntry s
  | .ringEnable q r w => Sys2Proof.Machine.execRingEnable q r w s
  | .ringDisable q r w => Sys2Proof.Machine.execRingDisable q r w s
  | .ringTailWrite q r w => Sys2Proof.Machine.execRingTailWrite q r w s
  | .ringTx r q0 q1 q2 octets => Sys2Proof.Machine.execRingTx r q0 q1 q2 octets s
  | .ringRxFrame descs => Sys2Proof.Machine.execRingRxFrame descs s
  | .ringCopy r q0 q1 q2 octets => Sys2Proof.Machine.execRingCopy r q0 q1 q2 octets s
  | .ringCapture r q0 q1 q2 changed => Sys2Proof.Machine.execRingCapture r q0 q1 q2 changed s
  | .descriptorComplete r => Sys2Proof.Machine.execDescriptorComplete r s
  | .hostReadTimeout r q0 q1 q2 => Sys2Proof.Machine.execHostReadTimeout r q0 q1 q2 s
  | .msixModerationExpiry r => Sys2Proof.Machine.execMsixModerationExpiry r s
  | .msixUnmask fn vec => Sys2Proof.Machine.execMsixUnmask fn vec s
  | .mgmtDatagram => Sys2Proof.Machine.execMgmtDatagram s
  | .railsRise => Sys2Proof.Machine.execRailsRise s
  | .railsFall => Sys2Proof.Machine.execRailsFall s
  | .resetOrPwrokFall pwrok => Sys2Proof.Machine.execResetOrPwrokFall pwrok s
  | .bringupStart bootsel cool => Sys2Proof.Machine.execBringupStart bootsel cool s
  | .fuseReadComplete => Sys2Proof.Machine.execFuseReadComplete s
  | .flashSetupComplete sfdp mib => Sys2Proof.Machine.execFlashSetupComplete sfdp mib s
  | .imageHeader octets => Sys2Proof.Machine.execImageHeader octets s
  | .imageRecordRead octets => Sys2Proof.Machine.execImageRecordRead octets s
  | .slotResetComplete => Sys2Proof.Machine.execSlotResetComplete s
  | .signatureBlock octets => Sys2Proof.Machine.execSignatureBlock octets s
  | .regsRecord => Sys2Proof.Machine.execRegsRecord s
  | .programRecord => Sys2Proof.Machine.execProgramRecord s
  | .patchRecord => Sys2Proof.Machine.execPatchRecord s
  | .customRecord => Sys2Proof.Machine.execCustomRecord s
  | .tonesetRecord => Sys2Proof.Machine.execTonesetRecord s
  | .kerfsetRecord => Sys2Proof.Machine.execKerfsetRecord s
  | .mgmtkeyRecord => Sys2Proof.Machine.execMgmtkeyRecord s
  | .bootRecord => Sys2Proof.Machine.execBootRecord s
  | .rangerRecord => Sys2Proof.Machine.execRangerRecord s
  | .dramzeroRecord => Sys2Proof.Machine.execDramzeroRecord s
  | .dramfillRecord => Sys2Proof.Machine.execDramfillRecord s
  | .v6addrRecord => Sys2Proof.Machine.execV6addrRecord s
  | .flowsRecord => Sys2Proof.Machine.execFlowsRecord s
  | .pass1Complete => Sys2Proof.Machine.execPass1Complete s
  | .trainingComplete ok => Sys2Proof.Machine.execTrainingComplete ok s
  | .release => Sys2Proof.Machine.execRelease s
  | .faultAreaScanEnd => Sys2Proof.Machine.execFaultAreaScanEnd s
  | .requestRun q => Sys2Proof.Machine.execRequestRun q s
  | .requestEco q => Sys2Proof.Machine.execRequestEco q s
  | .requestDrain q => Sys2Proof.Machine.execRequestDrain q s
  | .requestTest q => Sys2Proof.Machine.execRequestTest q s
  | .recoverChannel q => Sys2Proof.Machine.execRecoverChannel q s
  | .recoverForwarding q => Sys2Proof.Machine.execRecoverForwarding q s
  | .recoverBoth q => Sys2Proof.Machine.execRecoverBoth q s
  | .stepRequest q => Sys2Proof.Machine.execStepRequest q s
  | .fatalFault source chan => Sys2Proof.Machine.execFatalFault source chan s
  | .recoveryFlushEnd chan => Sys2Proof.Machine.execRecoveryFlushEnd chan s
  | .recoveryCheckEnd chan bad => Sys2Proof.Machine.execRecoveryCheckEnd chan bad s
  | .recoveryComplete chan => Sys2Proof.Machine.execRecoveryComplete chan s
  | .faultRecordWritten => Sys2Proof.Machine.execFaultRecordWritten s
  | .flashHalfErased => Sys2Proof.Machine.execFlashHalfErased s
  | .pfailNFall => Sys2Proof.Machine.execPfailNFall s
  | .sensorSample temps domains total => Sys2Proof.Machine.execSensorSample temps domains total s
  | .throttleStep => Sys2Proof.Machine.execThrottleStep s
  | .throttleRestore => Sys2Proof.Machine.execThrottleRestore s
  | .tdpCapStep => Sys2Proof.Machine.execTdpCapStep s
  | .tdpCapRestore => Sys2Proof.Machine.execTdpCapRestore s
  | .utilisationPeriod uses => Sys2Proof.Machine.execUtilisationPeriod uses s
  | .oppChangeComplete g => Sys2Proof.Machine.execOppChangeComplete g s
  | .clusterGate => Sys2Proof.Machine.execClusterGate s
  | .thermalTrip => Sys2Proof.Machine.execThermalTrip s
  | .pmbAlert faults => Sys2Proof.Machine.execPmbAlert faults s
  | .perstNRise => Sys2Proof.Machine.execPerstNRise s
  | .d3hotExit => Sys2Proof.Machine.execD3hotExit s
  | .hgFrameFormatDiscard n octets => Sys2Proof.Machine.execHgFrameFormatDiscard n octets s
  | .jtagTckEdge rise trstN tms tdi => Sys2Proof.Machine.execJtagTckEdge rise trstN tms tdi s
  | .jtagTrstNFall => Sys2Proof.Machine.execJtagTrstNFall s
end Sys2Proof.Machine
end

