-- ==== Sys2Proof/Machine/Step.lean ====
section
/-! DEFINITION. One step: the command at the front of the queue, or, with no command waiting, one cycle of the clock. -/
namespace Sys2Proof.Machine

open Sys2Proof

/-- One step.
[DESIGN CHOICE, log entry 3: safe] -/
def step (s : State) : Host.Outcome State Fault Refusal :=
  match s.pending with
  | i :: rest => exec i { s with pending := rest }
  | [] => s.runClock Chip.idleTick

/-- The state with the command that a word spells put in front of the queue: unchanged, since no word spells one.
[DESIGN CHOICE, log entry 2: safe] -/
def State.withFetchWord (s : State) (nbits w : Nat) : State :=
  match decodeTableWord nbits w with
  | some i => { s with pending := i :: s.pending }
  | none => s

end Sys2Proof.Machine
end

