-- ==== Sys2Proof/Machine/Pins.lean ====
section
/-! DEFINITION. The pins that the device drives (R405, R459, R505, R507, R508, Table 20.3): what a board finds driven, as a function
of the state. What is sent over a driven pin is in the commands' effects. -/
namespace Sys2Proof.Machine

open Sys2Proof

/-- The outputs and bidirectional pins of Table 20.3, by the group that one condition drives. -/
inductive PinGroup where
  /-- A SerDes lane's transmitter. -/
  | serdes (lane : Nat)
  | pcie
  /-- Data, command, address and RESET_N of the DDR5 channels. -/
  | ddr5
  | hedgerow (n : Nat)
  | mdc
  | mdio
  /-- BCLK and FS of a TDM port. -/
  | tdmClock (u : Nat)
  | tdmOut (u : Nat)
  | madi (u : Nat)
  | gpio (g : Nat)
  | xspi
  /-- PPS_OUT, FREQ_OUT and WCLK_OUT. -/
  | timeOut
  | thermtrip
  | pmbus
  | tdo
  deriving DecidableEq, Repr

/-- Bring-up has come as far as LOAD.
[DEDUCED, log entry 150: unsafe] -/
def Chip.fromLoad (c : Chip) : Bool := c.live || c.mode == Md.LOAD || c.mode == Md.TRAIN

/-- Bring-up has come as far as pass 1 of the slot under trial.
[DEDUCED, log entry 150: unsafe] -/
def Chip.fromPass1 (c : Chip) : Bool :=
  c.live || c.boot.phase == .pass1 || c.boot.phase == .train || c.boot.phase == .pass2

/-- Whether the device drives a group of pins by its function: the column "Driven" of Table 20.3.
[DEDUCED, log entry 150: unsafe] -/
def Chip.functionDrives (c : Chip) : PinGroup → Bool
  | .serdes l => c.laneSends l
  | .pcie => c.mode != Md.OFF && c.mode != Md.HELD
  | .ddr5 => c.live || c.mode == Md.TRAIN
  | .hedgerow n => c.live && c.flag F.hedge_SEG_CFG_EN n
  | .mdc => c.live
  | .mdio => c.live && c.audio.mdio.isSome
  | .tdmClock u => c.live && c.flag F.audioio_TDM_CFG_EN u && c.flag F.audioio_TDM_CFG_MASTER u
  | .tdmOut u => c.live && c.flag F.audioio_TDM_CFG_EN u
  | .madi u => c.live && c.flag F.audioio_MADI_CFG_EN u
  | .gpio g => c.live && c.flag F.audioio_GPIO_CFG_DIR g
  | .xspi => c.fromLoad
  | .timeOut => c.live
  | .thermtrip => !c.dev.thermtripN
  | .pmbus => c.fromPass1
  | .tdo => c.jtag.tdo.isSome

/-- Whether a group of pins is driven: by the boundary register while the TAP holds EXTEST or CLAMP, for every pin but the test
port's own (R508), else by its function; a pin that is not driven is high-impedance (R505).
[DEDUCED, log entry 150: unsafe] -/
def Chip.drives (c : Chip) (g : PinGroup) : Bool := (c.boundaryDrives && g != .tdo) || c.functionDrives g

end Sys2Proof.Machine
end

