-- ==== Sys2Proof/Safety.lean ====
section
/-! DEFINITION. The terms that statements about the device use: what it means that a command completes, which commands move
COUNT, act in bring-up or program fuses, and the properties of a state that every step keeps. -/
namespace Sys2Proof.Machine
open Sys2Proof

/-- The command completes: it answers a next state, and what is said of that state holds. -/
def Completes (c : Instr) (s : State) (p : State → Prop) : Prop := ∃ t, exec c s = .next t ∧ p t

/-! ## Classes of commands -/

/-- Commands with which COUNT can change beside the clock itself: a sample tick, and those that enter or leave HELD (R42). -/
def movesCount : Instr → Bool
  | .sampleTick => true
  | .railsRise => true
  | .railsFall => true
  | .resetOrPwrokFall _ => true
  | .bringupStart _ _ => true
  | .flashSetupComplete _ _ => true
  | .slotResetComplete => true
  | .trainingComplete _ => true
  | .faultRecordWritten => true
  | .thermalTrip => true
  | _ => false

/-- Commands that can program fuse bits (R461, R473). -/
def programsFuses : Instr → Bool
  | .release => true
  | .jtagTckEdge _ _ _ _ => true
  | _ => false

/-- Commands of bring-up and of the test port. -/
def bringsUp : Instr → Bool
  | .fuseReadComplete => true
  | .imageHeader _ => true
  | .imageRecordRead _ => true
  | .signatureBlock _ => true
  | .regsRecord => true
  | .programRecord => true
  | .patchRecord => true
  | .customRecord => true
  | .tonesetRecord => true
  | .kerfsetRecord => true
  | .mgmtkeyRecord => true
  | .bootRecord => true
  | .rangerRecord => true
  | .dramzeroRecord => true
  | .dramfillRecord => true
  | .v6addrRecord => true
  | .flowsRecord => true
  | .pass1Complete => true
  | .jtagTrstNFall => true
  | c => programsFuses c

/-! ## Fuses -/

/-- A bit that the device or the test port may program: KEYHASH, KEYSET, DBGLOCK, or a rollback slot (Table 18.2, R461,
R473). -/
def fuseProgrammable (b : Nat) : Bool := decide (2136 ≤ b ∧ b ≤ 2521 ∨ 2560 ≤ b ∧ b ≤ 4863)

/-- Every fuse bit programmed since delivery is one that may be. -/
def State.fusesLawful (s : State) : Bool := s.chip.boot.burned.all fuseProgrammable

/-! ## Registers -/

/-- A register whose block acts on a write of it in its own way (R11): its write is not the plain one. -/
def actsOnWrite : RegName → Bool
  | .time_RATE | .time_STEP_NS | .time_CTRL | .chan_CMD | .chan_BUS | .chan_BUSGAIN | .chan_LUCEIL | .kerf_COEFDATA
  | .kerf_SETHDR | .kerf_GANG | .kerf_LCFG | .kerf_LRATE | .kerf_LIBASE | .kerf_LOBASE | .baler_SUBMIT
  | .landing_SQBASE | .landing_SQSIZE | .landing_SQTAIL | .chute_DROPREST | .chute_C_CFG | .chute_C_PUSH
  | .chute_C_PUSHEND | .flume_FCMD | .flume_PORT_CUT | .flume_PORT_GCTRL | .flume_PORT_GT0 | .flume_PORT_GT1
  | .flume_PORT_GT2 | .flume_PORT_GT3 | .flume_GCL_ADMIN | .boom_PORT_SHAPER | .boom_TEN_CFG | .boom_TEN_SHAPER
  | .boom_TEN_BQUOTA | .boom_SVC_CFG | .boom_SVC_SHAPER | .boom_POL_CFG | .boom_Q_CFG | .mac_CFG | .mac_PREEMPT
  | .mac_CTADAPT | .mac_LANECFG | .hedge_SEG_CFG | .hedge_SEG_DOWN | .hedge_MDIO | .audioio_TDM_CFG
  | .audioio_TDM_OUT | .audioio_MADI_CFG | .audioio_MADI_OUT | .audioio_GPIO_CFG | .audioio_GPIO_OUT
  | .audioio_GPIO_TGO | .mc_CFG | .mc_FPREQ | .mc_HOSTCFG | .mc_SCRUB | .hostdma_R_CFG | .hostdma_R_BASELO
  | .hostdma_R_BASEHI | .hostdma_R_SIZE | .hostdma_R_TAIL | .fault_MODEREQ | .coredbg_MBOX => true
  | _ => false

/-- A register whose read latches another, takes something, or returns what the register does not hold. -/
def actsOnRead (r : RegName) (i j : Nat) : Bool :=
  match r with
  | .time_NOW_SECLO | .kerf_COEFDATA | .chute_C_POP | .fault_LAST0 | .coredbg_LASTEXC => true
  | .landing_SQBASE | .landing_SQSIZE | .landing_SQTAIL => true
  | .mac_STAT => j == 21 || j == 23 || j == 41
  | .mc_ELOG => i == 0
  | _ => false

/-- Bit `b` of a register's field after a write (Table 0.4); RWB is written by the image alone. -/
def bitWritten (a : Access) (old new : Bool) : Bool :=
  match a with
  | .rw => new
  | .rwi => new
  | .w1c => old && !new
  | .rwb => old
  | .ro => old
  | .wo => old
  | .rc => old

/-! ## Memory -/

/-- The DRAM in its canonical form: bursts by rising address, and none listed that DRAMZERO left so.
[DESIGN CHOICE, log entry 8: safe] -/
def Chip.dramWf (c : Chip) : Bool :=
  Cells.rising none c.dram && c.dram.all (fun p => !(decide (p.2 = zeroBurst) && c.isZeroed p.1))

/-- Every addressed memory in its canonical form: DRAM, the chute pool, the mix store, and the cores' local memories.
[DESIGN CHOICE, log entry 8: safe] [DESIGN CHOICE, log entry 9: unsafe] -/
def State.memoryWf (s : State) : Bool :=
  s.chip.dramWf && Cells.wf (fun _ => ({ word := 0 } : Entry)) s.chip.pool && Cells.wf (fun _ => (0 : Int)) s.chip.mix &&
    s.chip.cores.all (fun p => Cells.rising none p.2.mem)

/-! ## Bundles of the cores -/

/-- The command that issues an instruction on a core beside its mate in the other slot. -/
def bundleInstr (k : CoreId) (mate : CoreOp) : CoreOp → Instr
  | .nop => .nop k mate
  | .add sat rd ra rb => .add k sat rd ra rb mate
  | .sub sat rd ra rb => .sub k sat rd ra rb mate
  | .neg sat rd ra => .neg k sat rd ra mate
  | .abs sat rd ra => .abs k sat rd ra mate
  | .and rd ra rb => .and k rd ra rb mate
  | .or rd ra rb => .or k rd ra rb mate
  | .xor rd ra rb => .xor k rd ra rb mate
  | .andn rd ra rb => .andn k rd ra rb mate
  | .shl sat rd ra rb sh => .shl k sat rd ra rb sh mate
  | .asr rd ra rb sh => .asr k rd ra rb sh mate
  | .lsr rd ra rb sh => .lsr k rd ra rb sh mate
  | .asrr rd ra rb sh => .asrr k rd ra rb sh mate
  | .min rd ra rb => .min k rd ra rb mate
  | .max rd ra rb => .max k rd ra rb mate
  | .cmp ra rb => .cmp k ra rb mate
  | .cls rd ra => .cls k rd ra mate
  | .brev rd ra sh => .brev k rd ra sh mate
  | .mulf sat rd ra rb => .mulf k sat rd ra rb mate
  | .muli sat rd ra rb => .muli k sat rd ra rb mate
  | .mulh rd ra rb => .mulh k rd ra rb mate
  | .addi sat rd ra imm => .addi k sat rd ra imm mate
  | .andi rd ra imm => .andi k rd ra imm mate
  | .ori rd ra imm => .ori k rd ra imm mate
  | .lui rd imm => .lui k rd imm mate
  | .cmpi ra imm => .cmpi k ra imm mate
  | .ld rd m => .ld k rd m mate
  | .st rs m => .st k rs m mate
  | .ldp rd ra imm => .ldp k rd ra imm mate
  | .ldpl rd ra imm => .ldpl k rd ra imm mate
  | .mac sat ad ra rb => .mac k sat ad ra rb mate
  | .msu sat ad ra rb => .msu k sat ad ra rb mate
  | .mpy sat ad ra rb => .mpy k sat ad ra rb mate
  | .clra ad => .clra k ad mate
  | .accr sat ad ra sh => .accr k sat ad ra sh mate
  | .accw ad rb => .accw k ad rb mate
  | .adda sat ad asrc => .adda k sat ad asrc mate
  | .aget ad ra part => .aget k ad ra part mate
  | .aput ad rb part => .aput k ad rb part mate
  | .tapm sat ad xa mode => .tapm k sat ad xa mode mate
  | .br cond link off => .br k cond link off mate
  | .jr rd ra => .jr k rd ra mate
  | .loop lv reg cnt body => .loop k lv reg cnt body mate
  | .setX x ra => .movxSetX k x ra mate
  | .getX rd x => .movxGetX k rd x mate
  | .setXB x ra => .movxSetXB k x ra mate
  | .getXB rd x => .movxGetXB k rd x mate
  | .setXL x ra => .movxSetXL k x ra mate
  | .getXL rd x => .movxGetXL k rd x mate
  | .setTcr ra => .movxSetTcr k ra mate
  | .getTcr rd => .movxGetTcr k rd mate
  | .csrr rd cr => .csrr k rd cr mate
  | .csrw ra cr => .csrw k ra cr mate
  | .take => .take k mate
  | .spawn ra => .spawn k ra mate
  | .push ra rb fin => .push k ra rb fin mate
  | .pop rd rb => .pop k rd rb mate
  | .dropRest rd rb => .chcDroprest k ⟨rd, rb⟩ mate
  | .chcCount rd rb => .chcCount k rd rb mate
  | .chcPkts rd rb => .chcPkts k rd rb mate
  | .dmovIn ra rb n => .dmovIn k ra rb n mate
  | .dmovOut ra rb n => .dmovOut k ra rb n mate
  | .kreq ra rb => .kreq k ra rb mate
  | .bsub rd ra unit => .bsub k rd ra unit mate
  | .mxadd ra rb n => .mxadd k ra rb n mate
  | .mxrd ra rb n => .mxrd k ra rb n mate
  | .txp ra => .txp k ra mate
  | .waite => .waite k mate
  | .rdtMt rd => .rdtMt k rd mate
  | .rdtSubtick rd => .rdtSubtick k rd mate
  | .rdtNs rd => .rdtNs k rd mate
  | .rdtCount rd => .rdtCount k rd mate
  | .rgr rd ra => .rgr k rd ra mate
  | .rgw ra rb => .rgw k ra rb mate
  | .reti => .reti k mate
  | .trap => .trap k mate
  | .wfi => .wfi k mate

/-- The core after both slots of a bundle: the results of both, read from the core before it, and the next program address
(R242). -/
def Chip.coreAfter (c : Chip) (k : Nat) (op mate : CoreOp) : CoreSt :=
  let s := c.core k
  let ea := c.coreEff k s c.draws op
  let eb := c.coreEff k s (c.draws + 1) mate
  (eb.apply (ea.apply s)).goOn (ea.jump.or eb.jump) (ea.skip.or eb.skip) (ea.loop.or eb.loop)

/-- A bundle that goes on at `pc` enters or leaves a custom function (R270): a channel core outside the custom-function region
goes on at the entry of the function that its item's channel names, or a function goes on at its return address. -/
def Chip.crossesCustom (c : Chip) (k pc : Nat) : Bool :=
  let s := c.core k
  match s.call with
  | some t => isChannelCore k && t.back.isNone && pc == t.ret
  | none => match s.item with
    | none => false
    | some ch => isChannelCore k && !inCustom s.pc && (Cells.find? ch c.chans).isSome &&
        dFunc (c.desc ch) 9 && (match Cells.find? (dbits (c.desc ch) 23 5 0) c.customs with
          | some x => pc == x.entry
          | none => false)

/-- Core `k` issues the bundle of the two instructions: it runs and fetches that bundle (R242, R268), no exception of the
fetch, of R243 or of either slot applies (R260), and neither slot waits for an engine (R258). -/
def Proceeds (k : CoreId) (op mate : CoreOp) (s : State) : Prop :=
  let c := s.chip
  let a := c.core k.val
  a.wait = .run ∧ fetchable a.pc = true ∧ c.stands k.val op mate = true ∧ c.bundleCauses k.val a op mate = [] ∧
    c.stalls k.val a op = false ∧ c.stalls k.val a mate = false

/-- Core `k` issues the bundle, and goes on where it neither enters nor leaves a custom function: the library does nothing
beside it (R270). -/
def Issues (k : CoreId) (op mate : CoreOp) (s : State) : Prop :=
  Proceeds k op mate s ∧ s.chip.crossesCustom k.val (s.chip.coreAfter k.val op mate).pc = false

/-- The instruction acts on its own core alone: on no chute, engine, scheduler, register of BAR0 or control-core state, and
draws no count of item cycles. -/
def actsInCore (k : CoreId) : CoreOp → Bool
  | .take => false
  | .spawn _ => false
  | .push _ _ _ => false
  | .pop _ _ => false
  | .dropRest _ _ => false
  | .chcCount _ _ => false
  | .chcPkts _ _ => false
  | .dmovIn _ _ _ => false
  | .dmovOut _ _ _ => false
  | .kreq _ _ => false
  | .bsub _ _ _ => false
  | .mxadd _ _ _ => false
  | .mxrd _ _ _ => false
  | .txp _ => false
  | .waite => false
  | .rgr _ _ => false
  | .rgw _ _ => false
  | .reti => false
  | .trap => false
  | .wfi => false
  | .csrr _ cr => !(decide (cr.toNat = 3) && isChannelCore k.val)
  | _ => true

/-- The registers that an instruction writes, as Table 9.7 gives them: FLAGS are control register 0x00, LC0 and LC1 are 0x01
and 0x02 (Table 9.5). -/
def opDests : CoreOp → List RegRef
  | .nop => []
  | .add _ rd _ _ | .sub _ rd _ _ | .neg _ rd _ | .abs _ rd _ | .and rd _ _ | .or rd _ _ | .xor rd _ _ | .andn rd _ _ => [.g rd.val, .cr 0]
  | .shl _ rd _ _ _ | .asr rd _ _ _ | .lsr rd _ _ _ | .asrr rd _ _ _ | .min rd _ _ | .max rd _ _ | .cls rd _ | .brev rd _ _ => [.g rd.val, .cr 0]
  | .mulf _ rd _ _ | .muli _ rd _ _ | .mulh rd _ _ | .addi _ rd _ _ | .andi rd _ _ | .ori rd _ _ | .lui rd _ => [.g rd.val, .cr 0]
  | .cmp _ _ | .cmpi _ _ => [.cr 0]
  | .ld rd m => (List.range (memWords m)).map (fun i => .g (rd.val + i)) ++ (if m.upd then [.x m.xa.val] else [])
  | .st _ m => if m.upd then [.x m.xa.val] else []
  | .ldp rd _ _ => [.g rd.val]
  | .ldpl rd _ _ => (List.range 8).map (fun i => .g (rd.val + i))
  | .mac _ ad _ _ | .msu _ ad _ _ | .mpy _ ad _ _ | .adda _ ad _ => [.acc ad.val, .cr 0]
  | .clra ad | .accw ad _ | .aput ad _ _ => [.acc ad.val]
  | .accr _ _ ra _ => [.g ra.val, .cr 0]
  | .aget _ ra _ => [.g ra.val]
  | .tapm _ ad xa _ => [.acc ad.val, .x xa.val, .tcr, .cr 0]
  | .br _ link _ => if link then [.g 27, .pc] else [.pc]
  | .jr rd _ => [.g rd.val, .pc]
  | .loop lv _ _ _ => [.cr (1 + lv.val), .pc]
  | .setX x _ => [.x x.val]
  | .setXB x _ => [.xb x.val]
  | .setXL x _ => [.xl x.val]
  | .setTcr _ => [.tcr]
  | .getX rd _ | .getXB rd _ | .getXL rd _ | .getTcr rd | .csrr rd _ => [.g rd.val]
  | .rdtMt rd | .rdtSubtick rd | .rdtNs rd | .rdtCount rd | .chcCount rd _ | .chcPkts rd _ | .dropRest rd _ | .bsub rd _ _ | .rgr rd _ => [.g rd.val]
  | .csrw _ cr => [.cr cr.toNat]
  | .take => [.g 28, .g 29, .g 30, .g 31, .x 7, .cr 0, .cr 1, .cr 2, .cr 3, .pc]
  | .pop rd _ => [.g rd.val, .cr 0]
  | .kreq _ _ => [.cr 0]
  | .spawn _ | .push _ _ _ | .dmovIn _ _ _ | .dmovOut _ _ _ | .mxadd _ _ _ | .mxrd _ _ _ | .txp _ => []
  | .reti => [.cr 0x10, .pc]
  | .waite | .rgw _ _ | .trap | .wfi => []

/-- The local words that an instruction stores to (Table 9.7, R241, R252). -/
def opStores (s : CoreSt) : CoreOp → List Nat
  | .st _ m => (List.range (memWords m)).map (fun i => (s.ea m + i) % 65536)
  | .tapm _ _ xa _ => [(s.rx xa + 1) % 65536, (s.rx xa + 3) % 65536, (s.rx xa + 5) % 65536, (s.rx xa + 7) % 65536]
  | _ => []

/-- The instruction can change the program address other than to the next bundle. -/
def branches : CoreOp → Bool
  | .br _ _ _ => true
  | .jr _ _ => true
  | .loop _ _ _ _ => true
  | _ => false

/-- An exact result of 36 bits fits (R248). -/
def fits36 (r : Int) : Bool := decide (-(2 ^ 35 : Int) ≤ r ∧ r < 2 ^ 35)

/-- The word that an exact result leaves under S: wrapped, or the nearest value (R248). -/
def word36 (sat : Bool) (r : Int) : Word :=
  BitVec.ofInt 36 (if sat then max (-(2 ^ 35 : Int)) (min (2 ^ 35 - 1) r) else r)

/-- An exact result of 80 bits fits (R248). -/
def fits80 (r : Int) : Bool := decide (-(2 ^ 79 : Int) ≤ r ∧ r < 2 ^ 79)

/-- The accumulator that an exact result leaves under S (R248). -/
def word80 (sat : Bool) (r : Int) : AccWord :=
  BitVec.ofInt 80 (if sat then max (-(2 ^ 79 : Int)) (min (2 ^ 79 - 1) r) else r)

/-- FLAGS after an instruction that sets Z, N and V, and SAT where it saturates; `carry` is C where it sets it (R250). -/
def FlagsSet (before after : Nat) (z n v sat : Bool) (carry : Option Bool) : Prop :=
  after.testBit 0 = z ∧ after.testBit 1 = n ∧ after.testBit 2 = v ∧ after.testBit 7 = (before.testBit 7 || sat) ∧
    after.testBit 9 = carry.getD (before.testBit 9) ∧
    ∀ i, i ≠ 0 → i ≠ 1 → i ≠ 2 → i ≠ 7 → i ≠ 9 → after.testBit i = before.testBit i

/-- What an arithmetic instruction with an exact signed result leaves in RD and FLAGS (R248, R250); G0 stays 0 (R240). -/
def ArithDone (k : CoreId) (sat : Bool) (rd : GReg) (r : Int) (carry : Option Bool) (s t : State) : Prop :=
  (t.chip.core k.val).rg rd = (if rd.val = 0 then 0 else word36 sat r) ∧
    FlagsSet (s.chip.core k.val).flags (t.chip.core k.val).flags (word36 sat r == 0) (word36 sat r).msb (!fits36 r)
      (sat && !fits36 r) carry

/-- What a logical instruction leaves in RD and FLAGS: Z and N of the word, V clear, C as it was (R250). -/
def LogicDone (k : CoreId) (rd : GReg) (w : Word) (s t : State) : Prop :=
  (t.chip.core k.val).rg rd = (if rd.val = 0 then 0 else w) ∧
    FlagsSet (s.chip.core k.val).flags (t.chip.core k.val).flags (w == 0) w.msb false false none

/-- A general register receives a word and no flag changes. -/
def MoveDone (k : CoreId) (rd : GReg) (w : Word) (t : State) : Prop :=
  (t.chip.core k.val).rg rd = (if rd.val = 0 then 0 else w)

/-- Xn after an access that updates it by `off` under MODE (R241): linear, modulo, or bit-reverse. -/
def XMoved (x : XReg) (mode : Nat) (off : Int) (a b : CoreSt) : Prop :=
  (mode = 0 → ((b.rx x : Nat) : Int) = ((a.rx x : Int) + off) % 65536) ∧
    (mode = 1 → ((b.rx x : Nat) : Int) = ((a.rxb x : Int) + ((a.rx x : Int) - a.rxb x + off) % a.rxl x) % 65536) ∧
    (mode = 2 → ∀ n : Nat, 1 ≤ n → n ≤ 16 → a.rxl x = 2 ^ n →
      b.rx x = (a.rxb x + reverseBits n
        (((reverseBits n (((a.rx x : Int) - a.rxb x) % 2 ^ n).toNat : Int) + off) % 2 ^ n).toNat) % 65536)

end Sys2Proof.Machine
end

