-- ==== Sys2Proof/Certificates/Slice0/Obligations.lean ====
section
/-! DEFINITION. What the provers are asked to prove of the device: statements about every state and every operand, family by
family of the commands. -/
open Sys2Proof Sys2Proof.Machine

/-! ## The queue, the clock and the fuses -/

/-- A step takes the command at the front of the queue and runs it on the state with the queue's rest. -/
def Obligations.StepRunsFrontCommand : Prop :=
  ∀ (c : Instr) (rest : List Instr) (s : State), s.pending = c :: rest → step s = exec c { s with pending := rest }

/-- With no command waiting, one cycle of the clock passes (the model's choice, log entry 3): nothing changes in HELD and
OFF. Otherwise COUNT is one greater, modulo 2^72 (R42); an uncorrectable error may come (log entry 141); and the words that
reached their chutes in the cycle go in, with the deferred settings of empty chutes (R307, R308). A fault storm ends the run
of the device in HELD, where COUNT is 0, 2 ms after it began (R42, R484). -/
def Obligations.EmptyQueueIsOneClockCycle : Prop :=
  ∀ s : State, s.pending = [] →
    let next := (s.chip.count + 1) % 2 ^ 72
    let goesOn : Prop := ∀ a, s.chip.fault.storm = some a → next < a + 2500000
    ∃ t, step s = .next t ∧ t.pending = [] ∧
      (s.chip.running = false → t = s) ∧
      (s.chip.running = true → goesOn →
        t.chip = { s.chip with
          count := next, time := t.chip.time, upsets := t.chip.upsets, chutes := t.chip.chutes, arriving := t.chip.arriving
          pool := t.chip.pool, regs := t.chip.regs } ∧
        (s.chip.count + 1 < 2 ^ 72 → t.chip.time = s.chip.time) ∧ (∀ u, u ∈ s.chip.upsets → u ∈ t.chip.upsets) ∧
        ((∀ a, a ∈ s.chip.arriving → a.now = false) →
          (∀ p, p ∈ s.chip.chutes → s.chip.flag F.chute_C_CFG_PENDING p.1 = false ∨ (s.chip.chute p.1).count ≠ 0) →
          t.chip.chutes = s.chip.chutes ∧ t.chip.arriving = s.chip.arriving ∧ t.chip.pool = s.chip.pool ∧
            t.chip.regs = s.chip.regs)) ∧
      (s.chip.running = true → ∀ a, s.chip.fault.storm = some a → a + 2500000 ≤ next →
        t.chip.count = 0 ∧ t.chip.mode = Md.HELD)

/-- Every command completes on every state and leaves the queue as it is: no command ends a run. What a command of another
kind leaves: COUNT moves with the clock and with HELD alone, what bring-up and the test port hold changes under their own
commands and under those that enter or leave HELD, and a fuse bit is programmed by RELEASE and the test port alone. -/
def Obligations.EveryCommandCompletesFramed : Prop :=
  (∀ (c : Instr) (s : State), Completes c s (fun t => t.pending = s.pending)) ∧
  (∀ (c : Instr) (s t : State), exec c s = .next t →
    (movesCount c = false → t.chip.count = s.chip.count) ∧
    (movesCount c = false → bringsUp c = false → t.chip.boot = s.chip.boot ∧ t.chip.jtag = s.chip.jtag) ∧
    (programsFuses c = false → t.chip.boot.burned = s.chip.boot.burned))

/-- Every step keeps the fuses lawful: a bit programmed since delivery lies in KEYHASH, KEYSET, DBGLOCK or a rollback slot.
A fuse bit that is programmed stays so: no step clears one (R460: it reads as 1 when either of its cells is programmed). -/
def Obligations.StepKeepsFuses : Prop :=
  (∀ s t : State, s.fusesLawful = true → step s = .next t → t.fusesLawful = true) ∧
  (∀ (s t : State) (b : Nat), step s = .next t → s.chip.fuse b = true → t.chip.fuse b = true)

/-- R461: a bit of KEYHASH, KEYSET or DBGLOCK (bits 2136 to 2521) changes by the test port alone, from 0 to 1 and so once,
while KEYSET (bit 2520) is 0; once KEYSET is 1, no step changes one; and while KEYSET is 0 every image is refused with AUTH.
-/
def Obligations.KeyBitsProgrammedOnceByTestPort : Prop :=
  (∀ (s t : State) (b : Nat), step s = .next t → 2136 ≤ b → b ≤ 2521 → t.chip.fuse b ≠ s.chip.fuse b →
    s.chip.fuse b = false ∧ s.chip.fuse 2520 = false ∧
      ∃ rise trst tms tdi rest, s.pending = .jtagTckEdge rise trst tms tdi :: rest) ∧
  (∀ (s t : State) (b : Nat), step s = .next t → s.chip.fuse 2520 = true → 2136 ≤ b → b ≤ 2521 →
    t.chip.fuse b = s.chip.fuse b) ∧
  (∀ (octets : List Octet) (s : State), s.chip.boot.phase = .signature → s.chip.fuse 2520 = false →
    Completes (.signatureBlock octets) s (fun t => t.chip.boot.phase = .reset ∧ t.chip.regs = s.chip.regs ∧
      Cells.find? s.chip.boot.slot t.chip.boot.tries = some ⟨St.AUTH, s.chip.boot.total⟩))

/-! ## Bundles of the cores (R242 to R253) -/

/-- A bundle of two instructions that act in their core, without an exception: it completes; every other core and every
other part of the device stand, but for an uncorrectable error of a local word that is stored to; a register that neither
instruction names as written stands (R242, Table 9.7), and so does a local word that neither stores to; with no hardware
loop active and no branch the program address goes on by one bundle. -/
def Obligations.CoreBundleFrame : Prop :=
  ∀ (k : CoreId) (op mate : CoreOp) (s : State), Issues k op mate s → actsInCore k op = true → actsInCore k mate = true →
    Completes (bundleInstr k mate op) s (fun t =>
      t.pending = s.pending ∧
      t.chip = { s.chip with draws := t.chip.draws, cores := t.chip.cores, upsets := t.chip.upsets } ∧
      (∀ u, u ∈ t.chip.upsets → u ∈ s.chip.upsets) ∧
      (∀ m, m ≠ k.val → t.chip.core m = s.chip.core m) ∧
      (let a := s.chip.core k.val
       let b := t.chip.core k.val
       (∀ r : GReg, RegRef.g r.val ∉ opDests op ++ opDests mate → b.rg r = a.rg r) ∧
       (∀ n, RegRef.acc n ∉ opDests op ++ opDests mate → Cells.get 0 n b.acc = Cells.get 0 n a.acc) ∧
       (∀ n, RegRef.x n ∉ opDests op ++ opDests mate → Cells.get 0 n b.x = Cells.get 0 n a.x) ∧
       (∀ n, RegRef.xb n ∉ opDests op ++ opDests mate → Cells.get 0 n b.xb = Cells.get 0 n a.xb) ∧
       (∀ n, RegRef.xl n ∉ opDests op ++ opDests mate → Cells.get 0 n b.xl = Cells.get 0 n a.xl) ∧
       (RegRef.tcr ∉ opDests op ++ opDests mate → b.tcr = a.tcr) ∧
       (RegRef.cr 0 ∉ opDests op ++ opDests mate → b.flags = a.flags) ∧
       (∀ n, 16 ≤ n → RegRef.cr n ∉ opDests op ++ opDests mate → b.readCr k.val n = a.readCr k.val n) ∧
       (∀ n, n < 65536 → n ∉ opStores a op ++ opStores a mate → t.chip.localWord k.val n = s.chip.localWord k.val n) ∧
       b.wait = .run ∧ b.item = a.item ∧ b.buf = a.buf ∧ b.takeAt = a.takeAt ∧ b.takeSub = a.takeSub ∧ b.xfers = a.xfers ∧
       (branches op = false → branches mate = false → a.loop0 = none → a.loop1 = none →
         b.pc = (a.pc + 2) % 2 ^ 19 ∧ b.loop0 = none ∧ b.loop1 = none)))

/-- ADD, SUB, NEG, ABS, ADDI, SHL and MULI form their result exactly and write it under S; ADD, SUB and ADDI set C, the
carry of the unsigned operation (SUB's sense is free, log entry 45). ASR and MULH truncate, ASRR and MULF round halves up,
MIN and MAX are signed, and CLS counts leading sign bits. -/
def Obligations.CoreArithmetic : Prop :=
  (∀ (k : CoreId) (mate : CoreOp) (s : State) (sat : Bool) (rd ra rb : GReg) (sh : Fin 64) (imm : BitVec 19),
    actsInCore k mate = true →
    let a := (s.chip.core k.val).rg ra
    let b := (s.chip.core k.val).rg rb
    (Issues k (.add sat rd ra rb) mate s →
      Completes (.add k sat rd ra rb mate) s (ArithDone k sat rd (a.toInt + b.toInt) (some (decide (2 ^ 36 ≤ a.toNat + b.toNat))) s)) ∧
    (Issues k (.sub sat rd ra rb) mate s →
      Completes (.sub k sat rd ra rb mate) s
        (ArithDone k sat rd (a.toInt - b.toInt) (some (carrySub Config.carryIsBorrow a.toNat b.toNat)) s)) ∧
    (Issues k (.neg sat rd ra) mate s → Completes (.neg k sat rd ra mate) s (ArithDone k sat rd (-a.toInt) none s)) ∧
    (Issues k (.abs sat rd ra) mate s → Completes (.abs k sat rd ra mate) s (ArithDone k sat rd |a.toInt| none s)) ∧
    (Issues k (.addi sat rd ra imm) mate s →
      Completes (.addi k sat rd ra imm mate) s
        (ArithDone k sat rd (a.toInt + imm.toInt) (some (decide (2 ^ 36 ≤ a.toNat + (BitVec.signExtend 36 imm).toNat))) s)) ∧
    (Issues k (.shl sat rd ra rb sh) mate s →
      Completes (.shl k sat rd ra rb sh mate) s (ArithDone k sat rd (a.toInt * 2 ^ min 63 (b.toNat % 64 + sh.val)) none s)) ∧
    (Issues k (.muli sat rd ra rb) mate s →
      Completes (.muli k sat rd ra rb mate) s (ArithDone k sat rd (a.toInt * b.toInt) none s))) ∧
  (∀ (k : CoreId) (mate : CoreOp) (s : State) (sat : Bool) (rd ra rb : GReg) (sh : Fin 64),
    actsInCore k mate = true →
    let a := (s.chip.core k.val).rg ra
    let b := (s.chip.core k.val).rg rb
    let n := min 63 (b.toNat % 64 + sh.val)
    (Issues k (.asr rd ra rb sh) mate s →
      Completes (.asr k rd ra rb sh mate) s (ArithDone k false rd (a.toInt / 2 ^ n) none s)) ∧
    (Issues k (.asrr rd ra rb sh) mate s →
      Completes (.asrr k rd ra rb sh mate) s (ArithDone k false rd ((2 * a.toInt + 2 ^ n) / 2 ^ (n + 1)) none s)) ∧
    (Issues k (.mulf sat rd ra rb) mate s →
      Completes (.mulf k sat rd ra rb mate) s (ArithDone k sat rd ((a.toInt * b.toInt + 2 ^ 31) / 2 ^ 32) none s)) ∧
    (Issues k (.mulh rd ra rb) mate s →
      Completes (.mulh k rd ra rb mate) s (ArithDone k false rd (a.toInt * b.toInt / 2 ^ 36) none s)) ∧
    (Issues k (.min rd ra rb) mate s →
      Completes (.min k rd ra rb mate) s (ArithDone k false rd (min a.toInt b.toInt) none s)) ∧
    (Issues k (.max rd ra rb) mate s →
      Completes (.max k rd ra rb mate) s (ArithDone k false rd (max a.toInt b.toInt) none s)) ∧
    (Issues k (.cls rd ra) mate s →
      ∃ c : Nat, c ≤ 35 ∧ (∀ i, 35 - c ≤ i → i ≤ 35 → a.getLsbD i = a.msb) ∧ (c < 35 → a.getLsbD (34 - c) ≠ a.msb) ∧
        Completes (.cls k rd ra mate) s (ArithDone k false rd (c : Int) none s)))

/-- The logical instructions. The result of BREV is the low SH bits of RA in reverse order, for SH up to 36 (beyond it a
free value, log entry 49). CMP and CMPI set Z and V from the exact difference and write no register; N is its sign or its
bit 35 (the choice is a constant, log entry 46); CMPI sets C, the carry of the unsigned operation, and CMP leaves it. -/
def Obligations.CoreLogicAndCompare : Prop :=
  (∀ (k : CoreId) (mate : CoreOp) (s : State) (rd ra rb : GReg) (sh : Fin 64) (imm : BitVec 19),
    actsInCore k mate = true →
    let a := (s.chip.core k.val).rg ra
    let b := (s.chip.core k.val).rg rb
    (Issues k (.and rd ra rb) mate s → Completes (.and k rd ra rb mate) s (LogicDone k rd (a &&& b) s)) ∧
    (Issues k (.or rd ra rb) mate s → Completes (.or k rd ra rb mate) s (LogicDone k rd (a ||| b) s)) ∧
    (Issues k (.xor rd ra rb) mate s → Completes (.xor k rd ra rb mate) s (LogicDone k rd (a ^^^ b) s)) ∧
    (Issues k (.andn rd ra rb) mate s → Completes (.andn k rd ra rb mate) s (LogicDone k rd (a &&& ~~~b) s)) ∧
    (Issues k (.lsr rd ra rb sh) mate s →
      Completes (.lsr k rd ra rb sh mate) s (LogicDone k rd (a >>> min 63 (b.toNat % 64 + sh.val)) s)) ∧
    (Issues k (.andi rd ra imm) mate s → Completes (.andi k rd ra imm mate) s (LogicDone k rd (a &&& imm.setWidth 36) s)) ∧
    (Issues k (.ori rd ra imm) mate s → Completes (.ori k rd ra imm mate) s (LogicDone k rd (a ||| imm.setWidth 36) s)) ∧
    (Issues k (.lui rd imm) mate s → Completes (.lui k rd imm mate) s (LogicDone k rd (imm.setWidth 36 <<< 17) s)) ∧
    (sh.val ≤ 36 → Issues k (.brev rd ra sh) mate s →
      ∃ w : Word, (∀ i, i < 36 → w.getLsbD i = (decide (i < sh.val) && a.getLsbD (sh.val - 1 - i))) ∧
        Completes (.brev k rd ra sh mate) s (LogicDone k rd w s))) ∧
  (∀ (k : CoreId) (mate : CoreOp) (s : State) (ra rb : GReg) (imm : BitVec 19), actsInCore k mate = true →
    let x := s.chip.core k.val
    let n (d : Int) : Bool := if Config.compareExact then decide (d < 0) else (BitVec.ofInt 36 d).msb
    let done (d : Int) (carry : Option Bool) (t : State) : Prop :=
      FlagsSet x.flags (t.chip.core k.val).flags (decide (d = 0)) (n d) (!fits36 d) false carry
    (Issues k (.cmp ra rb) mate s →
      Completes (.cmp k ra rb mate) s (done ((x.rg ra).toInt - (x.rg rb).toInt) none)) ∧
    (Issues k (.cmpi ra imm) mate s →
      Completes (.cmpi k ra imm mate) s (done ((x.rg ra).toInt - imm.toInt)
        (some (carrySub Config.carryIsBorrow (x.rg ra).toNat (BitVec.signExtend 36 imm).toNat)))))

/-- LD and ST move one, two or eight words between registers and local memory at EA, and update Xn where U = 1 (R241, R245).
LDP and LDPL read program memory or the ROM. -/
def Obligations.CoreLoadsAndStores : Prop :=
  ∀ (k : CoreId) (mate : CoreOp) (s : State) (rd ra : GReg) (m : MemOp) (imm : BitVec 19), actsInCore k mate = true →
    let a := s.chip.core k.val
    let ea : Nat := (((a.rx m.xa : Int) + (if m.upd then 0 else m.off.toInt)) % 65536).toNat
    let n : Nat := if m.sz.val = 0 then 1 else if m.sz.val = 1 then 2 else 8
    let steps (t : State) : Prop := m.upd = true → XMoved m.xa m.mode.val m.off.toInt a (t.chip.core k.val)
    let prog (i : Nat) : Word := s.chip.progRead k.val (((((a.rg ra).toNat : Int) + imm.toInt) % 2 ^ 36).toNat + i)
    (Issues k (.ld rd m) mate s →
      Completes (.ld k rd m mate) s (fun t =>
        (∀ i, i < n → (t.chip.core k.val).rgn (rd.val + i) = if rd.val + i = 0 then 0 else s.chip.localWord k.val (ea + i)) ∧
          steps t)) ∧
    (Issues k (.st rd m) mate s →
      Completes (.st k rd m mate) s (fun t =>
        (∀ i, i < n → t.chip.localWord k.val (ea + i) = a.rgn (rd.val + i)) ∧ steps t)) ∧
    (Issues k (.ldp rd ra imm) mate s → Completes (.ldp k rd ra imm mate) s (MoveDone k rd (prog 0))) ∧
    (Issues k (.ldpl rd ra imm) mate s →
      Completes (.ldpl k rd ra imm mate) s (fun t =>
        ∀ i, i < 8 → (t.chip.core k.val).rgn (rd.val + i) = if rd.val + i = 0 then 0 else prog i))

/-- MAC, MSU, MPY and ADDA form an exact accumulator result under S and set the flags; CLRA and ACCW set an accumulator.
ACCR rounds one to S36, AGET reads a part of one, and APUT writes a part. TAPM: the accumulator takes one exact sum of four
products, the delay line of the tap line moves by one sample, TCR takes the sample that leaves it, and XA moves by 8. -/
def Obligations.CoreAccumulatorsAndTapLine : Prop :=
  (∀ (k : CoreId) (mate : CoreOp) (s : State) (sat : Bool) (ad asrc : AReg) (ra rb : GReg) (sh : BitVec 6) (part : Fin 4),
    actsInCore k mate = true →
    let x := s.chip.core k.val
    let old (r : AReg) : AccWord := Cells.get 0 r.val x.acc
    let new (t : State) : AccWord := Cells.get 0 ad.val (t.chip.core k.val).acc
    let a := x.rg ra
    let b := x.rg rb
    let done (r : Int) (t : State) : Prop :=
      new t = word80 sat r ∧
        FlagsSet x.flags (t.chip.core k.val).flags (word80 sat r == 0) (word80 sat r).msb (!fits80 r) (sat && !fits80 r) none
    let low (p : Fin 4) : Nat := if p.val = 0 then 0 else if p.val = 1 then 36 else 72
    let high (p : Fin 4) : Nat := if p.val = 0 then 35 else if p.val = 1 then 71 else 79
    (Issues k (.mac sat ad ra rb) mate s →
      Completes (.mac k sat ad ra rb mate) s (done ((old ad).toInt + a.toInt * b.toInt))) ∧
    (Issues k (.msu sat ad ra rb) mate s →
      Completes (.msu k sat ad ra rb mate) s (done ((old ad).toInt - a.toInt * b.toInt))) ∧
    (Issues k (.mpy sat ad ra rb) mate s → Completes (.mpy k sat ad ra rb mate) s (done (a.toInt * b.toInt))) ∧
    (Issues k (.adda sat ad asrc) mate s →
      Completes (.adda k sat ad asrc mate) s (done ((old ad).toInt + (old asrc).toInt))) ∧
    (Issues k (.clra ad) mate s → Completes (.clra k ad mate) s (fun t => new t = 0)) ∧
    (Issues k (.accw ad rb) mate s → Completes (.accw k ad rb mate) s (fun t => (new t).toInt = b.toInt * 2 ^ 32)) ∧
    (Issues k (.accr sat ad ra sh) mate s →
      Completes (.accr k sat ad ra sh mate) s
        (ArithDone k sat ra ((2 * (old ad).toInt + 2 ^ (32 - sh.toInt).toNat) / 2 ^ ((32 - sh.toInt).toNat + 1)) none s)) ∧
    (Issues k (.aget ad ra part) mate s →
      Completes (.aget k ad ra part mate) s (fun t =>
        ∀ i, i < 36 → ((t.chip.core k.val).rg ra).getLsbD i =
          (decide (ra.val ≠ 0) && (old ad).getLsbD (min (low part + i) (high part))))) ∧
    (Issues k (.aput ad rb part) mate s →
      Completes (.aput k ad rb part mate) s (fun t =>
        ∀ i, i < 80 → (new t).getLsbD i =
          if low part ≤ i ∧ i ≤ high part then b.getLsbD (i - low part) else (old ad).getLsbD i))) ∧
  (∀ (k : CoreId) (mate : CoreOp) (s : State) (sat : Bool) (ad : AReg) (xa : XReg) (mode : Fin 4),
    actsInCore k mate = true → Issues k (.tapm sat ad xa mode) mate s →
    let a := s.chip.core k.val
    let p := a.rx xa
    let w (i : Nat) : Word := s.chip.localWord k.val (p + i)
    let sum : Int := (Cells.get 0 ad.val a.acc).toInt + (w 0).toInt * a.tcr.toInt + (w 2).toInt * (w 1).toInt +
      (w 4).toInt * (w 3).toInt + (w 6).toInt * (w 5).toInt
    Completes (.tapm k sat ad xa mode mate) s (fun t =>
      let b := t.chip.core k.val
      Cells.get 0 ad.val b.acc = word80 sat sum ∧
        FlagsSet a.flags b.flags (word80 sat sum == 0) (word80 sat sum).msb (!fits80 sum) (sat && !fits80 sum) none ∧
        b.tcr = w 7 ∧
        t.chip.localWord k.val (p + 1) = a.tcr ∧ t.chip.localWord k.val (p + 3) = w 1 ∧
        t.chip.localWord k.val (p + 5) = w 3 ∧ t.chip.localWord k.val (p + 7) = w 5 ∧
        (∀ i, i = 0 ∨ i = 2 ∨ i = 4 ∨ i = 6 → t.chip.localWord k.val (p + i) = w i) ∧
        XMoved xa mode.val 8 a b))

/-- The MOVX forms, CSRR, CSRW and RDT. LC0 and LC1 as CSRR shows them (log entry 47) and ITEMCYC of a channel core (log
entry 48) are the model's; the bits of IVEC below 256 words that a write gives are ignored (log entry 44). -/
def Obligations.CoreMoves : Prop :=
  ∀ (k : CoreId) (mate : CoreOp) (s : State) (rd ra : GReg) (x : XReg) (cr : BitVec 19), actsInCore k mate = true →
    let a := s.chip.core k.val
    let w := a.rg ra
    (Issues k (.setX x ra) mate s →
      Completes (.movxSetX k x ra mate) s (fun t => (t.chip.core k.val).rx x = w.toNat % 2 ^ 16)) ∧
    (Issues k (.setXB x ra) mate s →
      Completes (.movxSetXB k x ra mate) s (fun t => (t.chip.core k.val).rxb x = w.toNat % 2 ^ 16)) ∧
    (Issues k (.setXL x ra) mate s →
      Completes (.movxSetXL k x ra mate) s (fun t => (t.chip.core k.val).rxl x = w.toNat % 2 ^ 17)) ∧
    (Issues k (.setTcr ra) mate s → Completes (.movxSetTcr k ra mate) s (fun t => (t.chip.core k.val).tcr = w)) ∧
    (Issues k (.getX rd x) mate s → Completes (.movxGetX k rd x mate) s (MoveDone k rd (BitVec.ofNat 36 (a.rx x)))) ∧
    (Issues k (.getXB rd x) mate s → Completes (.movxGetXB k rd x mate) s (MoveDone k rd (BitVec.ofNat 36 (a.rxb x)))) ∧
    (Issues k (.getXL rd x) mate s → Completes (.movxGetXL k rd x mate) s (MoveDone k rd (BitVec.ofNat 36 (a.rxl x)))) ∧
    (Issues k (.getTcr rd) mate s → Completes (.movxGetTcr k rd mate) s (MoveDone k rd a.tcr)) ∧
    (Issues k (.rdtMt rd) mate s → Completes (.rdtMt k rd mate) s (MoveDone k rd (BitVec.ofNat 36 s.chip.mt))) ∧
    (Issues k (.rdtSubtick rd) mate s →
      Completes (.rdtSubtick k rd mate) s (MoveDone k rd (BitVec.ofNat 36 s.chip.subtick))) ∧
    (Issues k (.rdtNs rd) mate s →
      Completes (.rdtNs k rd mate) s (MoveDone k rd (BitVec.ofNat 36 (launchForm s.chip.now)))) ∧
    (Issues k (.rdtCount rd) mate s → Completes (.rdtCount k rd mate) s (MoveDone k rd (BitVec.ofNat 36 s.chip.count))) ∧
    (Issues k (.csrr rd cr) mate s →
      Completes (.csrr k rd cr mate) s (fun t =>
        let v (n : Nat) : Prop := MoveDone k rd (BitVec.ofNat 36 n) t
        (cr = 0x00 → v (a.flagsWord k.val)) ∧ (cr = 0x01 → v (loopLeft a.loop0)) ∧ (cr = 0x02 → v (loopLeft a.loop1)) ∧
        (cr = 0x03 → isChannelCore k.val = false → v 0) ∧
        (cr = 0x03 → isChannelCore k.val = true → ∃ n, (s.chip.count - a.takeAt) * 600 / 1250 ≤ n ∧
          n ≤ (s.chip.count - a.takeAt) * 1500 / 1250 ∧ v n) ∧
        (cr = 0x04 → v k.val) ∧ (5 ≤ cr.toNat → cr.toNat < 16 → v 0) ∧
        (cr = 0x10 → v (2 * a.sup.toNat + a.ie.toNat)) ∧ (cr = 0x11 → v a.epc) ∧ (cr = 0x12 → v a.ecause) ∧
        (cr = 0x13 → v a.ivec) ∧ (cr = 0x14 → v a.imask) ∧ (cr = 0x15 → v a.ipend) ∧ (cr = 0x16 → v a.tcmp) ∧
        (∀ i, i < 8 → cr.toNat = 0x18 + i → v (Cells.get 0 i a.win).toNat))) ∧
    (Issues k (.csrw ra cr) mate s →
      Completes (.csrw k ra cr mate) s (fun t =>
        let b := t.chip.core k.val
        (cr = 0x00 → ∀ i, b.flags.testBit i = if i < 8 ∨ i = 9 then w.getLsbD i else a.flags.testBit i) ∧
        (cr = 0x10 → b.sup = w.getLsbD 1 ∧ b.ie = w.getLsbD 0) ∧ (cr = 0x11 → b.epc = w.toNat % 2 ^ 19) ∧
        (cr = 0x13 → b.ivec = w.toNat % 2 ^ 19 / 256 * 256) ∧ (cr = 0x14 → b.imask = w.toNat % 2 ^ 8) ∧
        (cr = 0x15 → ∀ i, b.ipend.testBit i = (a.ipend.testBit i && !(decide (i < 8) && w.getLsbD i))) ∧
        (cr = 0x16 → b.tcmp = w.toNat ∧ b.tarmed = true) ∧
        (∀ i, i < 8 → cr.toNat = 0x18 + i → Cells.get 0 i b.win = w) ∧
        (0 < cr.toNat → cr.toNat < 16 ∨ cr.toNat = 0x12 → ∀ n, 16 ≤ n → b.readCr k.val n = a.readCr k.val n)))

/-- BR, JR, LOOP and NOP: where execution goes on, the link, and the hardware loops (R247); and a JR of the library to the
custom function of its item's channel, which finds the registers of Table 9.15 (R270). -/
def Obligations.CoreControlFlow : Prop :=
  ∀ (k : CoreId) (mate : CoreOp) (s : State) (cond : Fin 16) (link : Bool) (off : BitVec 18) (rd ra : GReg) (lv : Fin 2)
    (reg : Option GReg) (cnt body : Fin 16384), actsInCore k mate = true →
    let a := s.chip.core k.val
    let next := (a.pc + 2) % 2 ^ 19
    let count : Nat := match reg with
      | none => cnt.val
      | some r => if 2 ^ 35 ≤ (a.rg r).toNat then 0 else (a.rg r).toNat
    (Issues k (.br cond link off) mate s →
      Completes (.br k cond link off mate) s (fun t =>
        let b := t.chip.core k.val
        (condHolds cond.val (a.flagsWord k.val) = true → ((b.pc : Nat) : Int) = ((a.pc : Int) + 2 + 2 * off.toInt) % 2 ^ 19) ∧
        (condHolds cond.val (a.flagsWord k.val) = false → a.loop0 = none → a.loop1 = none → b.pc = next) ∧
        (link = true → b.rg 27 = BitVec.ofNat 36 next))) ∧
    (Issues k (.jr rd ra) mate s →
      Completes (.jr k rd ra mate) s (fun t =>
        let b := t.chip.core k.val
        b.pc = (a.rg ra).toNat % 2 ^ 19 ∧ (rd.val ≠ 0 → b.rg rd = BitVec.ofNat 36 next) ∧
        (∀ l, a.loop0 = some l → b.loop0 = if l.first ≤ b.pc ∧ b.pc ≤ l.last then some l else none))) ∧
    (Issues k (.loop lv reg cnt body) mate s →
      Completes (.loop k lv reg cnt body mate) s (fun t =>
        let b := t.chip.core k.val
        (count ≠ 0 →
          (if lv.val = 0 then b.loop0 else b.loop1) = some { first := a.pc + 2, last := a.pc + 2 * body.val, left := count } ∧
          (a.loop1 = none → b.pc = next)) ∧
        (count = 0 → a.loop0 = none → a.loop1 = none → b.pc = (a.pc + 2 + 2 * body.val) % 2 ^ 19 ∧ b.loop0 = none))) ∧
    (∀ ch y x, Proceeds k (.jr rd ra) .nop s → isChannelCore k.val = true → inCustom a.pc = false → a.call = none →
      a.item = some ch → Cells.find? ch s.chip.chans = some y → y.life ≠ 1 → dFunc (s.chip.desc ch) 9 = true →
      Cells.find? (dbits (s.chip.desc ch) 23 5 0) s.chip.customs = some x → x.entry = (a.rg ra).toNat % 2 ^ 19 →
      (dbits (s.chip.desc ch) 23 7 6 = 3 → dEncoder (s.chip.desc ch) ≠ 0) →
      let first := if dbits (s.chip.desc ch) 23 7 6 = 3 then y.frame + 2 * s.chip.period (s.chip.desc ch) else y.frame
      Completes (.jr k rd ra .nop) s (fun t =>
        let b := t.chip.core k.val
        b.pc = x.entry ∧ b.rg 27 = BitVec.ofNat 36 next ∧ b.rg 3 = BitVec.ofNat 36 first ∧ (b.rg 2).toNat ≤ 2 ∧
          b.rx 7 = bufBase a.buf ∧ bufBase a.buf + 32 ≤ b.rx 6 ∧ b.buf = a.buf ∧
          ∃ f, b.call = some f ∧ f.ret = next ∧ f.addr = b.rx 0 ∧ b.rg 1 = BitVec.ofNat 36 f.n ∧ f.back = none)) ∧
    (Issues k .nop mate s → branches mate = false → a.loop1 = none →
      Completes (.nop k mate) s (fun t =>
        let b := t.chip.core k.val
        b.loop1 = none ∧
        (a.loop0 = none → b.pc = next ∧ b.loop0 = none) ∧
        (∀ l, a.loop0 = some l → a.pc ≠ l.last → next ≠ l.last + 2 → b.pc = next ∧ b.loop0 = some l) ∧
        (∀ l, a.loop0 = some l → a.pc = l.last → l.first ≤ l.last → l.last + 2 < 2 ^ 19 →
          (2 ≤ l.left → b.pc = l.first ∧ b.loop0 = some { l with left := l.left - 1 }) ∧
          (l.left ≤ 1 → b.pc = next ∧ b.loop0 = none))))

/-- RGR and RGW are the accesses of requester KCn to BAR0 (R266): RGW is a REGISTER_WRITE of the core's own requester, and
RGR gives RD what a READ_AND_CLEAR of it returns. RETI restores PC and SUP and enables interrupts, and WFI waits while no
enabled line is pending (R265). -/
def Obligations.CoreAccessReturnAndWait : Prop :=
  (∀ (k : CoreId) (s : State) (rd ra rb : GReg),
    let a := s.chip.core k.val
    let off : BitVec 26 := (a.rg ra).setWidth 26
    let q : Requester := if k.val = 96 then .kc0 else if k.val = 97 then .kc1 else if k.val = 98 then .kc2 else .kc3
    let moved : State := { s with chip := { s.chip with
      draws := s.chip.draws + 2, cores := Cells.set {} k.val ({ a with pc := (a.pc + 2) % 2 ^ 19 } : CoreSt) s.chip.cores } }
    a.loop0 = none → a.loop1 = none → s.chip.dev.released = true →
    (Issues k (.rgw ra rb) .nop s → exec (.rgw k ra rb .nop) s = exec (.registerWrite q off (a.rg rb)) moved) ∧
    (Issues k (.rgr rd ra) .nop s →
      Completes (.rgr k rd ra .nop) s (fun t =>
        ∃ v u, moved.chip.busRead q off.toNat = (v, u) ∧ MoveDone k rd v t ∧ t.chip.regs = u.regs ∧ t.chip.preqs = u.preqs ∧
          Completes (.readAndClear q off) moved (fun r => r.chip.out = .readData q off.toNat v.toNat :: u.out)))) ∧
  (∀ (k : CoreId) (mate : CoreOp) (s : State), actsInCore k mate = true →
    let a := s.chip.core k.val
    (Issues k .reti mate s →
      Completes (.reti k mate) s (fun t =>
        let b := t.chip.core k.val
        b.pc = a.epc ∧ b.ie = true ∧ b.sup = a.prevSup)) ∧
    (Issues k .wfi mate s →
      Completes (.wfi k mate) s (fun t =>
        (t.chip.core k.val).wait = if a.ipend &&& a.imask = 0 then .wfi else .run)))

/-- A bundle that raises exceptions on a control core takes the lowest of them (R260, R265): EPC, ECAUSE, SUP, IE and the
vector, and no result of either slot; those of its fetch come before all others (R236, R245). TRAP raises TRAP. The lowest
cause first is the model's choice (log entry 52). An exception on a channel core that holds an item (R261): the item is
dropped, its transfers are abandoned and the core waits in TAKE at the library's dispatch entry; where the item is not a
channel's (its number is 32768 or more), the event is counted and recorded. -/
def Obligations.CoreExceptions : Prop :=
  (∀ (k : CoreId) (op mate : CoreOp) (s : State), 96 ≤ k.val →
    let a := s.chip.core k.val
    let taken (e : Nat) : CoreSt :=
      { a with epc := a.pc, ecause := e, prevSup := a.sup, sup := true, ie := false, pc := (a.ivec + 16 * e) % 2 ^ 19 }
    a.wait = .run → fetchable a.pc = true → ¬(a.ie = false ∧ a.sup = true) →
    (∀ (e : Nat), s.chip.stands k.val op mate = true ∨ s.chip.fetchCauses k.val ≠ [] →
      e ∈ s.chip.bundleCauses k.val a op mate → (∀ f ∈ s.chip.bundleCauses k.val a op mate, e ≤ f) →
      Completes (bundleInstr k mate op) s (fun t =>
        t.chip = { s.chip with cores := Cells.set {} k.val (taken e) s.chip.cores })) ∧
    (s.chip.fetchCauses k.val = [] → s.chip.stands k.val .trap .nop = true →
      s.chip.bundleCauses k.val a .trap .nop = [5] ∧
      Completes (.trap k .nop) s (fun t =>
        t.chip = { s.chip with cores := Cells.set {} k.val (taken 5) s.chip.cores }))) ∧
  (∀ (k : CoreId) (op mate : CoreOp) (s : State) (n e : Nat), k.val < 96 →
    let a := s.chip.core k.val
    a.wait = .run → fetchable a.pc = true → s.chip.stands k.val op mate = true ∨ s.chip.fetchCauses k.val ≠ [] →
    a.item = some n → e ∈ s.chip.bundleCauses k.val a op mate →
    (∀ f ∈ s.chip.bundleCauses k.val a op mate, e ≤ f) →
    Completes (bundleInstr k mate op) s (fun t =>
      let b := t.chip.core k.val
      b.wait = .take ∧ b.item = none ∧ b.xfers = [] ∧ b.loop0 = none ∧ b.loop1 = none ∧
        b.pc = Config.dispatchEntry % 2 ^ 19 ∧ b.g = a.g ∧ b.acc = a.acc ∧ b.flags = a.flags ∧
        (32768 ≤ n → t.chip.fld F.coredbg_EXCCOUNT_EVENTS = min (2 ^ 36 - 1) (s.chip.fld F.coredbg_EXCCOUNT_EVENTS + 1) ∧
          t.chip.fld F.coredbg_LASTEXC_CAUSE = e % 16 ∧ t.chip.fld F.coredbg_LASTEXC_CORE = k.val ∧
          t.chip.fld F.coredbg_LASTEXC_CUSTOM = (a.custom k.val).toNat ∧ t.chip.fld F.coredbg_LASTPC_PC = a.pc) ∧
        (n < 32768 → Cells.find? n t.chip.slots = none)))

/-- The engine instructions start their transfer and the core runs on (R258); WAITE waits while one is outstanding (R259). A
KREQ to a lane not owned as CHANNEL sets EF and starts nothing, and BSUB answers the status of R227 or R223 in RD; the job
of a control core takes one of the 880 shared entries of R209. -/
def Obligations.CoreEngineStarts : Prop :=
  ∀ (k : CoreId) (mate : CoreOp) (s : State) (rd ra rb : GReg) (n : BitVec 8) (m : Fin 16) (u : Fin 4),
    actsInCore k mate = true → opStores (s.chip.core k.val) mate = [] →
    let a := s.chip.core k.val
    let loc : Nat := (a.rg ra).toNat % 2 ^ 16
    let b : Nat := (a.rg rb).toNat
    let word (i : Nat) : Nat := (s.chip.localWord k.val (loc + i)).toNat
    let starts (l : List Transfer) (t : State) : Prop :=
      (t.chip.core k.val).xfers = a.xfers ++ l ∧ (t.chip.core k.val).wait = .run ∧ t.chip.dram = s.chip.dram ∧ t.chip.mix = s.chip.mix
    (Issues k (.dmovIn ra rb n) mate s →
      Completes (.dmovIn k ra rb n mate) s (starts (if n = 0 then [] else [.dmovIn loc (b % 2 ^ 34) n.toNat]))) ∧
    (Issues k (.dmovOut ra rb n) mate s →
      Completes (.dmovOut k ra rb n mate) s (starts (if n = 0 then [] else [.dmovOut loc (b % 2 ^ 34) n.toNat]))) ∧
    (Issues k (.mxadd ra rb m) mate s →
      Completes (.mxadd k ra rb m mate) s (starts (if m.val = 0 then [] else
        [.mxadd (b / 2 ^ 24) (extendHalf 24 (b % 2 ^ 24) (s.chip.busNow (b / 2 ^ 24))) loc m.val]))) ∧
    (Issues k (.mxrd ra rb m) mate s →
      Completes (.mxrd k ra rb m mate) s (starts (if m.val = 0 then [] else
        [.mxrd (b / 2 ^ 24) (extendHalf 24 (b % 2 ^ 24) (s.chip.busNow (b / 2 ^ 24))) loc m.val]))) ∧
    (Issues k (.txp ra) mate s →
      Completes (.txp k ra mate) s (starts (if word 0 % 2 ^ 12 = 0 then [] else
        [.txp (s.chip.localWords k.val loc (txpWords (word 0 % 2 ^ 12)))]))) ∧
    (Issues k (.kreq ra rb) mate s →
      Completes (.kreq k ra rb mate) s (fun t =>
        if s.chip.owner (b % 2 ^ 14) = 1 then
          starts [.kreq (b % 2 ^ 14) (word 0 % 2 ^ 16) (word 1) (word 2 % 2 ^ 16) (word 3)] t
        else starts [] t ∧ (t.chip.core k.val).flags.testBit 6 = true)) ∧
    (Issues k (.bsub rd ra u) mate s →
      Completes (.bsub k rd ra u mate) s (fun t =>
        let ws := s.chip.localWords k.val loc 8
        let st := St.pick [s.chip.jobStatus ws true,
          if s.chip.flag F.baler_U_CTRL_EN u.val = false ∨ s.chip.chanRec = true then St.NOTREADY else St.OK,
          if 96 ≤ k.val ∧ 880 ≤ s.chip.fld F.baler_U_OCC_SHARED u.val then St.BUSY else St.OK]
        MoveDone k rd (BitVec.ofNat 36 st) t ∧
          (if st = St.OK then starts [.bsub u.val s.chip.serial] t ∧ t.chip.serial = s.chip.serial + 1 ∧
              (t.chip.baler u.val).jobs =
                (s.chip.baler u.val).jobs ++ [{ serial := s.chip.serial, frm := .core k.val, ws := ws, staged := [] }]
            else starts [] t ∧ t.chip.balers = s.chip.balers))) ∧
    (Issues k .waite mate s →
      Completes (.waite k mate) s (fun t => (t.chip.core k.val).wait = if a.xfers = [] then .run else .waite))

/-- The chute instructions (R257). A pushed word is handed to its chute, where CHUTE_WORD_ARRIVE decides it (log entry 63).
TAKE waits for the core's transfers, then for an item, with the loops ended (R255). SPAWN of a channel core posts its item
in the lowest free slot of the pool, with the fields that R295 gives it, or stalls while it cannot (R256, R277). -/
def Obligations.CoreChutesAndItems : Prop :=
  (∀ (k : CoreId) (mate : CoreOp) (s : State) (rd ra rb : GReg) (fin : Bool), actsInCore k mate = true →
    let a := s.chip.core k.val
    let n : Nat := (a.rg rb).toNat % 2 ^ 11
    let evt : Bool := (a.rg rb).getLsbD 11
    let popped (e : Option Entry) (t : State) : Prop :=
      let f := (t.chip.core k.val).flags
      match e with
      | none => MoveDone k rd 0 t ∧ f.testBit 3 = true ∧ f.testBit 4 = a.flags.testBit 4 ∧ f.testBit 5 = a.flags.testBit 5
      | some e => MoveDone k rd e.word t ∧ f.testBit 3 = false ∧ f.testBit 4 = e.fin ∧ f.testBit 5 = e.gap
    (Issues k (.push ra rb fin) mate s →
      Completes (.push k ra rb fin mate) s (fun t =>
        t.chip.arriving = s.chip.arriving ++ [{ chute := n, word := a.rg ra, fin := fin }] ∧ t.chip.chutes = s.chip.chutes)) ∧
    (Issues k (.pop rd rb) mate s →
      Completes (.pop k rd rb mate) s (fun t =>
        (evt = false → popped (s.chip.popChute n).1 t ∧ t.chip.chutes = (s.chip.popChute n).2.chutes) ∧
        (evt = true → popped s.chip.time.evt.head? t ∧ t.chip.time.evt = s.chip.time.evt.tail))) ∧
    (Issues k (.dropRest rd rb) mate s →
      Completes (.chcDroprest k ⟨rd, rb⟩ mate) s (fun t =>
        t.chip.chutes = (s.chip.dropRest n).2.chutes ∧ MoveDone k rd (BitVec.ofNat 36 (s.chip.dropRest n).1) t)) ∧
    (Issues k (.chcCount rd rb) mate s →
      Completes (.chcCount k rd rb mate) s
        (MoveDone k rd (if evt then BitVec.ofNat 36 s.chip.time.evt.length else s.chip.rd .chute_C_COUNT n))) ∧
    (Issues k (.chcPkts rd rb) mate s →
      Completes (.chcPkts k rd rb mate) s
        (MoveDone k rd (if evt then s.chip.rd .time_EVT_COUNT else s.chip.rd .chute_C_PKTS n)))) ∧
  (∀ (k : CoreId) (mate : CoreOp) (s : State) (ra : GReg), k.val < 96 → actsInCore k mate = true →
    opStores (s.chip.core k.val) mate = [] →
    let a := s.chip.core k.val
    let ws := s.chip.localWords k.val ((a.rg ra).toNat % 2 ^ 16) 4
    (Issues k .take mate s →
      Completes (.take k mate) s (fun t =>
        let b := t.chip.core k.val
        (a.xfers ≠ [] → b.wait = .takeDrain ∧ b.item = a.item ∧ b.xfers = a.xfers) ∧
        (a.xfers = [] → b.wait = .take ∧ b.loop0 = none ∧ b.loop1 = none ∧ (a.item = none → b.item = none)))) ∧
    (Issues k (.spawn ra) mate s →
      Completes (.spawn k ra mate) s (fun t =>
        (∀ u, s.chip.trySpawn (k.val / 8) ws = some u → t.chip.slots = u.slots ∧ (t.chip.core k.val).wait = .run) ∧
        (s.chip.trySpawn (k.val / 8) ws = none →
          t.chip.slots = s.chip.slots ∧ (t.chip.core k.val).wait = .spawn ∧ (t.chip.core k.val).spawning = ws))))

/-! ## Registers and the requesters' accesses (R9 to R12, R31, R432 to R436, R517) -/

/-- A write of a register whose block does not act on it changes its fields by their access codes alone, and no other shared
register; a read returns the register and clears its RC fields. An offset that names no register reads as 0 and ignores a
write. -/
def Obligations.RegisterAccessCodes : Prop :=
  ∀ (q : Requester) (off : BitVec 26) (w : Word) (s : State), s.chip.answers q = true →
    Cells.find? q.idx s.chip.host.held = none →
    (regAt off.toNat = none →
      Completes (.registerWrite q off w) s (fun t => t = s) ∧
      Completes (.readAndClear q off) s (fun t => t = { s with chip := s.chip.emit (.readData q off.toNat 0) })) ∧
    (∀ r i j, regAt off.toNat = some (r, i, j) →
      let apart (f : RegField) : Prop :=
        f.lo ≤ f.hi ∧ f.hi ≤ 35 ∧ ∀ g ∈ r.info.fields, g = f ∨ g.hi < f.lo ∨ f.hi < g.lo
      (actsOnWrite r = false → plainRange r w = false →
        Completes (.registerWrite q off w) s (fun t =>
          (∀ f ∈ r.info.fields, apart f → ∀ b, f.lo ≤ b → b ≤ f.hi →
            (t.chip.peek q r i j).getLsbD b = bitWritten f.acc ((s.chip.peek q r i j).getLsbD b) (w.getLsbD b)) ∧
          (∀ b, b < 36 → (∀ f ∈ r.info.fields, f.lo ≤ f.hi ∧ (b < f.lo ∨ f.hi < b)) →
            (t.chip.peek q r i j).getLsbD b = (s.chip.peek q r i j).getLsbD b) ∧
          (∀ r' i' j', slotOf r' i' j' ≠ slotOf r i j → t.chip.rd r' i' j' = s.chip.rd r' i' j'))) ∧
      (actsOnRead r i j = false →
        Completes (.readAndClear q off) s (fun t =>
          t.chip.out = .readData q off.toNat (s.chip.peek q r i j).toNat :: s.chip.out ∧
          (∀ f ∈ r.info.fields, apart f → ∀ b, f.lo ≤ b → b ≤ f.hi →
            (t.chip.peek q r i j).getLsbD b = (decide (f.acc ≠ .rc) && (s.chip.peek q r i j).getLsbD b)) ∧
          (∀ r' i' j', slotOf r' i' j' ≠ slotOf r i j → t.chip.rd r' i' j' = s.chip.rd r' i' j'))))

/-- A low-half write is held for its slot; one held for another slot is lost and counted. A high-half write is then the
write of the whole register, its low half the one held for its slot or 0. A read of the low half latches the high bits,
which the read of the high half returns. -/
def Obligations.SplitAccesses : Prop :=
  ∀ (q : Requester) (off : BitVec 26) (v : BitVec 32) (s : State),
    let slot := off.toNat / 8
    let held := Cells.find? q.idx s.chip.host.held
    let lost : Bool := match held with
      | some h => h.1 != slot
      | none => false
    let low : Nat := match held with
      | some h => if h.1 = slot then h.2 else 0
      | none => 0
    let counted (f : Fld) (i j : Nat) (t : State) : Prop := t.chip.fld f i j = min f.top (s.chip.fld f i j + 1)
    (s.chip.answers q = true →
      Completes (.bar0LowWrite q off v) s (fun t =>
        Cells.find? q.idx t.chip.host.held = some (slot, v.toNat) ∧
          (∀ p, p ≠ q → Cells.find? p.idx t.chip.host.held = Cells.find? p.idx s.chip.host.held) ∧
          (lost = true → counted F.hostdma_CNT_COUNT 1 0 t) ∧ (lost = false → t.chip.regs = s.chip.regs)) ∧
      ∃ u, Completes (.bar0HighWrite q off v) s (fun t =>
          .next t = exec (.registerWrite q (BitVec.ofNat 26 (slot * 8)) (BitVec.ofNat 36 (v.toNat % 16 * 2 ^ 32 + low))) u) ∧
        u.pending = s.pending ∧ Cells.find? q.idx u.chip.host.held = none ∧
        (lost = true → counted F.hostdma_CNT_COUNT 1 0 u) ∧ (lost = false → u.chip.regs = s.chip.regs)) ∧
    (s.chip.answers .pcie = true →
      Completes (.bar0LowRead off false) s (fun t =>
        let r := s.chip.busRead .pcie (slot * 8)
        t.chip.out = .readData .pcie (slot * 8) (r.1.toNat % 2 ^ 32) :: r.2.out ∧
          t.chip.host.highLatch = some (slot, r.1.toNat / 2 ^ 32) ∧ t.chip.host.held = r.2.host.held) ∧
      (∀ b, s.chip.host.highLatch = some (slot, b) →
        Completes (.bar0LowRead off true) s (fun t =>
          t = { s with chip := s.chip.emit (.readData .pcie (slot * 8 + 4) b) })))

/-- BAR2 reads and writes words of DRAM; an error response reads as zero with EP, and a write to such a burst is discarded,
as is one into the descriptor table or the flow table (R80, R325, R435, R436). -/
def Obligations.Bar2Window : Prop :=
  ∀ (off : BitVec 40) (v : BitVec 64) (s : State), s.chip.answers .pcie = true →
    off.toNat < 2 ^ (s.chip.fld F.hostdma_CFG_BAR2SIZE + 30) →
    let slot := off.toNat / 8
    let a := s.chip.fld F.hostdma_BAR2BASE_BASE * 16 + slot
    (s.chip.burstOk (a / 16) = true →
      Completes (.bar2Read off .whole) s (fun t =>
        t = { s with chip := s.chip.emit (.readData .pcie (slot * 8) (s.chip.word a).toNat) })) ∧
    (s.chip.burstOk (a / 16) = false →
      Completes (.bar2Read off .whole) s (fun t => t.chip.out = .readPoisoned off.toNat :: s.chip.out)) ∧
    (s.chip.burstOk (a / 16) = true → s.chip.inDescTable a 1 = false → s.chip.inFlowTable a 1 = false →
      Completes (.bar2Write off .whole v) s (fun t =>
        t.chip.word a = BitVec.ofNat 36 v.toNat ∧ (∀ b, b ≠ a → t.chip.word b = s.chip.word b) ∧
          t.chip.host.held2 = none)) ∧
    (s.chip.inDescTable a 1 = true →
      Completes (.bar2Write off .whole v) s (fun t => t.chip.dram = s.chip.dram ∧ t.chip.host.held2 = none)) ∧
    (s.chip.inDescTable a 1 = false → s.chip.inFlowTable a 1 = true →
      Completes (.bar2Write off .whole v) s (fun t => t.chip.dram = s.chip.dram ∧ t.chip.host.held2 = none)) ∧
    (s.chip.burstOk (a / 16) = false → s.chip.inDescTable a 1 = false → s.chip.inFlowTable a 1 = false →
      Completes (.bar2Write off .whole v) s (fun t =>
        t.chip.burstOk (a / 16) = false ∧ (∀ b, t.chip.word b = s.chip.word b) ∧ t.chip.host.held2 = none)) ∧
    (s.chip.host.held2 = none →
      Completes (.bar2Write off .low v) s (fun t =>
        t.chip.host.held2 = some (slot, v.toNat % 2 ^ 32) ∧ t.chip.dram = s.chip.dram ∧ t.chip.regs = s.chip.regs))

/-- The registers that an earlier read of a companion latched (R517): the read of the companion latches them for its
requester and for no other. A read or write of KERF.COEFDATA goes to KERF.COEFADDR, which advances (R147). -/
def Obligations.LatchedReads : Prop :=
  ∀ (q : Requester) (w : Word) (s : State), s.chip.answers q = true →
    let returned (r : RegName) (i j n : Nat) (t : State) : Prop := t.chip.out = .readData q (r.addr i j) n :: s.chip.out
    let others (t : State) : Prop :=
      t.chip.regs = s.chip.regs ∧ ∀ p r i j, p ≠ q → t.chip.rdq p r i j = s.chip.rdq p r i j
    let at_ := s.chip.coefPlace
    let index := s.chip.fld F.kerf_COEFADDR_INDEX
    Completes (.timeNowRead q) s (fun t =>
      returned .time_NOW_SECLO 0 0 (secOf s.chip.now % 2 ^ 36) t ∧ others t ∧
        t.chip.rdq q .time_NOW_NS = BitVec.ofNat 36 (nsOf s.chip.now) ∧
        t.chip.rdq q .time_COUNT_LO = BitVec.ofNat 36 s.chip.count ∧
        t.chip.rdq q .time_MT_LO = BitVec.ofNat 36 s.chip.mt) ∧
    Completes (.faultLastRead q) s (fun t =>
      returned .fault_LAST0 0 0 (s.chip.rd .fault_LAST0).toNat t ∧ others t ∧
        t.chip.rdq q .fault_LAST1 = s.chip.rd .fault_LAST1) ∧
    Completes (.coredbgLastexcRead q) s (fun t =>
      returned .coredbg_LASTEXC 0 0 (s.chip.rd .coredbg_LASTEXC).toNat t ∧ others t ∧
        t.chip.rdq q .coredbg_LASTPC = s.chip.rd .coredbg_LASTPC) ∧
    (∀ a b c d rest, s.chip.mc.elog = [a, b, c, d] :: rest →
      Completes (.mcElogRead q) s (fun t =>
        returned .mc_ELOG 0 0 a.toNat t ∧ t.chip.rdq q .mc_ELOG 1 = b ∧ t.chip.rdq q .mc_ELOG 2 = c ∧
          t.chip.rdq q .mc_ELOG 3 = d ∧ t.chip.mc.elog = rest)) ∧
    (s.chip.setInUse (s.chip.fld F.kerf_COEFADDR_BANK) (s.chip.fld F.kerf_COEFADDR_SET) = false →
      Cells.find? q.idx s.chip.host.held = none →
      Completes (.kerfCoefdataAccess q (some w)) s (fun t =>
        (Cells.get 0 at_ t.chip.kerf.coefs).toNat = w.toNat % 2 ^ 24 ∧
          (∀ n, n ≠ at_ → Cells.get 0 n t.chip.kerf.coefs = Cells.get 0 n s.chip.kerf.coefs) ∧
          t.chip.fld F.kerf_COEFADDR_INDEX = (index + 1) % 4096)) ∧
    Completes (.kerfCoefdataAccess q none) s (fun t =>
      returned .kerf_COEFDATA 0 0 (Cells.get 0 at_ s.chip.kerf.coefs).toNat t ∧
        t.chip.fld F.kerf_COEFADDR_INDEX = (index + 1) % 4096)

/-- R434: an access to BAR0 of another size or alignment completes with no effect but the count in BADACC; a read of it
returns zero data. -/
def Obligations.BadAccessHasNoEffect : Prop :=
  ∀ (off : BitVec 26) (s : State), s.chip.answers .pcie = true →
    let f := F.hostdma_CNT_COUNT
    let counted : Chip := s.chip.put f (min f.top (s.chip.fld f 0 + 1)) 0
    Completes (.bar0BadAccess off true) s (fun t => t = { s with chip := counted }) ∧
      Completes (.bar0BadAccess off false) s (fun t =>
        t = { s with chip := { counted with out := .readData .pcie off.toNat 0 :: s.chip.out } })

/-- R380: a read of the low register of a 72-bit counter returns it and latches its high register for that requester and no
other; a read of the high register returns the latched value; before the first read of the low one it returns 0. -/
def Obligations.CounterHighLatch : Prop :=
  (∀ (q : Requester) (p : Fin 64) (k : Fin 3) (s : State), s.chip.answers q = true →
    let low : Nat := if k.val = 0 then 21 else if k.val = 1 then 23 else 41
    Completes (.macCounterLowRead q p k) s (fun t =>
      t.chip.out = .readData q (RegName.mac_STAT.addr p.val low) (s.chip.rd .mac_STAT p.val low).toNat :: s.chip.out ∧
        t.chip.regs = s.chip.regs ∧ t.chip.rdq q .mac_STAT p.val (low + 1) = s.chip.rd .mac_STAT p.val (low + 1) ∧
        ∀ p' r i j, p' ≠ q → t.chip.rdq p' r i j = s.chip.rdq p' r i j) ∧
    Completes (.readAndClear q (BitVec.ofNat 26 (RegName.mac_STAT.addr p.val (low + 1)))) s (fun t =>
      t.chip.out = .readData q (RegName.mac_STAT.addr p.val (low + 1)) (s.chip.rdq q .mac_STAT p.val (low + 1)).toNat :: s.chip.out ∧
        t.chip.rdq q .mac_STAT p.val (low + 1) = s.chip.rdq q .mac_STAT p.val (low + 1))) ∧
  (∀ (q : Requester) (p : Fin 64) (k : Nat), k = 22 ∨ k = 24 ∨ k = 42 → State.reset.chip.rdq q .mac_STAT p.val k = 0)

/-! ## Time (R42 to R77) -/

/-- A write of RATE within 1,000 ppm re-anchors the line of device time at the next count (R45); one further away is ignored
with RANGE (R46), and so is one in HOLDOVER with NOTREADY. A step moves the line by STEP_SEC and NS at the next count while
ARMED (R48), clears ARMED and pushes a STEP record (R50). A write of CTRL sets SOURCE and AUTOSTEP; SOURCE 3 is RANGE. -/
def Obligations.TimeWrites : Prop :=
  ∀ (q : Requester) (w : Word) (s : State), s.chip.answers q = true → Cells.find? q.idx s.chip.host.held = none →
    let x := s.chip.count + 1
    let line := s.chip.time.newest
    let far : Prop := w.toNat + 3435974 < 0xCCCCCCCD ∨ 0xCCCCCCCD + 3435974 < w.toNat
    let state := s.chip.fld F.time_STATUS_STATE
    let refused (st : Nat) (t : State) : Prop :=
      t.chip.fld F.time_STATUS_LASTERR = st ∧ t.chip.time = s.chip.time ∧ t.chip.rd .time_RATE = s.chip.rd .time_RATE
    let off : Int := (BitVec.ofNat 36 (s.chip.fld F.time_STEP_SEC_SEC)).toInt * 65536000000000 +
      ((w.toNat % 2 ^ 30 : Nat) : Int) * 65536
    (¬far → state ≠ 3 →
      Completes (.timeRateWrite q w) s (fun t =>
        t.chip.now = s.chip.now ∧ t.chip.rd .time_RATE = w ∧
          ∀ n, x ≤ n → t.chip.timeAt n = line.eval x + (n - x) * w.toNat / 65536)) ∧
    (far → Completes (.timeRateWrite q w) s (refused St.RANGE)) ∧
    (¬far → state = 3 → Completes (.timeRateWrite q w) s (refused St.NOTREADY)) ∧
    (w.toNat % 2 ^ 30 ≤ 999999999 → s.chip.stepBad off = false → s.chip.flag F.time_STATUS_ARMED = true →
      Completes (.stepGo q w) s (fun t =>
        (∀ n, x ≤ n → t.chip.time.lineAt n = { line with t := line.t + off }) ∧ t.chip.now = s.chip.now ∧
          t.chip.fld F.time_STEP_NS_NS = w.toNat % 2 ^ 30 ∧ t.chip.fld F.time_STATUS_ARMED = 0 ∧
          (s.chip.time.evt.length + 4 ≤ 16384 → ∃ a b c d, t.chip.time.evt = s.chip.time.evt ++ [a, b, c, d] ∧
            wbits a.word 35 32 = 5 ∧ d.fin = true))) ∧
    (w.toNat % 2 ^ 30 ≤ 999999999 → s.chip.stepBad off = false → s.chip.flag F.time_STATUS_ARMED = false →
      Completes (.stepGo q w) s (fun t => t.chip.time = s.chip.time ∧ t.chip.fld F.time_STATUS_LASTERR = St.NOTREADY)) ∧
    (999999999 < w.toNat % 2 ^ 30 → Completes (.stepGo q w) s (refused St.RANGE)) ∧
    (w.toNat % 4 = 3 → Completes (.timeSourceWrite q w) s (refused St.RANGE)) ∧
    (w.toNat % 4 ≠ 3 →
      Completes (.timeSourceWrite q w) s (fun t =>
        t.chip.fld F.time_CTRL_SOURCE = w.toNat % 4 ∧ t.chip.fld F.time_CTRL_AUTOSTEP = w.toNat / 4 % 2 ∧
          (s.chip.fld F.time_CTRL_SOURCE = w.toNat % 4 → state ≠ 2 → w.toNat % 4 ≠ 2 → t.chip.time = s.chip.time)))

/-- A valid exchange of the servo (R68), with delay requests or with peer delay, gives one offset and one path delay, and
restarts the holdover timeout; one of another master, with a gap, with another SOURCE, or of a Sync interval outside R56
changes nothing. At the timeout the state becomes HOLDOVER. RATE is the loop's, open within 1,000 ppm (log entry 35); the
sign of the offset is the model's (log entry 34). -/
def Obligations.ServoAndHoldover : Prop :=
  ∀ (t1 t2 t3 t4 begun : Nat) (peer : Option Nat) (log : Int) (s : State),
    let d : Int := match peer with
      | some p => 2 * p
      | none => ((t2 : Int) - t1) + ((t4 : Int) - t3)
    let off : Int := match peer with
      | some p => 2 * ((t1 : Int) + p - t2)
      | none => ((t1 : Int) - t2) + ((t4 : Int) - t3)
    (s.chip.fld F.time_CTRL_SOURCE = 0 → s.chip.live = true → s.chip.time.gapPopped = none → -7 ≤ log → log ≤ 4 → 0 ≤ d →
      (∀ x ∈ s.chip.time.delays, 2 * d ≤ 3 * x) → s.chip.fld F.time_STATUS_STATE = 2 → s.chip.time.runBeyond < 7 →
      s.chip.time.runLoose < 3 →
      Completes (.servoExchange t1 t2 t3 t4 peer log begun true false) s (fun t =>
        t.chip.time.offsets = (off :: s.chip.time.offsets).take 8 ∧ t.chip.time.delays = (d :: s.chip.time.delays).take 16 ∧
          t.chip.time.lastValid = some s.chip.count ∧ t.chip.time.logInterval = some log ∧
          0xCCCCCCCD - 3435974 ≤ t.chip.time.newest.rate ∧ t.chip.time.newest.rate ≤ 0xCCCCCCCD + 3435974)) ∧
    (∀ master gap, s.chip.fld F.time_CTRL_SOURCE ≠ 0 ∨ master = false ∨ gap = true ∨ d < 0 ∨ log < -7 ∨ 4 < log →
      Completes (.servoExchange t1 t2 t3 t4 peer log begun master gap) s (fun t => t = s)) ∧
    (∀ n, s.chip.holdoverAt = some n → n ≤ s.chip.count →
      Completes .holdoverTimeout s (fun t => t.chip.fld F.time_STATUS_STATE = 3 ∧ t.chip.time.runHold = 0)) ∧
    ((s.chip.holdoverAt = none ∨ ∃ n, s.chip.holdoverAt = some n ∧ s.chip.count < n) →
      Completes .holdoverTimeout s (fun t => t = s))

/-- SAMPLE_TICK takes COUNT to the first later count at which device time reaches the next sample (R70), where COUNT does
not wrap before it; BLOCK_BOUNDARY makes line 1 pending where it is enabled; the time outputs take their levels (R76),
FREQ_OUT choosing once for a video frame of odd length, and an edge of PPS_IN is stamped, within 4 ns, no closer than 100 ns
to the one before (R77). -/
def Obligations.TicksAndEdges : Prop :=
  ∀ (s : State) (rising : Bool),
    let n := s.chip.mt + 1
    let line := s.chip.time.newest
    let pin (name : String) (old new : Bool) (t : State) : Prop :=
      t.chip.out = (if new = old then [] else [.pin name 0 new]) ++ s.chip.out
    (s.chip.running = true → s.chip.fault.storm = none → 0 < line.rate → line.c ≤ s.chip.count + 1 →
      (∃ k, s.chip.count < k ∧ k < 2 ^ 72 ∧ tickInstant n ≤ line.eval k) →
      Completes .sampleTick s (fun t =>
        s.chip.count < t.chip.count ∧ tickInstant n ≤ line.eval t.chip.count ∧
          ∀ k, s.chip.count < k → line.c ≤ k → k < t.chip.count → line.eval k < tickInstant n)) ∧
    (s.chip.running = false → Completes .sampleTick s (fun t => t = s)) ∧
    (s.chip.live = true → s.chip.mt % s.chip.blockB = 0 → s.chip.time.lastBlock ≠ some s.chip.mt →
      Completes .blockBoundary s (fun t =>
        t.chip.time.lastBlock = some s.chip.mt ∧
          ∀ k, 96 ≤ k → k < 100 → (s.chip.core k).imask.testBit 1 = true → (t.chip.core k).ipend.testBit 1 = true)) ∧
    Completes .ppsOutEdge s (fun t =>
      t.chip.time.ppsOut = s.chip.ppsLevel ∧ pin "PPS_OUT" s.chip.time.ppsOut s.chip.ppsLevel t) ∧
    Completes .wclkOutEdge s (fun t =>
      t.chip.time.wclkOut = s.chip.wclkLevel ∧ pin "WCLK_OUT" s.chip.time.wclkOut s.chip.wclkLevel t) ∧
    Completes .freqOutEdge s (fun t =>
      ∃ odd, (∀ b, s.chip.time.freqPick = some (s.chip.freqFrame, b) → odd = b) ∧
        t.chip.time.freqPick = some (s.chip.freqFrame, odd) ∧ t.chip.time.freqOut = s.chip.freqLevel odd ∧ pin "FREQ_OUT" s.chip.time.freqOut (s.chip.freqLevel odd) t) ∧
    (s.chip.flag F.time_PPSI_EN = true → s.chip.flag F.time_PPSI_EDGE ≠ rising → s.chip.live = true →
      s.chip.fld F.time_CTRL_SOURCE ≠ 1 → (∀ m, s.chip.time.lastPps = some m → m + 125 ≤ s.chip.count) →
      Completes (.ppsInEdge rising) s (fun t =>
        t.chip.time.lastPps = some s.chip.count ∧
          (s.chip.flag F.time_PPSI_TOCHUTE = true → s.chip.time.evt.length + 4 ≤ 16384 → 262144 ≤ s.chip.now →
            ∃ (u : Nat) (a b c d : Entry), (u : Int) - s.chip.now ≤ 262144 ∧ (s.chip.now : Int) - u ≤ 262144 ∧
              t.chip.time.evt = s.chip.time.evt ++ [a, b, c, d] ∧ b.word = BitVec.ofNat 36 (nsOf u) ∧
              c.word = BitVec.ofNat 36 (secOf u)))) ∧
    (∀ m, s.chip.time.lastPps = some m → s.chip.count < m + 125 → Completes (.ppsInEdge rising) s (fun t => t = s))

/-- R46: a write of RATE that differs from 0x0_CCCC_CCCD by more than 3,435,974 steps is ignored, and TIME.STATUS.LASTERR
reports RANGE; and one step of RATE is 2^-32 ns a count, so that 2^16 counts at RATE r take r units of 2^-16 ns. -/
def Obligations.RateWriteRange : Prop :=
  (∀ (q : Requester) (w : Word) (s : State), s.chip.answers q = true → Cells.find? q.idx s.chip.host.held = none →
    w.toNat + 3435974 < 0xCCCCCCCD ∨ 0xCCCCCCCD + 3435974 < w.toNat →
    Completes (.timeRateWrite q w) s (fun t =>
      t = { s with chip := s.chip.put F.time_STATUS_LASTERR St.RANGE } ∧ t.chip.fld F.time_STATUS_LASTERR = St.RANGE ∧
        t.chip.rd .time_RATE = s.chip.rd .time_RATE ∧ t.chip.time = s.chip.time)) ∧
  (∀ (a c r n : Nat), ({ t := a, c := c, rate := r } : Anchor).eval (c + 65536 * n) = a + r * n)

/-! ## Channels (R78 to R108, R116 to R122) -/

/-- The channel commands (Table 3.8): each answers the status that R39 picks from its checks in CMDSTAT of its requester. An
accepted ACTIVATE admits the channel as PENDING with its charge and load, and counts it; an accepted UPDATE waits for its
boundary; DEACTIVATE makes an ACTIVE channel STOPPING and a PENDING or RESTARTING one IDLE; RESTART makes an ACTIVE one
RESTARTING until the next block boundary; READ copies the descriptor. A refused command changes no channel. -/
def Obligations.ChannelCommands : Prop :=
  ∀ (q : Requester) (ch : Fin 32768) (s : State), s.chip.answers q = true → Cells.find? q.idx s.chip.host.held = none →
    let c (op : Nat) : Chip := (s.chip.putq q F.chan_CMD_OP op).putq q F.chan_CMD_CHANNEL ch.val
    let answered (st : Nat) (t : State) : Prop :=
      t.chip.fldq q F.chan_CMDSTAT_STATUS = st % 64 ∧ t.chip.fldq q F.chan_CMDSTAT_CHANNEL = ch.val ∧
        t.chip.fldq q F.chan_CMDSTAT_BUSY = 0
    let d := (c 1).staged q
    let cost := (c 1).cost d
    let mask := (c 2).fldq q F.chan_STAGEMASK_WORDS
    let upd := (c 2).updateStatus ch.val ((c 2).staged q) mask
    let x := Cells.find? ch.val s.chip.chans
    let life : Nat := match x with
      | some y => y.life
      | none => 0
    let ready : Nat := St.pick [if s.chip.fld F.chan_CFG_SLOTS ≤ ch.val then St.RANGE else St.OK,
      if s.chip.chanRec = true then St.NOTREADY else St.OK]
    ((c 1).activateStatus ch.val d = St.OK →
      Completes (.activate q ch) s (fun t =>
        answered St.OK t ∧ ∃ y, Cells.find? ch.val t.chip.chans = some y ∧ y.life = 1 ∧ y.charge = cost.1 ∧
          y.load = (c 1).dramLoad d cost.2 ∧ y.tenant = dbits d 0 35 24 ∧
          some y.cluster = (c 1).placeCluster (dbits d 0 23 20) cost.1 ∧
          y.first = (c 1).nextBoundary d (s.chip.mt + s.chip.blockB) ∧ y.update = [])) ∧
    ((c 1).activateStatus ch.val d ≠ St.OK →
      Completes (.activate q ch) s (fun t =>
        answered ((c 1).activateStatus ch.val d) t ∧ t.chip.chans = s.chip.chans ∧ t.chip.jbs = s.chip.jbs)) ∧
    (∀ y, x = some y → upd = St.OK → mask ≠ 0 →
      Completes (.update q ch) s (fun t =>
        answered St.OK t ∧ ∃ z u, Cells.find? ch.val t.chip.chans = some z ∧ z.life = y.life ∧ z.update = y.update ++ [u] ∧
          u.words = pickWords mask ((c 2).staged q) ∧ y.charge ≤ z.charge)) ∧
    (upd ≠ St.OK ∨ mask = 0 → Completes (.update q ch) s (fun t => answered upd t ∧ t.chip.chans = s.chip.chans)) ∧
    (ready = St.OK → life = 2 →
      Completes (.deactivate q ch) s (fun t =>
        answered St.OK t ∧ ∃ y z, x = some y ∧ Cells.find? ch.val t.chip.chans = some z ∧ z.life = 4 ∧
          z = { y with life := 4, lastFrame := z.lastFrame } ∧ y.frame ≤ z.lastFrame)) ∧
    (ready = St.OK → life = 1 ∨ life = 3 →
      Completes (.deactivate q ch) s (fun t => answered St.OK t ∧ Cells.find? ch.val t.chip.chans = none ∧
        Cells.find? ch.val t.chip.jbs = none)) ∧
    (ready = St.OK → life = 0 ∨ life = 4 →
      Completes (.deactivate q ch) s (fun t => answered St.NOTREADY t ∧ t.chip.chans = s.chip.chans)) ∧
    (ready = St.OK → life = 2 →
      Completes (.restart q ch) s (fun t =>
        answered St.OK t ∧ ∃ y z, x = some y ∧ Cells.find? ch.val t.chip.chans = some z ∧ z.life = 3 ∧
          z.restarts = min 1023 (y.restarts + 1) ∧ z.first = (s.chip.mt / s.chip.blockB + 1) * s.chip.blockB)) ∧
    (ready = St.OK → life ≠ 2 →
      Completes (.restart q ch) s (fun t => answered St.NOTREADY t ∧ t.chip.chans = s.chip.chans)) ∧
    (ch.val < s.chip.fld F.chan_CFG_SLOTS → s.chip.rangeOk (s.chip.descAddr ch.val) 32 = true →
      Completes (.read q ch) s (fun t =>
        answered St.OK t ∧ t.chip.chans = s.chip.chans ∧
          ∀ w, w < 32 → t.chip.rdq q .chan_READBACK w = s.chip.descWord ch.val w))

/-- A PENDING channel becomes ACTIVE at its first frame boundary and a RESTARTING one at a block boundary, each with its
item placed in its slot (R89, R90, R274); an accepted UPDATE leaves the queue of its channel at its boundary (R93); the
oldest frame terminated to a channel is taken (R27): discarded and counted where no channel takes packets or it is no packet
of the stream, and of a stream of one audio channel counted late, or stored in its cell with VALID set (R114, R116, Table
4.4); and a window of every jitter buffer ends (R120). Before its time, nothing changes. -/
def Obligations.ChannelEvents : Prop :=
  ∀ (ch : Fin 32768) (s : State) (y : ChanSt), Cells.find? ch.val s.chip.chans = some y →
    let at_ (t : State) := Cells.find? ch.val t.chip.chans
    let free : Prop := s.chip.chanRec = false ∧ Cells.find? ch.val s.chip.slots = none
    (y.life = 1 → y.first ≤ s.chip.mt → free →
      Completes (.channelFirstFrame ch) s (fun t =>
        (∃ z, at_ t = some z ∧ z.life = 2 ∧ z.frame = y.first ∧ z.ramp = true) ∧
          ∃ l, Cells.find? ch.val t.chip.slots = some l ∧ wbits l.w0 35 32 = y.cluster % 16)) ∧
    (y.life ≠ 1 ∨ s.chip.mt < y.first → Completes (.channelFirstFrame ch) s (fun t => t = s)) ∧
    (y.life = 3 → y.first ≤ s.chip.mt → free →
      Completes (.channelRestartResume ch) s (fun t =>
        (∃ z, at_ t = some z ∧ z.life = 2 ∧ z.frame = y.first ∧ z.muted = true ∧ z.lag = 0) ∧
          ∃ l, Cells.find? ch.val t.chip.slots = some l)) ∧
    (y.life ≠ 3 ∨ s.chip.mt < y.first → Completes (.channelRestartResume ch) s (fun t => t = s)) ∧
    (∀ u rest, y.update = u :: rest → u.at_ ≤ s.chip.mt → u.at_ ≤ y.frame → s.chip.writingBack ch.val = false →
      s.chip.chanRec = false →
      Completes (.updateApply ch) s (fun t =>
        ∃ z, at_ t = some z ∧ z.update = rest ∧ z.charge = y.charge - u.dropCharge ∧ z.load = y.load - u.dropLoad)) ∧
    (y.update = [] → Completes (.updateApply ch) s (fun t => t = s)) ∧
    (∀ d rest, s.chip.flume.toChan = d :: rest →
      Completes .channelIngressFrame s (fun t =>
        t.chip.flume.toChan = rest ∧
          (s.chip.chanRec = false → s.chip.takesPackets d.dest (s.chip.desc d.dest) = false →
            t.chip.fld F.chan_INGDISC_FRAMES = min F.chan_INGDISC_FRAMES.top (s.chip.fld F.chan_INGDISC_FRAMES + 1) ∧
              t.chip.jbs = s.chip.jbs))) ∧
    (s.chip.flume.toChan = [] → Completes .channelIngressFrame s (fun t => t = s)) ∧
    (∀ d rest, s.chip.flume.toChan = d :: rest → s.chip.chanRec = false →
      let dd := s.chip.desc d.dest
      let j := s.chip.jb d.dest
      let x := j.rxp
      let p := parseRtp (match udpOf d.octets with
        | some (_, o, _, _) => (d.octets.drop (o + 8)).take (be16 d.octets (o + 4) - 8)
        | none => [])
      let pos := j.readPos (subtickOf d.inTime / 16)
      let m := senderMt dd j p.ts pos
      let after (t : State) : JbSt := t.chip.jb d.dest
      let dropped (why : Nat) (t : State) : Prop :=
        t.chip.flume.toChan = rest ∧ (after t).reason = why ∧ (after t).discards = min 1023 (j.discards + 1) ∧
          t.chip.dram = s.chip.dram
      let accepted : Prop := p.ver = 2 ∧ p.whole = true ∧ p.pt = rxPt x ∧ payOk dd x p.pay = true ∧ rxSsrcChk x = true ∧
        p.ssrc = rxSsrc x ∧ dDecoder dd ≠ 8 ∧ rxChans x = 1 ∧ rxFree x = false ∧ nCells dd x ≠ 0
      s.chip.takesPackets d.dest dd = true →
      (p.ver ≠ 2 ∨ p.whole = false → Completes .channelIngressFrame s (dropped 6)) ∧
      (p.ver = 2 → p.whole = true → p.pt ≠ rxPt x → Completes .channelIngressFrame s (dropped 4)) ∧
      (accepted → pos - 48000 ≤ m → m < pos →
        Completes .channelIngressFrame s (fun t =>
          (after t).late = min (2 ^ 21 - 1) (j.late + 1) ∧ t.chip.dram = s.chip.dram)) ∧
      (accepted → pos ≤ m → m + rxSpp dd x ≤ pos + (nCells dd x * rxSpp dd x : Nat) →
        (s.chip.cellHead dd x (cellIndex dd x m)).1 = false →
        s.chip.writeOk (cellAddr dd x (cellIndex dd x m)) (8 + 8 * ceilDiv p.pay.length 36) = true →
        Completes .channelIngressFrame s (fun t =>
          (t.chip.cellHead dd x (cellIndex dd x m)).1 = true ∧ (t.chip.cellHead dd x (cellIndex dd x m)).2.1 = p.ts ∧
            (after t).discards = j.discards))) ∧
    (s.chip.live = true → s.chip.mt % 48000 = 0 → s.chip.time.lastWindow ≠ some s.chip.mt →
      Completes .jbWindowEnd s (fun t =>
        t.chip.time.lastWindow = some s.chip.mt ∧
          (dSource (s.chip.desc ch.val) = 1 →
            (t.chip.jb ch.val).winN = 0 ∧ (t.chip.jb ch.val).transits = [] ∧ (t.chip.jb ch.val).winLate = false)))

/-! ## The Kerf engine, the mix buses and the Baler (R136 to R157, R193 to R202, R209 to R232) -/

/-- A bank swap of a gang: at once when no lane is owned; else it waits for the first output sample later than its
acceptance, and it is refused when the new bank does not fit every owned lane, when LAT differs, over quota, or while one is
pending. Each swap holds for every output later than its acceptance (R147, R148). -/
def Obligations.KerfBankSwap : Prop :=
  ∀ (q : Requester) (g : Fin 16384) (w : Word) (s : State),
    let c := s.chip
    let sent : Prop := c.answers q = true ∧ Cells.find? q.idx c.host.held = none
    let own := c.ownedLanes g.val
    let taken := Cells.get [] g.val c.kerf.swapAt
    let b := c.fld F.kerf_GANG_ACTBANK g.val
    let old := c.setHdr b (wbits w 35 32)
    let new := c.setHdr (1 - b) (wbits w 35 32)
    let fi (l : Nat) : Nat := kerfIn (c.fld F.kerf_LRATE_INRATE l)
    let fo (l : Nat) : Nat := kerfOut (c.fld F.kerf_LRATE_OUTRATE l)
    let fits (l : Nat) : Prop := new.usable (fi l) (fo l) (despikeD (c.fld F.kerf_LCFG_DSW l)) = true ∧
      (c.owner l = 1 → new.n = 0 ∨ new.exact (fi l) (fo l) = true)
    let rings := own.filter (fun l => c.owner l == 2)
    let more := (rings.map (fun l => new.extra (fi l) (fo l))).sum
    let less := (rings.map (fun l => old.extra (fi l) (fo l))).sum
    let refused (st : Nat) (t : State) : Prop :=
      t.chip.fld F.kerf_STATUS_LASTERR = st ∧ t.chip.rd .kerf_GANG g.val = c.rd .kerf_GANG g.val
    (sent → own = [] →
      Completes (.kerfSwapRequest q g w) s (fun t =>
        t.chip.fld F.kerf_GANG_SET g.val = wbits w 35 32 ∧ t.chip.fld F.kerf_GANG_ACTBANK g.val = 1 - b)) ∧
    (sent → own ≠ [] → wbits w 35 32 ≠ c.fld F.kerf_GANG_SET g.val →
      Completes (.kerfSwapRequest q g w) s (refused St.BUSY)) ∧
    (sent → own ≠ [] → wbits w 35 32 = c.fld F.kerf_GANG_SET g.val →
      ((∃ l ∈ own, ¬ fits l) ∨ old.lat ≠ new.lat → Completes (.kerfSwapRequest q g w) s (refused St.RANGE)) ∧
      ((∀ l ∈ own, fits l) → old.lat = new.lat →
        let x := c.fld F.kerf_XUSE_EXTRA + more - less
        (9216 < x → less < more → Completes (.kerfSwapRequest q g w) s (refused St.QUOTA)) ∧
        (¬ (9216 < x ∧ less < more) → c.flag F.kerf_GANG_PENDING g.val = true →
          Completes (.kerfSwapRequest q g w) s (refused St.BUSY)) ∧
        (¬ (9216 < x ∧ less < more) → c.flag F.kerf_GANG_PENDING g.val = false →
          Completes (.kerfSwapRequest q g w) s (fun t =>
            t.chip.flag F.kerf_GANG_PENDING g.val = true ∧ t.chip.fld F.kerf_GANG_ACTBANK g.val = b ∧
              (x ≤ 9216 → t.chip.fld F.kerf_XUSE_EXTRA = x) ∧
              Cells.get [] g.val t.chip.kerf.swapAt = c.mt :: taken ∧
              (∀ m, m ≤ c.mt → t.chip.bankAt g.val m = c.bankAt g.val m) ∧
              ((∀ m ∈ taken, m ≤ c.mt) → ∀ m, c.mt < m → t.chip.bankAt g.val m = 1 - b))))) ∧
    (∀ ta r, taken = ta :: r → c.flag F.kerf_GANG_PENDING g.val = true →
      let first := outputAfter (kerfOut (c.fld F.kerf_GANG_OUTRATE g.val)) ta
      (first ≤ c.mt →
        Completes (.kerfSwapPoint g) s (fun t =>
          t.chip.fld F.kerf_GANG_ACTBANK g.val = 1 - b ∧ t.chip.flag F.kerf_GANG_PENDING g.val = false)) ∧
      (c.mt < first → Completes (.kerfSwapPoint g) s (fun t => t = s))) ∧
    (c.flag F.kerf_GANG_PENDING g.val = false → Completes (.kerfSwapPoint g) s (fun t => t = s))

/-- Ring lanes and requests: enabling a lane owns it and names its first block, stopping it lets the block in progress
complete, and the owner becomes FREE at the next boundary; other writes of KERF.LRATE meet the status that Table 5.15 gives.
A block reads the input ring and writes its outputs to the output ring, and to no word outside it; an error of the lane's
own state loses the block. A core's request completes in its turn and its outputs land in local memory; that error discards
the item (R151 to R155, R258). -/
def Obligations.KerfRingLanes : Prop :=
  ∀ (q : Requester) (l : Fin 16384) (w : Word) (err : KerfErr) (k : CoreId) (s : State),
    let c := s.chip
    let v := wput w 33 33 1
    let old := c.rd .kerf_LRATE l.val
    let ln := c.lane l.val
    let refused (st : Nat) (t : State) : Prop :=
      t.chip.fld F.kerf_STATUS_LASTERR = st ∧ t.chip.rd .kerf_LRATE l.val = old ∧ t.chip.lane l.val = ln
    -- the block of a lane that has a block due
    let a := ln.nextBlock
    let b := a + c.blockB
    let fi := kerfIn (c.fld F.kerf_LRATE_INRATE l.val)
    let fo := kerfOut (c.fld F.kerf_LRATE_OUTRATE l.val)
    let j0 := if ln.raw.isEmpty && ln.hist.isEmpty then c.primeFrom l.val a else (ln.rawAt + ln.raw.length).toNat
    let n := ceilDiv (b * fi) 48000 - j0
    let ys := ((c.logRing l.val j0 n).runLane l.val j0 ((List.range n).map (fun i => c.ringIn l.val (j0 + i)))
      (timesIn fo a b) err).1
    let ob := c.fld F.kerf_LOBASE_OBASE l.val * 16
    let size := 2 ^ (c.fld F.kerf_LRATE_OSZ l.val + 10)
    let place (i : Nat) : Nat := ob + ((samplesIn fo a b).1 + i) % size
    let lost := F.kerf_RINGUNCORR_EVENTS
    (c.answers q = true → Cells.find? q.idx c.host.held = none →
      (c.owner l.val = 0 → c.ringStatus l.val v = St.OK →
        Completes (.ringLaneEnable q l w) s (fun t =>
          t.chip.owner l.val = 2 ∧ t.chip.flag F.kerf_LRATE_EN l.val = true ∧
            wbits (t.chip.rd .kerf_LRATE l.val) 32 20 = wbits w 32 20 ∧
            t.chip.lane l.val = { nextBlock := (c.mt / c.blockB + 1) * c.blockB })) ∧
      (c.owner l.val = 0 → c.ringStatus l.val v ≠ St.OK →
        Completes (.ringLaneEnable q l w) s (refused (c.ringStatus l.val v))) ∧
      (c.owner l.val = 1 ∨ c.owner l.val = 2 →
        Completes (.ringLaneEnable q l w) s (refused (St.pick [c.ringStatus l.val v, St.BUSY]))) ∧
      (c.owner l.val = 2 → wbits w 32 20 = wbits old 32 20 → wbit old 33 = true →
        Completes (.ringLaneStop q l w) s (fun t =>
          t.chip.flag F.kerf_LRATE_EN l.val = false ∧ t.chip.owner l.val = 2 ∧
            t.chip.lane l.val = { ln with stopAt := some c.mt })) ∧
      (c.owner l.val = 2 → wbits w 32 20 = wbits old 32 20 → wbit old 33 = false →
        Completes (.ringLaneStop q l w) s (fun t => t.chip.rd .kerf_LRATE l.val = old ∧ t.chip.lane l.val = ln)) ∧
      (c.owner l.val = 1 ∨ (c.owner l.val = 2 ∧ wbits w 32 20 ≠ wbits old 32 20) →
        Completes (.ringLaneStop q l w) s (refused St.BUSY)) ∧
      (c.owner l.val = 0 →
        Completes (.ringLaneStop q l w) s (fun t =>
          t.chip.flag F.kerf_LRATE_EN l.val = false ∧ t.chip.owner l.val = 0 ∧
            wbits (t.chip.rd .kerf_LRATE l.val) 32 20 = wbits w 32 20))) ∧
    (∀ m, ln.stopAt = some m → c.owner l.val = 2 →
      ((m / c.blockB + 1) * c.blockB ≤ c.mt →
        Completes (.ringLaneRelease l) s (fun t => t.chip.owner l.val = 0 ∧ t.chip.lane l.val = {})) ∧
      (c.mt < (m / c.blockB + 1) * c.blockB → Completes (.ringLaneRelease l) s (fun t => t = s))) ∧
    (ln.stopAt = none → Completes (.ringLaneRelease l) s (fun t => t = s)) ∧
    (c.ringDue l.val = true → c.kerfServing = none →
      (err ≠ .lane → c.upset (.lane l.val) = false →
        Completes (.ringBlockCompute l err) s (fun t =>
          (t.chip.lane l.val).nextBlock = b ∧
            (∀ i y, ys[i]? = some y → ys.length ≤ size → c.burstOk (place i / 16) = true →
              t.chip.word (place i) = wofInt y) ∧
            ∀ x, x < ob ∨ ob + size ≤ x → t.chip.word x = c.word x)) ∧
      (err = .lane ∨ c.upset (.lane l.val) = true →
        Completes (.ringBlockCompute l err) s (fun t =>
          t.chip.lane l.val = { nextBlock := b, stopAt := ln.stopAt } ∧
            t.chip.fld lost = min lost.top (c.fld lost + 1) ∧ t.chip.dram = c.dram))) ∧
    (c.ringDue l.val = false ∨ c.kerfServing.isSome = true → Completes (.ringBlockCompute l err) s (fun t => t = s)) ∧
    (∀ lane ia m oa p, (c.core k.val).xfers = [.kreq lane ia m oa p] → (c.core k.val).wait = .waite →
      c.kerfTurn k.val = true →
      (∀ ch x, (c.core k.val).item = some ch → Cells.find? ch c.chans = some x → err ≠ .lane →
        c.upset (.lane lane) = false →
        let ki := kerfIn (c.fld F.kerf_LRATE_INRATE lane)
        let ko := kerfOut (c.fld F.kerf_LRATE_OUTRATE lane)
        let zs := (c.runLane lane (ceilDiv (x.frame * ki) 48000 : Nat)
          ((c.localWords k.val ia m).map (fun w => signed 36 w.toNat))
          ((List.range p).map (fun i => (ceilDiv (x.frame * ko) 48000 + i) * 48000 / ko)) err).1
        Completes (.kerfRequestComplete k err) s (fun t =>
          (t.chip.core k.val).xfers = [] ∧ (t.chip.core k.val).wait = .run ∧
            (t.chip.core k.val).g = (c.core k.val).g ∧ t.chip.dram = c.dram ∧
            ∀ i y, zs[i]? = some y → p ≤ 65536 → t.chip.localWord k.val (oa + i) = wofInt y)) ∧
      (∀ ch, (c.core k.val).item = some ch → err = .lane ∨ c.upset (.lane lane) = true →
        Completes (.kerfRequestComplete k err) s (fun t =>
          (t.chip.core k.val).xfers = [] ∧ (t.chip.core k.val).item = none ∧ (t.chip.core k.val).wait = .take))) ∧
    (c.kerfTurn k.val = false → Completes (.kerfRequestComplete k err) s (fun t => t = s))

/-- A mix bus: enabling checks its settings, zeroes its window and places its sum blocks, disabling needs no input and no
reader, and its settings stand while it is on; a sum block opens with its cells zero and closes two block lengths after it
begins, each at its own instant (R193 to R197). -/
def Obligations.MixBuses : Prop :=
  ∀ (q : Requester) (b : Fin 4096) (w : Word) (s : State),
    let c := s.chip
    let sent : Prop := c.answers q = true ∧ Cells.find? q.idx c.host.held = none
    let old := c.rd .chan_BUS b.val
    let on := wput (wput w 35 35 1) 17 0 0
    let st := c.busEnableStatus b.val on
    let k := c.busSt b.val
    let lo := wbits w 29 18 * 256
    let hi := lo + winCells (wbits w 32 30)
    let same := wbits w 34 18 = wbits old 34 18
    let inUse := c.fld F.chan_BUSGAIN_INPUTS b.val ≠ 0 ∨ c.fld F.chan_BUSGAIN_READERS b.val ≠ 0
    let cellOf (i : Nat) : Nat := c.busCell b.val (k.opened * c.busBlock b.val + i)
    let kept (t : State) : Prop := t.chip.rd .chan_BUS b.val = old ∧ t.chip.mix = c.mix ∧ t.chip.buses = c.buses
    let refused (e : Nat) (t : State) : Prop := t.chip.fldq q F.chan_CMDSTAT_LASTERR = e ∧ kept t
    (sent → c.busOn b.val = false → st = St.OK →
      Completes (.busEnable q b w) s (fun t =>
        t.chip.rd .chan_BUS b.val = on ∧ t.chip.busSt b.val = t.chip.busStart b.val ∧
          (∀ a, lo ≤ a → a < hi → t.chip.cell a = 0) ∧ ∀ a, a < lo ∨ hi ≤ a → t.chip.cell a = c.cell a)) ∧
    (sent → c.busOn b.val = false → st ≠ St.OK → Completes (.busEnable q b w) s (refused St.RANGE)) ∧
    (sent → c.busOn b.val = true → same → Completes (.busEnable q b w) s kept) ∧
    (sent → c.busOn b.val = true → ¬ same → Completes (.busEnable q b w) s (refused (St.pick [st, St.BUSY]))) ∧
    (sent → c.busOn b.val = true → same → ¬ inUse →
      Completes (.busDisable q b w) s (fun t => t.chip.busOn b.val = false ∧ t.chip.busSt b.val = {})) ∧
    (sent → c.busOn b.val = true → ¬ same ∨ inUse → Completes (.busDisable q b w) s (refused St.BUSY)) ∧
    (sent → c.busOn b.val = false →
      Completes (.busDisable q b w) s (fun t => t.chip.rd .chan_BUS b.val = wput (wput w 35 35 0) 17 0 0 ∧
        t.chip.mix = c.mix)) ∧
    (c.busOn b.val = true → c.busOpens b.val k.opened ≤ c.busNow b.val →
      Completes (.mixBlockOpen b) s (fun t =>
        t.chip.busSt b.val = { k with opened := k.opened + 1 } ∧
          (∀ i, i < c.busBlock b.val → t.chip.cell (cellOf i) = 0) ∧
          ∀ a, (∀ i, i < c.busBlock b.val → a ≠ cellOf i) → t.chip.cell a = c.cell a)) ∧
    (c.busOn b.val = false ∨ (c.busNow b.val : Int) < c.busOpens b.val k.opened →
      Completes (.mixBlockOpen b) s (fun t => t = s)) ∧
    (c.busOn b.val = true → (k.closed + 2) * c.busBlock b.val ≤ c.busNow b.val →
      Completes (.mixBlockClose b) s (fun t =>
        t.chip.busSt b.val = { k with closed := k.closed + 1 } ∧ t.chip.mix = c.mix)) ∧
    (c.busOn b.val = false ∨ c.busNow b.val < (k.closed + 2) * c.busBlock b.val →
      Completes (.mixBlockClose b) s (fun t => t = s))

/-- A Baler unit: a submission passes its checks and joins the ring, or reports why not; a unit runs jobs of the first class
before those of the second, suspends one of the second for one of the first, and resumes it before it starts another; a job
that ends leaves the ring and is counted. Its output and its completion record are written: those of host software to DRAM,
those of a core's job to local memory, where its core goes on (R209, R210, R223, R225, R227, R228). -/
def Obligations.BalerJobs : Prop :=
  ∀ (q : Requester) (u : Fin 4) (mismatch : Option Nat) (s : State),
    let c := s.chip
    let sent : Prop := c.answers q = true ∧ Cells.find? q.idx c.host.held = none
    let b := c.baler u.val
    let job (n : Nat) : Option BalerJob := b.jobs.find? (fun x => x.serial == n)
    let ws := (List.range 8).map (fun i => c.rdq q .baler_SUBW i)
    let st : Nat := St.pick [c.jobStatus ws false,
      if c.flag F.baler_U_CTRL_EN u.val = false ∨ c.chanRec = true then St.NOTREADY else St.OK,
      if 880 ≤ c.fld F.baler_U_OCC_SHARED u.val then St.BUSY else St.OK]
    let first1 := b.jobs.find? (fun j => j.frm.first)
    let first2 := b.jobs.find? (fun j => !j.frm.first)
    let becomes (x : BalerSt) (t : State) : Prop := t.chip.baler u.val = x
    let counted (t : State) : Prop := t.chip.fld F.baler_U_JOBS_COUNT u.val =
      min F.baler_U_JOBS_COUNT.top (c.fld F.baler_U_JOBS_COUNT u.val + 1)
    (sent → st = St.OK →
      Completes (.balerSubmit q u) s (fun t =>
        ∃ j : BalerJob, (t.chip.baler u.val).jobs = b.jobs ++ [j] ∧ j.frm = .host q ∧ j.ws = ws ∧
          t.chip.fld F.baler_U_OCC_SHARED u.val = c.fld F.baler_U_OCC_SHARED u.val + 1)) ∧
    (sent → st ≠ St.OK →
      Completes (.balerSubmit q u) s (fun t =>
        t.chip.fldq q F.baler_SUBSTAT_LASTERR = st % 64 ∧ t.chip.balers = c.balers)) ∧
    (∀ j, b.running = none → first1 = some j →
      Completes (.balerJobStart u) s (becomes { b with running := some j.serial })) ∧
    (∀ n j, b.running = none → first1 = none → b.suspended = some n → job n = some j →
      Completes (.balerJobStart u) s (becomes { b with running := some j.serial, suspended := none })) ∧
    (∀ j, b.running = none → first1 = none → b.suspended = none → first2 = some j →
      Completes (.balerJobStart u) s (becomes { b with running := some j.serial })) ∧
    (b.running = none → b.jobs = [] → Completes (.balerJobStart u) s (becomes b)) ∧
    (∀ n r j, b.running = some n → job n = some r → r.frm.first = false → first1 = some j → j.serial ≠ n →
      Completes (.balerJobStart u) s (becomes { b with running := some j.serial, suspended := some n })) ∧
    (∀ n r, b.running = some n → job n = some r → r.frm.first = true ∨ first1 = none →
      Completes (.balerJobStart u) s (becomes b)) ∧
    ((∀ m, (c.core m).wait = .takeDrain → (c.core m).xfers ≠ []) → ∀ n j, b.running = some n → job n = some j →
      let d := c.jobRun j mismatch
      let rest : BalerSt := { b with running := none, jobs := b.jobs.filter (fun x => x.serial != n) }
      (∀ p, j.frm = .host p →
        let cpl := wbits (j.ws.getD 6 0) 33 0
        Completes (.balerJobComplete u mismatch) s (fun t =>
          becomes rest t ∧ counted t ∧
            (∀ i y, d.out[i]? = some y → c.burstOk ((jobDst j.ws + i) / 16) = true → (jobDst j.ws + i) / 16 ≠ cpl →
              t.chip.word (jobDst j.ws + i) = y) ∧
            (c.burstOk cpl = true → ∀ i, i < 4 →
              t.chip.word (cpl * 16 + i) = (d.record u.val (j.ws.getD 7 0)).getD i 0))) ∧
      (∀ k : CoreId, j.frm = .core k.val → jobDstLocal j.ws = true → (c.core k.val).xfers = [.bsub u.val n] →
        (c.core k.val).wait = .waite →
        Completes (.balerJobComplete u mismatch) s (fun t =>
          becomes rest t ∧ counted t ∧ (t.chip.core k.val).xfers = [] ∧ (t.chip.core k.val).wait = .run ∧
            ∀ i, i < 4 → t.chip.localWord k.val (wbits (j.ws.getD 6 0) 15 0 + i) =
              (d.record u.val (j.ws.getD 7 0)).getD i 0))) ∧
    (b.running = none → (∀ m, (c.core m).xfers = [] → (c.core m).wait ≠ .waite ∧ (c.core m).wait ≠ .takeDrain) →
      Completes (.balerJobComplete u mismatch) s (fun t => t = s))

/-! ## Interrupts, transfers and work items (R255 to R265, R271 to R295) -/

/-- What comes to a core from beside its instructions: a control core with IE = 1 takes its lowest enabled pending line, or
an exception; an item that runs longer than four periods ends in WATCHDOG; the timer and a mailbox write make their lines
pending; and an outstanding transfer moves its data, after which a core that waited for its last one goes on (R255, R258 to
R265). -/
def Obligations.CoreEvents : Prop :=
  ∀ (q : Requester) (kc : Fin 4) (cause : Fin 6) (w : Word) (kch : Fin 96) (k : CoreId) (i : Fin 16) (s : State),
    let c := s.chip
    let a := c.core (96 + kc.val)
    let m := a.ipend &&& a.imask
    let vectored (n : Nat) (t : State) : Prop :=
      let b := t.chip.core (96 + kc.val)
      b.epc = a.pc ∧ b.ecause = n ∧ b.prevSup = a.sup ∧ b.sup = true ∧ b.ie = false ∧ b.pc = (a.ivec + 16 * n) % 2 ^ 19
    (∀ n, a.ie = true → a.wait = .run → n < 8 → m.testBit n = true → (∀ j, j < n → m.testBit j = false) →
      Completes (.interruptTaken kc none) s (vectored (8 + n))) ∧
    (a.ie = false ∨ m = 0 ∨ a.wait ≠ .run → Completes (.interruptTaken kc none) s (fun t => t = s)) ∧
    (a.wait ≠ .run → Completes (.interruptTaken kc (some cause)) s (fun t => t = s)) ∧
    (a.wait = .run → a.ie = true ∨ a.sup = false →
      Completes (.interruptTaken kc (some cause)) s (vectored cause.val)) ∧
    (∀ n x, (c.core kch.val).item = some n → Cells.find? n c.slots = some x →
      (4 * x.period < c.subtick - (c.core kch.val).takeSub →
        Completes (.watchdog kch) s (fun t =>
          (t.chip.core kch.val).item = none ∧ (t.chip.core kch.val).wait = .take)) ∧
      (c.subtick - (c.core kch.val).takeSub ≤ 4 * x.period → Completes (.watchdog kch) s (fun t => t = s))) ∧
    ((c.core kch.val).item = none → Completes (.watchdog kch) s (fun t => t = s)) ∧
    (a.tarmed = true → 0 ≤ halfDist 36 (launchForm c.now) a.tcmp →
      Completes (.timerCompare kc) s (fun t =>
        (t.chip.core (96 + kc.val)).tarmed = false ∧
          (a.imask.testBit 0 = true → (t.chip.core (96 + kc.val)).ipend.testBit 0 = true))) ∧
    (a.tarmed = false ∨ halfDist 36 (launchForm c.now) a.tcmp < 0 → Completes (.timerCompare kc) s (fun t => t = s)) ∧
    (c.answers q = true → Cells.find? q.idx c.host.held = none → Requester.isKc q kc.val = false →
      Completes (.mboxWrite q kc w) s (fun t =>
        t.chip.rd .coredbg_MBOX kc.val = w ∧
          (a.imask.testBit 2 = true → (t.chip.core (96 + kc.val)).ipend.testBit 2 = true ∧
            (a.wait = .wfi → (t.chip.core (96 + kc.val)).wait = .run)))) ∧
    (∀ ad bu n, (c.core k.val).xfers[i.val]? = some (.dmovIn ad bu n) → 16 * n ≤ 65536 → (c.core k.val).wait ≠ .takeDrain →
      Completes (.engineTransferComplete k i) s (fun t =>
        (t.chip.core k.val).xfers = (c.core k.val).xfers.eraseIdx i.val ∧ t.chip.dram = c.dram ∧
          (∀ j, j < 16 * n → t.chip.localWord k.val (ad + j) = c.word (bu * 16 + j)) ∧
          (t.chip.core k.val).flags.testBit Fg.EF =
            ((c.core k.val).flags.testBit Fg.EF || !c.rangeOk (bu * 16) (16 * n)))) ∧
    (∀ ad bu n, (c.core k.val).xfers[i.val]? = some (.dmovOut ad bu n) → (c.core k.val).wait ≠ .takeDrain →
      Completes (.engineTransferComplete k i) s (fun t =>
        (t.chip.core k.val).xfers = (c.core k.val).xfers.eraseIdx i.val ∧
          (∀ j, j < 16 * n → (bu * 16 + j) / 16 < c.dramBursts →
            t.chip.word (bu * 16 + j) = c.localWord k.val (ad + j)) ∧
          (∀ x, x < bu * 16 ∨ bu * 16 + 16 * n ≤ x → t.chip.word x = c.word x) ∧
          (t.chip.core k.val).flags.testBit Fg.EF =
            ((c.core k.val).flags.testBit Fg.EF || !c.writeOk (bu * 16) (16 * n)))) ∧
    (∀ bus first ad n, (c.core k.val).xfers[i.val]? = some (.mxadd bus first ad n) → (c.core k.val).wait ≠ .takeDrain →
      Completes (.engineTransferComplete k i) s (fun t =>
        (t.chip.core k.val).xfers = (c.core k.val).xfers.eraseIdx i.val ∧
          t.chip.mix = (c.mixAddAll bus first ((c.localWords k.val ad n).map (fun x => signed 36 x.toNat))).mix)) ∧
    (∀ bus first ad n, (c.core k.val).xfers[i.val]? = some (.mxrd bus first ad n) → n ≤ 65536 →
      (c.core k.val).wait ≠ .takeDrain →
      Completes (.engineTransferComplete k i) s (fun t =>
        (t.chip.core k.val).xfers = (c.core k.val).xfers.eraseIdx i.val ∧
          ∀ j, j < n → t.chip.localWord k.val (ad + j) = wofInt ((c.mixReadAll bus first n).1.getD j 0))) ∧
    (∀ t0, (c.core k.val).xfers = [t0] → i.val = 0 → t0.separate = false → c.txpWaits t0 = false →
      (c.core k.val).wait = .waite →
      Completes (.engineTransferComplete k i) s (fun t =>
        (t.chip.core k.val).xfers = [] ∧ (t.chip.core k.val).wait = .run)) ∧
    (∀ t0, (c.core k.val).xfers[i.val]? = some t0 → t0.separate = true ∨ c.txpWaits t0 = true →
      Completes (.engineTransferComplete k i) s (fun t => t = s)) ∧
    ((c.core k.val).xfers[i.val]? = none → Completes (.engineTransferComplete k i) s (fun t => t = s))

/-- A release at the head of its delay list enters its cluster's ready list at its tick, once the mix store has closed the
tick's blocks, or is held while that list takes nothing; what a ready list held back enters in order, while there is room.
The head of the list is bound to a buffer, landed, dispatched to a core that waits in TAKE with its registers loaded, and
written back when it has completed (R275 to R284). -/
def Obligations.ItemLifecycle : Prop :=
  ∀ (n : Fin 65536) (cl : Fin 12) (place : Fin 192) (k : Fin 96) (s : State),
    let c := s.chip
    let slot (m : Nat) (t : State) : Option SlotSt := Cells.find? m t.chip.slots
    let base := bufBase (place.val % 2)
    let pk := place.val / 2
    (∀ x, Cells.find? n.val c.slots = some x → x.stage = .delayed →
      let due : Prop := x.tick ≤ c.mt ∧ c.blocksClosed = true ∧ c.listedBefore n.val x = false ∧ c.chanRec = false
      (due → c.heldBack x.cluster = false →
        Completes (.itemRelease n) s (fun t => slot n.val t = some { x with stage := .ready, listed := true })) ∧
      (due → c.heldBack x.cluster = true →
        Completes (.itemRelease n) s (fun t => slot n.val t = some { x with stage := .held, listed := true })) ∧
      (¬ due → Completes (.itemRelease n) s (fun t => t = s))) ∧
    ((∀ x, Cells.find? n.val c.slots = some x → x.stage ≠ .delayed) → Completes (.itemRelease n) s (fun t => t = s)) ∧
    (c.nextHeld cl.val = none ∨ c.readyFull cl.val = true → Completes (.readyListSpace cl) s (fun t => t = s)) ∧
    (c.readyFull cl.val = false →
      (∀ m x, c.nextHeld cl.val = some ((m, x), .slot m) → Cells.find? m c.slots = some x →
        Completes (.readyListSpace cl) s (fun t => slot m t = some { x with stage := .ready, listed := false })) ∧
      (∀ m x (j : Nat), c.nextHeld cl.val = some ((m, x), .spawn j) →
        x = c.spawnSlot (c.core j).spawning (j / 8) m → Cells.find? m c.slots = none →
        Completes (.readyListSpace cl) s (fun t =>
          slot m t = some { x with stage := if x.tick < c.mt then .ready else .delayed } ∧
            (t.chip.core j).wait = .run ∧ (t.chip.core j).spawning = [])) ∧
      (∀ p q, c.nextHeld cl.val = some (p, .sq q) →
        Completes (.readyListSpace cl) s (fun t => (t.chip.sq q).entry = none))) ∧
    (∀ m x p, c.readyHead cl.val = some (m, x) → c.pickBuffer cl.val = some p →
      (c.writingBack m = false → c.updateDue m = false →
        Completes (.itemAssign cl) s (fun t =>
          t.chip.buf p = (if x.kind = 0 then BufSt.landed m else BufSt.landing m) ∧
            ∀ y, Cells.find? m c.slots = some y →
              slot m t = some { y with stage := if x.kind = 0 then .landed else .landing, place := p })) ∧
      (c.writingBack m = true ∨ c.updateDue m = true → Completes (.itemAssign cl) s (fun t => t = s))) ∧
    (c.readyHead cl.val = none ∨ c.pickBuffer cl.val = none → Completes (.itemAssign cl) s (fun t => t = s)) ∧
    (∀ m x, c.buf place.val = .landing m → Cells.find? m c.slots = some x → x.kind ≠ 1 →
      (c.rangeOk (x.arg * 16) (x.landb * 16) = true →
        Completes (.itemLanded place) s (fun t =>
          t.chip.buf place.val = .landed m ∧ slot m t = some { x with stage := .landed } ∧
            ∀ j, j < x.landb * 16 → t.chip.localWord pk (base + j) = c.word (x.arg * 16 + j))) ∧
      (c.rangeOk (x.arg * 16) (x.landb * 16) = false →
        Completes (.itemLanded place) s (fun t => t.chip.buf place.val = .free))) ∧
    (∀ m x, c.buf place.val = .landing m → Cells.find? m c.slots = some x → x.kind = 1 →
      let sa := dbits (c.desc m) 3 33 0 * 16
      let size := stateBursts (c.desc m) * 16
      let readable : Prop := c.rangeOk (c.descAddr m) 32 = true ∧ c.rangeOk sa size = true
      (readable →
        Completes (.itemLanded place) s (fun t =>
          t.chip.buf place.val = .landed m ∧ slot m t = some { x with stage := .landed } ∧
            (∀ j, j < 32 → t.chip.localWord pk (base + j) = c.word (c.descAddr m + j)) ∧
            ∀ j, j < size → t.chip.localWord pk (base + 32 + j) = c.word (sa + j))) ∧
      (¬ readable → Completes (.itemLanded place) s (fun t => t.chip.buf place.val = .free))) ∧
    (∀ m x (b : Fin 2), b.val = 0 ∨ (∀ y, c.buf (k.val * 2) ≠ .landed y) → c.buf (k.val * 2 + b.val) = .landed m →
      Cells.find? m c.slots = some x → c.chanRec = false → (c.core k.val).wait = .take → fetchable x.entry = true →
      Completes (.itemDispatch k) s (fun t =>
        let r := t.chip.core k.val
        r.wait = .run ∧ r.item = some m ∧ r.pc = x.entry ∧ r.rg 28 = x.w0 ∧ r.rg 29 = x.w1 ∧
          r.rg 30 = BitVec.ofNat 36 x.nominal ∧ r.rg 31 = x.w3 ∧ r.rx 7 = bufBase b.val ∧ r.loop0 = none ∧ r.loop1 = none ∧
          t.chip.buf (k.val * 2 + b.val) = .current m ∧ slot m t = some { x with stage := .running })) ∧
    ((c.core k.val).wait ≠ .take ∨ c.chanRec = true → Completes (.itemDispatch k) s (fun t => t = s)) ∧
    (∀ m x, c.buf place.val = .writing m → Cells.find? m c.slots = some x →
      let h := Cells.get {} place.val c.heads
      let head := h.ws.take 9 ++ c.headWords m h ++ c.localWords pk (base + 28) 4
      let dst := c.descAddr m + 16
      Completes (.writeBackComplete place) s (fun t =>
        t.chip.buf place.val = .free ∧
          (x.stage = .ended → slot m t = none) ∧ (x.stage ≠ .ended → slot m t = some x) ∧
          (32768 ≤ m ∨ x.kind ≠ 1 → c.writeOk (x.arg * 16) (x.landb * 16) = true →
            ∀ j, j < x.landb * 16 → t.chip.word (x.arg * 16 + j) = c.localWord pk (base + j)) ∧
          (m < 32768 → x.kind = 1 → 9 ≤ h.ws.length → c.writeOk dst 16 = true → c.writeOk h.area h.words = true →
            h.area + h.words ≤ dst ∨ dst + 16 ≤ h.area →
            (∀ j, j < 16 → t.chip.word (dst + j) = head.getD j 0) ∧
              ∀ j, j < h.words → t.chip.word (h.area + j) = c.localWord pk (base + 32 + j)))) ∧
    ((∀ m, c.buf place.val ≠ .writing m) → Completes (.writeBackComplete place) s (fun t => t = s))

/-- A submission queue: its base, size and tail as written, the head moved to 0 by a write of base or size; the entry at the
head is decided when its queue's turn comes, its status written to its word 5 with the DONE bit: an accepted SUBMIT occupies
its slot, or is held with its words while its ready list takes nothing, an accepted CANCEL stops further releases, and an
entry that cannot be read is passed (R39, R291 to R294, R420). -/
def Obligations.SubmissionQueues : Prop :=
  ∀ (q : Requester) (w : Word) (s : State),
    let c := s.chip
    let k := c.sq q
    let e := c.fetchEntry q
    let op := wbits (e.ws.getD 4 0) 35 32
    let n := wbits (e.ws.getD 3 0) 35 20
    let st := c.submitStatus e.ws
    let passed (t : State) : Prop := t.chip.sqTurn = (q.idx + 1) % 5
    let moved (t : State) : Prop :=
      t.chip.sq q = { k with head := (k.head + 1) % k.size, entry := none, discard := false } ∧ passed t
    let decided (st : Nat) (t : State) : Prop :=
      t.chip.word (e.addr + 5) = BitVec.ofNat 36 (2 ^ 35 + st * 2 ^ 29) ∧ moved t
    let away : Option SqEntry := k.entry.map (fun e => { e with atHead := false })
    let tick := c.releaseTick (e.ws.getD 2 0).toNat (wbits (e.ws.getD 3 0) 18 0)
    let late : Prop := tick < c.mt ∧ c.heldBack (wbits (e.ws.getD 0 0) 35 32) = true
    (c.answers q = true → Cells.find? q.idx c.host.held = none →
      Completes (.sqbaseWrite q w) s (fun t =>
        t.chip.sq q = { k with base := wbits w 33 0, head := 0, tail := 0, entry := away }) ∧
      (wbits w 12 0 ≤ 4096 →
        Completes (.sqsizeWrite q w) s (fun t =>
          t.chip.sq q = { k with size := wbits w 12 0, head := 0, tail := 0, entry := away })) ∧
      (4096 < wbits w 12 0 → Completes (.sqsizeWrite q w) s (fun t => t = s)) ∧
      (wbits w 12 0 < k.size → Completes (.sqtailWrite q w) s (fun t => t.chip.sq q = { k with tail := wbits w 12 0 })) ∧
      (k.size ≤ wbits w 12 0 → Completes (.sqtailWrite q w) s (fun t => t = s))) ∧
    (c.sqServed q = false →
      Completes (.sqSubmit q) s (fun t => t = s) ∧ Completes (.sqCancel q) s (fun t => t = s)) ∧
    (c.sqServed q = true → c.rangeOk e.addr 5 = false →
      Completes (.sqSubmit q) s (fun t => moved t ∧ t.chip.slots = c.slots) ∧
        Completes (.sqCancel q) s (fun t => moved t ∧ t.chip.slots = c.slots)) ∧
    (c.sqServed q = true → c.rangeOk e.addr 5 = true →
      (op ≠ 1 → Completes (.sqSubmit q) s (fun t => t = s)) ∧
      (op = 1 → Completes (.sqCancel q) s (fun t => t = s)) ∧
      (op = 1 → st ≠ St.OK → Completes (.sqSubmit q) s (fun t => decided st t ∧ t.chip.slots = c.slots)) ∧
      (op = 1 → st = St.OK → ¬ late →
        Completes (.sqSubmit q) s (fun t =>
          decided St.OK t ∧ ∃ x, Cells.find? n t.chip.slots = some x ∧ x.w0 = e.ws.getD 0 0 ∧ x.w1 = e.ws.getD 1 0 ∧
            x.w2 = e.ws.getD 2 0 ∧ x.w3 = e.ws.getD 3 0 ∧ x.nominal = (e.ws.getD 2 0).toNat ∧
            x.effective = x.nominal ∧ x.tick = tick ∧ x.stage = if tick < c.mt then .ready else .delayed)) ∧
      (op = 1 → st = St.OK → late →
        Completes (.sqSubmit q) s (fun t =>
          t.chip.sq q = { k with entry := some e } ∧ passed t ∧ t.chip.slots = c.slots)) ∧
      (op ≠ 1 → wbits (e.ws.getD 4 0) 31 0 ≠ 0 → Completes (.sqCancel q) s (decided St.FORMAT)) ∧
      (op ≠ 1 → wbits (e.ws.getD 4 0) 31 0 = 0 → op ≠ 2 ∨ n < 32768 ∨ 49151 < n →
        Completes (.sqCancel q) s (decided St.RANGE)) ∧
      (op = 2 → wbits (e.ws.getD 4 0) 31 0 = 0 → 32768 ≤ n → n ≤ 49151 →
        (Cells.find? n c.slots = none → Completes (.sqCancel q) s (decided St.NOTREADY)) ∧
        (∀ x, Cells.find? n c.slots = some x →
          let waits : Prop := x.stage = .delayed ∨ x.stage = .held
          Completes (.sqCancel q) s (fun t => decided St.OK t ∧
            (waits → c.writingBack n = false → Cells.find? n t.chip.slots = none) ∧
            (waits → c.writingBack n = true →
              Cells.find? n t.chip.slots = some { x with stage := .ended, cancelled := true }) ∧
            (¬ waits → Cells.find? n t.chip.slots = some { x with cancelled := true })))))

/-! ## Chutes (R296 to R311) -/

/-- A word pushed is under way until it reaches its chute; there a chute in mark mode stores it with its END bit and the GAP
that is due, and a full one drops it and cuts an open packet whole; in length mode the words of a packet follow their length
word, which its end fills in. A pop takes the entry at RD, and DROPREST the rest of its packet; a word that reaches the
chute in one cycle with a pop goes in after it (R298 to R307, R310, R311). -/
def Obligations.ChuteTraffic : Prop :=
  ∀ (q : Requester) (n : Fin 2048) (w : Word) (s : State),
    let c := s.chip
    let k := c.chute n.val
    let size := chuteL k.len
    let up : Prop := c.answers q = true
    let sent : Prop := up ∧ Cells.find? q.idx c.host.held = none
    let steady : Prop := c.flag F.chute_C_CFG_PENDING n.val = false ∨ k.count ≠ 0
    let inRange : Prop := k.wr < 2 * size ∧ k.rd < 2 * size
    let live : Prop := k.len ≠ 0 ∧ c.chuteRec k = false
    let next := c.arriving.find? (fun a => a.chute == n.val)
    let paired := c.arriving.find? (fun a => a.chute == n.val && a.now)
    let becomes (x : ChuteSt) (t : State) : Prop := t.chip.chute n.val = x
    let drops := F.chute_C_DROPS_WORDS
    let lost (d : Nat) (t : State) : Prop := t.chip.fld drops n.val = min drops.top (c.fld drops n.val + d)
    let returned (v : Nat) (t : State) : Prop := t.chip.out = .readData q (RegName.chute_C_POP.addr n.val 0) v :: c.out
    let gone (d : Nat) (t : State) : Prop := t.chip.fldq q F.chute_REQSTAT_DISCARDED = d % 2 ^ 17
    let empty : Prop := k.len = 0 ∨ c.chuteRec k = true ∨ k.count = 0 ∨ (k.reserved = true ∧ k.rd = k.start)
    let e := c.entry (k.place k.rd)
    let measured (trunc : Bool) (len : Nat) (t : State) : Prop :=
      (t.chip.entry (k.place k.start)).word = lengthWord trunc len
    let fin_ (i : Nat) : Bool := (c.entry (k.place (k.adv k.rd i))).fin
    (sent → Completes (.chutePushWrite q n w) s (fun t =>
      t = { s with chip := { c with arriving := c.arriving ++ [{ chute := n.val, word := w, fin := false }] } })) ∧
    (sent → Completes (.chutePushendWrite q n w) s (fun t =>
      t = { s with chip := { c with arriving := c.arriving ++ [{ chute := n.val, word := w, fin := true }] } })) ∧
    (∀ b, next = none → Completes (.chuteWordArrive ⟨n, b⟩) s (fun t => t = s)) ∧
    (∀ a, next = some a → paired = none →
      Completes (.chuteWordArrive ⟨n, true⟩) s (fun t =>
        t = { s with chip := { c with arriving := { a with now := true } :: c.arriving.erase a } })) ∧
    (∀ a, next = some a → paired = none → steady →
      let arrives (p : State → Prop) : Prop := Completes (.chuteWordArrive ⟨n, false⟩) s (fun t => t.chip.arriving = c.arriving.erase a ∧ p t)
      (¬ live → arrives (fun t => becomes k t ∧ t.chip.pool = c.pool)) ∧
      (live → k.discarding = true →
        arrives (fun t => becomes { k with discarding := !a.fin } t ∧ t.chip.pool = c.pool)) ∧
      (live → k.discarding = false → k.lenMode = false →
        (k.dropping = true →
          arrives (fun t => lost 1 t ∧ becomes { k with dropping := !a.fin, openPkt := false } t ∧ t.chip.pool = c.pool)) ∧
        (k.dropping = false → k.count ≠ size →
          arrives (fun t =>
            t.chip.entry (k.place k.wr) = ⟨a.word, a.fin, k.gap⟩ ∧
              becomes { k with wr := k.adv k.wr 1, gap := false, openPkt := !a.fin
                               start := if k.openPkt = true then k.start else k.wr
                               stored := if a.fin = true then 0 else k.stored + 1 } t)) ∧
        (k.dropping = false → k.count = size → k.openPkt = false →
          arrives (fun t => lost 1 t ∧ becomes { k with gap := true } t ∧ t.chip.pool = c.pool)) ∧
        (k.dropping = false → k.count = size → k.openPkt = true →
          let back := min k.count k.stored
          arrives (fun t =>
            lost (1 + back) t ∧ becomes { k with wr := k.adv k.wr (2 * size - back), dropping := !a.fin
                                                 openPkt := false, gap := true, stored := 0 } t))) ∧
      (live → k.discarding = false → k.lenMode = true → k.openPkt = false →
        (k.count = size →
          arrives (fun t => lost 1 t ∧ becomes { k with dropping := !a.fin, openPkt := !a.fin, gap := true } t)) ∧
        (inRange → k.dropping = false → k.count + 1 < size → a.fin = false →
          arrives (fun t =>
            t.chip.entry (k.place (k.adv k.wr 1)) = ⟨a.word, false, false⟩ ∧
              becomes { k with wr := k.adv k.wr 2, gap := false, openPkt := true, reserved := true, start := k.wr
                               stored := 1 } t))) ∧
      (live → k.discarding = false → k.lenMode = true → k.openPkt = true →
        let ended : ChuteSt := { k with openPkt := false, reserved := false, dropping := false, stored := 0 }
        (k.dropping = false → k.count ≠ size → a.fin = false →
          arrives (fun t =>
            t.chip.entry (k.place k.wr) = ⟨a.word, false, k.gap⟩ ∧
              becomes { k with wr := k.adv k.wr 1, gap := false, stored := k.stored + 1 } t)) ∧
        (k.dropping = false → k.count ≠ size → a.fin = true →
          arrives (fun t =>
            measured false (k.stored + 1) t ∧ becomes { ended with wr := k.adv k.wr 1, gap := false } t)) ∧
        (k.dropping = false → k.count = size → a.fin = false →
          arrives (fun t => lost 1 t ∧ becomes { k with dropping := true, gap := true } t)) ∧
        (k.dropping = false → k.count = size → a.fin = true →
          arrives (fun t => lost 1 t ∧ measured true k.stored t ∧ becomes { ended with gap := true } t)) ∧
        (k.dropping = true → a.fin = false → arrives (fun t => lost 1 t ∧ becomes k t)) ∧
        (k.dropping = true → a.fin = true → k.reserved = true →
          arrives (fun t => lost 1 t ∧ measured true k.stored t ∧ becomes ended t)) ∧
        (k.dropping = true → a.fin = true → k.reserved = false →
          arrives (fun t => lost 1 t ∧ becomes { k with dropping := false, openPkt := false } t)))) ∧
    (up → steady → paired = none →
      (empty → Completes (.chutePopRead q n) s (fun t =>
        returned 0 t ∧ t.chip.fldq q F.chute_REQSTAT_E = 1 ∧ t.chip.chutes = c.chutes)) ∧
      (¬ empty → Completes (.chutePopRead q n) s (fun t =>
        returned e.word.toNat t ∧ t.chip.fldq q F.chute_REQSTAT_E = 0 ∧
          t.chip.fldq q F.chute_REQSTAT_T = b2n e.fin ∧ t.chip.fldq q F.chute_REQSTAT_P = b2n e.gap ∧
          becomes { k with rd := k.adv k.rd 1
                           left := if k.lenMode = false then k.left
                                   else if k.left = 0 then wbits e.word 15 0 else k.left - 1 } t))) ∧
    (∀ a, up → c.flag F.chute_C_CFG_PENDING n.val = false → paired = some a → live → inRange → k.lenMode = false → k.discarding = false →
      k.dropping = false → k.openPkt = false →
      (k.count = 0 → Completes (.chutePopRead q n) s (fun t =>
        returned 0 t ∧ t.chip.fldq q F.chute_REQSTAT_E = 1 ∧ t.chip.entry (k.place k.wr) = ⟨a.word, a.fin, k.gap⟩ ∧
          (t.chip.chute n.val).rd = k.rd ∧ (t.chip.chute n.val).wr = k.adv k.wr 1)) ∧
      (¬ empty → k.count ≤ size → Completes (.chutePopRead q n) s (fun t =>
        returned e.word.toNat t ∧ t.chip.fldq q F.chute_REQSTAT_E = 0 ∧ lost 0 t ∧
          t.chip.entry (k.place k.wr) = ⟨a.word, a.fin, k.gap⟩ ∧
          (t.chip.chute n.val).rd = k.adv k.rd 1 ∧ (t.chip.chute n.val).wr = k.adv k.wr 1))) ∧
    (sent → steady → paired = none →
      (¬ live → Completes (.chuteDroprestWrite q n) s (fun t => gone 0 t ∧ becomes k t)) ∧
      (live → k.lenMode = true → k.left ≠ 0 →
        Completes (.chuteDroprestWrite q n) s (fun t =>
          gone k.left t ∧ becomes { k with rd := k.adv k.rd k.left, left := 0 } t)) ∧
      (live → k.lenMode = true → k.left = 0 → ¬ empty →
        let d := 1 + wbits e.word 15 0
        Completes (.chuteDroprestWrite q n) s (fun t => gone d t ∧ becomes { k with rd := k.adv k.rd d } t)) ∧
      (live → k.lenMode = true → k.left = 0 → empty →
        Completes (.chuteDroprestWrite q n) s (fun t => gone 0 t ∧ becomes k t)) ∧
      (∀ i, live → k.lenMode = false → i < k.count → fin_ i = true → (∀ j, j < i → fin_ j = false) →
        Completes (.chuteDroprestWrite q n) s (fun t => gone (i + 1) t ∧ becomes { k with rd := k.adv k.rd (i + 1) } t)) ∧
      (live → k.lenMode = false → (∀ j, j < k.count → fin_ j = false) →
        Completes (.chuteDroprestWrite q n) s (fun t =>
          gone k.count t ∧ becomes { k with rd := k.wr, discarding := true, dropping := false, openPkt := false } t)))

/-- A write of a chute's CFG is refused with RANGE where its settings do not fit the pool; else they come into force at
once, with pointers and packet state reset, if the chute is empty or FORCE is 1, which drops what it holds; else they wait
until it is empty, and come into force then. In a domain that is recovering the next entry accepted carries GAP (R297, R308,
R309, R311). -/
def Obligations.ChuteSettings : Prop :=
  ∀ (q : Requester) (n : Fin 2048) (w : Word) (s : State),
    -- settings deferred before, of a chute that is empty by now, are in force
    let c := s.chip.settleChute n.val
    let k := c.chute n.val
    let sent : Prop := s.chip.answers q = true ∧ Cells.find? q.idx s.chip.host.held = none
    let v0 := wput w 35 35 0
    let v1 := wput w 35 35 1
    let drops := F.chute_C_DROPS_WORDS
    let inForce (v : Word) (gap : Bool) (t : State) : Prop :=
      t.chip.chute n.val = { len := wbits v 33 30, lenMode := wbit v 29, chDomain := wbit v 28, base := wbits v 27 12
                             gap := gap || (if wbit v 28 = true then s.chip.chanRec else s.chip.fwdRec) } ∧
        t.chip.flag F.chute_C_CFG_PENDING n.val = false ∧ t.chip.fld F.chute_C_PKTS_PACKETS n.val = 0
    let refused (t : State) : Prop :=
      t.chip.fldq q F.chute_REQSTAT_LASTERR = St.RANGE ∧ t.chip.chutes = c.chutes ∧
        t.chip.rd .chute_C_CFG n.val = c.rd .chute_C_CFG n.val
    (sent → c.chuteCfgStatus n.val v0 ≠ St.OK → Completes (.chuteCfgWrite q n w) s refused) ∧
    (sent → c.chuteCfgStatus n.val v1 ≠ St.OK → Completes (.chuteCfgForce q n w) s refused) ∧
    (sent → c.chuteCfgStatus n.val v0 = St.OK →
      (k.count = 0 → Completes (.chuteCfgWrite q n w) s (inForce w k.gap)) ∧
      (k.count ≠ 0 → Completes (.chuteCfgWrite q n w) s (fun t =>
        t.chip.flag F.chute_C_CFG_PENDING n.val = true ∧ t.chip.chutes = c.chutes ∧
          wbits (t.chip.rd .chute_C_CFG n.val) 33 12 = wbits w 33 12))) ∧
    (sent → c.chuteCfgStatus n.val v1 = St.OK →
      Completes (.chuteCfgForce q n w) s (fun t => inForce w true t ∧
        t.chip.fld drops n.val = min drops.top (c.fld drops n.val + k.count))) ∧
    (s.chip.flag F.chute_C_CFG_PENDING n.val = true → (s.chip.chute n.val).count = 0 →
      Completes (.chuteCfgApply n) s (inForce (s.chip.rd .chute_C_CFG n.val) (s.chip.chute n.val).gap)) ∧
    (s.chip.flag F.chute_C_CFG_PENDING n.val = false ∨ (s.chip.chute n.val).count ≠ 0 →
      Completes (.chuteCfgApply n) s (fun t => t = s))

/-! ## The Flume and the Boom (R312 to R358) -/

/-- The commands on the flow table and on the IPv6 table: each reports the status of its checks, of which an unreadable
bucket comes first (R39); an accepted INSERT writes its entry to a free place of its two buckets and nothing else, DELETE
clears the entry, MODIFY replaces its action words, LOOKUP copies it (R317, R323, R324). -/
def Obligations.FlowTableCommands : Prop :=
  ∀ (q : Requester) (i : Fin 65536) (s : State), s.chip.answers q = true → Cells.find? q.idx s.chip.host.held = none →
    let c := s.chip
    let w := c.fstage q
    let key := w.take 5
    let answered (st : Nat) (t : State) : Prop :=
      t.chip.fldq q F.flume_FCMDSTAT_STATUS = st ∧ t.chip.fldq q F.flume_FCMDSTAT_BUSY = 0
    let refused (st : Nat) (t : State) : Prop := answered st t ∧ t.chip.dram = c.dram ∧ t.chip.flume.v6 = c.flume.v6
    let entries (t : State) : Nat := t.chip.fld F.flume_FTCOUNT_ENTRIES
    let found := c.findEntry key
    (c.tableOk key = true → ∀ st, c.checkEntry w = st → st ≠ St.OK →
      Completes (.flowInsert q) s (refused st) ∧ Completes (.flowModify q) s (refused st)) ∧
    (c.tableOk key = false →
      Completes (.flowInsert q) s (refused St.UNCORR) ∧ Completes (.flowModify q) s (refused St.UNCORR) ∧
      Completes (.flowDelete q) s (refused St.UNCORR) ∧ Completes (.flowLookup q) s (refused St.UNCORR)) ∧
    (c.tableOk key = true → found = none →
      Completes (.flowDelete q) s (refused St.NOTREADY) ∧ Completes (.flowLookup q) s (refused St.NOTREADY) ∧
      (c.checkEntry w = St.OK → Completes (.flowModify q) s (refused St.NOTREADY)) ∧
      (c.checkEntry w = St.OK → (∃ a ∈ c.entryAddrs key, wbit (c.word a) 35 = false) →
        Completes (.flowInsert q) s (fun t => answered St.OK t ∧ entries t = (entries s + 1) % 2 ^ 25 ∧
          ∃ a ∈ c.entryAddrs key, wbit (c.word a) 35 = false ∧ t.chip.words a 8 = w ∧
            ∀ b, b < a ∨ a + 8 ≤ b → t.chip.word b = c.word b)) ∧
      (c.checkEntry w = St.OK → (∀ a ∈ c.entryAddrs key, wbit (c.word a) 35 = true) →
        Completes (.flowInsert q) s (refused St.QUOTA))) ∧
    (∀ a, c.tableOk key = true → found = some a →
      (c.checkEntry w = St.OK → Completes (.flowInsert q) s (refused St.BUSY)) ∧
      Completes (.flowDelete q) s (fun t => answered St.OK t ∧ entries t = entries s - 1 ∧
        t.chip.words a 8 = List.replicate 8 0 ∧ ∀ b, b < a ∨ a + 8 ≤ b → t.chip.word b = c.word b) ∧
      Completes (.flowLookup q) s (fun t => answered St.OK t ∧ t.chip.dram = c.dram ∧
        ∀ j, j < 8 → t.chip.rdq q .flume_FREAD j = c.word (a + j)) ∧
      (c.checkEntry w = St.OK →
        Completes (.flowModify q) s (fun t => answered St.OK t ∧ t.chip.words (a + 5) 3 = (w.drop 5).take 3 ∧
          ∀ b, b < a + 5 ∨ a + 8 ≤ b → t.chip.word b = c.word b))) ∧
    (i.val ≠ 0xFFFF → (∀ x ∈ c.flume.v6, x.2 = c.v6stage q → x.1 = i.val) →
      Completes (.v6set q i) s (fun t => answered St.OK t ∧ Cells.find? i.val t.chip.flume.v6 = some (c.v6stage q))) ∧
    (i.val = 0xFFFF → Completes (.v6set q i) s (refused St.RANGE)) ∧
    (i.val ≠ 0xFFFF → (∃ x ∈ c.flume.v6, x.2 = c.v6stage q ∧ x.1 ≠ i.val) → Completes (.v6set q i) s (refused St.BUSY)) ∧
    (Cells.find? i.val c.flume.v6 ≠ none →
      Completes (.v6clear q i) s (fun t => answered St.OK t ∧ Cells.find? i.val t.chip.flume.v6 = none)) ∧
    (Cells.find? i.val c.flume.v6 = none → Completes (.v6clear q i) s (refused St.NOTREADY))

/-- The way of a frame: octets of a frame that is not yet long enough wait at its port; a frame that ends well is classified
in order behind those that wait; a missed lookup takes its entry from the table or drops the frame; the head of a queue
stays launched and started once it is; a port's selection takes the head of the queue that DWRR picks, hands it to its
internal port or begins its transmission, and a port whose link is down discards it; and a transmission ends with the FCS of
the octets sent (R25, R321 to R329, R344 to R350). -/
def Obligations.FrameForwarding : Prop :=
  ∀ (p : Fin 64) (n : Fin 131072) (e : Fin 67) (octets : List Octet) (phyErr : Bool) (s : State),
    let c := s.chip
    let f0 (id : Nat) (t : State) : Option FrameSt := Cells.find? id t.chip.flume.frames
    let rx (t : State) : Option RxSt := Cells.find? p.val t.chip.flume.rx
    let waits (i : Nat) (t : State) : List Nat := Cells.get [] i t.chip.flume.waiting
    let up : Prop := c.live = true ∧ c.linkUp p.val = true ∧ c.fwdRec = false
    (c.live = false ∨ c.linkUp p.val = false →
      ∀ last, Completes (.frameReceive p octets last phyErr) s (fun t => t = s)) ∧
    (up → rx s = none → octets.length < 132 →
      Completes (.frameReceive p octets false phyErr) s (fun t =>
        rx t = some { data := octets, inCount := c.count, inTime := c.now } ∧ t.chip.flume.frames = c.flume.frames)) ∧
    (up → rx s = none → (c.rxRow p.val octets phyErr = 1 ∨ c.rxRow p.val octets phyErr = 3 ∨ c.rxRow p.val octets phyErr = 4) →
      Completes (.frameReceive p octets true phyErr) s (fun t =>
        rx t = none ∧ t.chip.flume.frames = c.flume.frames ∧ t.chip.flume.waiting = c.flume.waiting)) ∧
    (∀ id rest f, up → rx s = none → waits p.val s = id :: rest → f0 id s = some f → f.missed = true → f.act = none →
      id ≠ c.flume.next → 64 ≤ octets.length → c.macRefuses p.val octets = false →
      c.rxRow p.val octets phyErr ≠ 1 → c.rxRow p.val octets phyErr ≠ 3 → c.rxRow p.val octets phyErr ≠ 4 →
      Completes (.frameReceive p octets true phyErr) s (fun t =>
        rx t = none ∧ waits p.val t = waits p.val s ++ [c.flume.next] ∧
          f0 c.flume.next t = some { src := p.val, data := octets.take (octets.length - 4), inCount := c.count
                                     inTime := c.now })) ∧
    (∀ f : FrameSt, f = { src := p.val, data := octets.take (octets.length - 4), inCount := c.count, inTime := c.now } →
      up → rx s = none → waits p.val s = [] → c.rxRow p.val octets phyErr = 7 → c.macRefuses p.val octets = false →
      c.cached (c.keyOf f) = none →
      Completes (.frameReceive p octets true phyErr) s (fun t =>
        rx t = none ∧ waits p.val t = [c.flume.next] ∧ f0 c.flume.next t = some { f with missed := true })) ∧
    (∀ id f, waits e.val s = [id] → f0 id s = some f → f.missed = true →
      let key := c.keyOf f
      (c.tableOk key = false →
        Completes (.flowCacheMissComplete e) s (fun t => f0 id t = none ∧ waits e.val t = [])) ∧
      (∀ a, c.tableOk key = true → c.matched f (c.tableAct key) = some a → wbit (a.getD 1 0) 34 = true → f.whole = false →
        Completes (.flowCacheMissComplete e) s (fun t =>
          f0 id t = some { f with act := some a, entry := true, missed := false } ∧ waits e.val t = [id])) ∧
      (∀ a, c.tableOk key = true → c.matched f (c.tableAct key) = some a → wbit (a.getD 1 0) 34 = false →
        c.fld F.time_TC_PORT_MODE f.src ≠ 2 → c.base ≠ Md.TEST →
        let svc := wbits (a.getD 0 0) 32 18
        let n := 4 * svc + wbits (a.getD 0 0) 17 16
        (wbits (a.getD 0 0) 35 33 = 0 →
          Completes (.flowCacheMissComplete e) s (fun t => f0 id t = none ∧ waits e.val t = [])) ∧
        (∀ id0 r g, wbits (a.getD 0 0) 35 33 = 1 → c.flag F.boom_SVC_CFG_EN svc = true → c.svcPort svc < 64 →
          f.whole = true → c.queue n = id0 :: r → f0 id0 s = some g → g.judged = true → id0 ≠ id →
          ceilDiv f.have 256 ≤ c.fld F.flume_BUFFREE_CELLS →
          c.fld F.boom_Q_STAT_OCC n + ceilDiv (c.lenAt (c.svcPort svc) f) 256 ≤ c.fld F.boom_Q_CFG_LIMIT n →
          Completes (.flowCacheMissComplete e) s (fun t =>
            t.chip.queue n = c.queue n ++ [id] ∧ waits e.val t = [] ∧
              ∃ x, f0 id t = some x ∧ x.data = f.data ∧ x.q = n ∧ x.stored = true)))) ∧
    (waits e.val s = [] → Completes (.flowCacheMissComplete e) s (fun t => t = s)) ∧
    (∀ id rest f, c.queue n.val = id :: rest → f0 id s = some f →
      (f.judged = true → f.launch ≠ none → c.launchMet f = true →
        Completes (.launchTimeReached n) s (fun t => f0 id t = some { f with reached := true })) ∧
      (f.judged = false ∨ f.launch = none ∨ c.launchMet f = false →
        Completes (.launchTimeReached n) s (fun t => t = s)) ∧
      (c.cutMet (c.svcPort (n.val / 4)) f = true →
        Completes (.cutThroughThreshold n) s (fun t => f0 id t = some { f with ready := true })) ∧
      (c.cutMet (c.svcPort (n.val / 4)) f = false → Completes (.cutThroughThreshold n) s (fun t => t = s))) ∧
    (c.live = false ∨ c.fwdRec = true → Completes (.boomSelect e) s (fun t => t = s)) ∧
    (∀ id f t0 outer inner, c.live = true → c.fwdRec = false → 64 ≤ e.val → (c.portTx e.val).busy ≤ c.count →
      c.shaperOpen .port e.val = true →
      c.pickQueue e.val (c.selectable e.val false) = some (n.val, t0, outer, inner) → c.queue n.val = [id] → f0 id s = some f →
      Completes (.boomSelect e) s (fun t =>
        t.chip.queue n.val = [] ∧ f0 id t = none ∧ c.count < (t.chip.portTx e.val).busy ∧
          (e.val = 66 → t.chip.flume.toHost = c.flume.toHost ++ [⟨f.dest, f.src, f.data, f.inTime, false⟩]) ∧
          (e.val = 65 → c.chanRec = false → t.chip.flume.toChan = c.flume.toChan ++ [⟨f.dest, f.src, f.data, f.inTime, false⟩]) ∧
          (e.val = 64 → t.chip.flume.toCtl = c.flume.toCtl ++ [⟨0, f.src, f.data, f.inTime, f.entry && decide (f.src < 64)⟩]))) ∧
    (∀ id f t0 outer inner, c.live = true → c.fwdRec = false → e.val < 64 → (c.portTx e.val).cur = none →
      (c.portTx e.val).held = none → c.linkUp e.val = true → c.shaperOpen .port e.val = true →
      (c.settleGates e.val).dropGated e.val = c →
      c.pickQueue e.val (c.selectable e.val false) = some (n.val, t0, outer, inner) → c.queue n.val = [id] → f0 id s = some f →
      Completes (.boomSelect e) s (fun t =>
        t.chip.queue n.val = [] ∧ (∃ g, f0 id t = some g ∧ g.begun = true) ∧
          ∃ x, (t.chip.portTx e.val).cur = some x ∧ x.frame = id ∧ x.start = c.count ∧ x.before = 0)) ∧
    (∀ id f t0 outer inner, c.live = true → c.fwdRec = false → e.val < 64 → (c.portTx e.val).cur = none →
      (c.portTx e.val).held = none → c.linkUp e.val = false → (c.portTx e.val).busy ≤ c.count →
      c.shaperOpen .port e.val = true → (c.settleGates e.val).dropGated e.val = c →
      c.pickQueue e.val (c.selectable e.val false) = some (n.val, t0, outer, inner) → c.queue n.val = [id] → f0 id s = some f →
      Completes (.boomSelect e) s (fun t =>
        t.chip.queue n.val = [] ∧ f0 id t = none ∧ (t.chip.portTx e.val).cur = none)) ∧
    (∀ x f, e.val < 64 → (c.portTx e.val).cur = some x → (c.portTx e.val).held = none → f0 x.frame s = some f →
      f.whole = true → c.lenAt e.val f ≤ c.maxLen e.val →
      Completes (.frameTransmitEnd e) s (fun t =>
        let sent := applyFix f.data f.fix
        let body := sent ++ List.replicate (60 - sent.length) 0
        t.chip.out.head? = some (.frameOut e.val (body ++ fcsOctets (crc32 body)) true) ∧
          (t.chip.portTx e.val).cur = none ∧ f0 x.frame t = none)) ∧
    (∀ x f, (c.portTx e.val).cur = some x → f0 x.frame s = some f → f.whole = false →
      Completes (.frameTransmitEnd e) s (fun t => t = s)) ∧
    ((c.portTx e.val).cur = none → Completes (.frameTransmitEnd e) s (fun t => t = s))

/-- Gate lists and the Boom's settings: a change waits for its start instant, at which the two lists change places, and
ABORT cancels it; a shaper or policer takes its burst and rate with its tokens full or empty; a quota, a tenant and a
service take what is written, or it is refused with the status of its check (R333 to R337, R342, R351 to R357). -/
def Obligations.GatesAndShapers : Prop :=
  ∀ (q : Requester) (p : Fin 64) (tn : Fin 4096) (sv : Fin 32768) (pl : Fin 65536) (node : ShaperNode) (w : Word)
    (s : State),
    let c := s.chip
    let sent : Prop := c.answers q = true ∧ Cells.find? q.idx c.host.held = none
    let cycle := c.fld F.flume_PORT_GT3_CYCLE p.val
    let bad : Prop := cycle < 1000 ∨ 1000000000 < cycle ∨ 1024 < wbits w 10 0
    let adminLen := c.fld F.flume_PORT_GCTRL_ADMINLEN p.val
    let operLen := c.fld F.flume_PORT_GCTRL_OPERLEN p.val
    let pending (t : State) : Bool := t.chip.gatePending p.val
    let boom (st : Nat) (t : State) : Prop := t.chip.fldq q F.boom_REQSTAT_LASTERR = st ∧ t.chip.regs = c.regs
    let b := wbits w 34 30
    let kind : TokKind × RegName × Nat := match node with
      | .port x => (.port, .boom_PORT_SHAPER, x.val)
      | .tenant x => (.tenant, .boom_TEN_SHAPER, x.val)
      | .service x => (.service, .boom_SVC_SHAPER, x.val)
    let quota : Nat := match node with
      | .port _ => maxKbps
      | .tenant x => c.fld F.boom_TEN_BQUOTA_KBPS x.val
      | .service x => c.fld F.boom_TEN_BQUOTA_KBPS (c.svcTenant x.val)
    let loaded (k : TokKind) (r : RegName) (i : Nat) (t : State) : Prop :=
      t.chip.rd r i = BitVec.ofNat 36 (b * 2 ^ 30 + wbits w 28 0) ∧
        Cells.find? (k.key i) t.chip.flume.toks = some
          { t := if wbit w 35 = true then (((if b = 0 then 0 else 2 ^ b) * 10000000 : Nat) : Int) else 0, at_ := c.count }
    let port := wbits w 33 27
    let tenOn := c.flag F.boom_TEN_CFG_EN tn.val
    let tenHeld : Prop := (port ≠ c.tenPort tn.val ∧ (tenOn = true ∨ c.flag F.boom_TEN_CFG_DRAINED tn.val = false)) ∨
      (tenOn = true ∧ wbit w 35 = false ∧ c.tenantNamed tn.val = true)
    let svcHeld : Prop := wbits w 33 22 ≠ c.svcTenant sv.val ∧
      (c.flag F.boom_SVC_CFG_EN sv.val = true ∨ c.flag F.boom_SVC_CFG_DRAINED sv.val = false)
    let idleTenant : Prop := wbit w 35 = true ∧ c.flag F.boom_TEN_CFG_EN (wbits w 33 22) = false
    (sent →
      (bad → Completes (.gateChangeRequest q p w) s (fun t =>
        t.chip.fldq q F.flume_FCMDSTAT_LASTERR = St.RANGE ∧ t.chip.regs = c.regs)) ∧
      (¬ bad → pending s = false →
        Completes (.gateChangeRequest q p w) s (fun t => pending t = true ∧
          (t.chip.gate p.val).pend = some (gateStart (c.adminBase p.val) cycle c.now, c.adminBase p.val) ∧
          t.chip.fld F.flume_PORT_GCTRL_ADMINLEN p.val = wbits w 10 0 ∧
          t.chip.fld F.flume_PORT_GCTRL_DEFGATES p.val = wbits w 32 25)) ∧
      (¬ bad → pending s = true →
        Completes (.gateChangeRequest q p w) s (fun t => pending t = !wbit w 34 ∧
          t.chip.fldq q F.flume_FCMDSTAT_LASTERR = St.BUSY ∧
          t.chip.fld F.flume_PORT_GCTRL_DEFGATES p.val = wbits w 32 25 ∧
          (t.chip.gate p.val).pend = if wbit w 34 = true then none else (c.gate p.val).pend)) ∧
      (pending s = true →
        Completes (.gateChangeAbort q p (wput w 35 35 0)) s (fun t => pending t = false ∧
          (t.chip.gate p.val).pend = none ∧ (t.chip.gate p.val).start = (c.gate p.val).start ∧
          t.chip.fld F.flume_PORT_GCTRL_DEFGATES p.val = wbits w 32 25)) ∧
      (pending s = false →
        Completes (.gateChangeAbort q p (wput w 35 35 0)) s (fun t => pending t = false ∧
          t.chip.gate p.val = c.gate p.val ∧ t.chip.fld F.flume_PORT_GCTRL_ADMINLEN p.val = wbits w 10 0 ∧
          t.chip.fld F.flume_PORT_GCTRL_DEFGATES p.val = wbits w 32 25))) ∧
    (∀ st base, (c.gate p.val).pend = some (st, base) →
      (st * 65536 ≤ c.now →
        Completes (.gateListExchange p) s (fun t => pending t = false ∧ (t.chip.gate p.val).start = st ∧
          (t.chip.gate p.val).pend = none ∧ t.chip.fld F.flume_PORT_GT7_OPERCYCLE p.val = cycle ∧
          t.chip.fld F.flume_PORT_GCTRL_OPERLEN p.val = adminLen ∧ t.chip.fld F.flume_PORT_GCTRL_ADMINLEN p.val = operLen ∧
          (adminLen ≤ 1024 → operLen ≤ 1024 → ∀ i, i < max adminLen operLen →
            t.chip.rd .flume_GCL_OPER p.val i = c.rd .flume_GCL_ADMIN p.val i ∧
              t.chip.rd .flume_GCL_ADMIN p.val i = c.rd .flume_GCL_OPER p.val i))) ∧
      (c.now < st * 65536 → Completes (.gateListExchange p) s (fun t => t = s))) ∧
    ((c.gate p.val).pend = none → Completes (.gateListExchange p) s (fun t => t = s)) ∧
    ((c.gate p.val).pend = none → (c.portTx p.val).cur = none → (c.portTx p.val).held = none →
      Completes (.gateIntervalEnd p) s (fun t =>
        (t.chip.gate p.val) = { c.gate p.val with states := c.gatesAt p.val c.now } ∧ t.chip.regs = c.regs)) ∧
    (∀ x f b, (c.gate p.val).pend = none → (c.portTx p.val).cur = some x → (c.portTx p.val).held = none →
      c.frame x.frame = some f → x.pre = true → c.preVerified p.val = true → c.gateOpen p.val f.cls c.now = false →
      c.closingBoundary p.val x f = some b →
      Completes (.gateIntervalEnd p) s (fun t =>
        (t.chip.portTx p.val).cur = none ∧ (t.chip.portTx p.val).held = some (x.frame, b) ∧
          (t.chip.gate p.val).states = c.gatesAt p.val c.now)) ∧
    (sent →
      (1 ≤ b ∧ b ≤ 5 ∨ 25 ≤ b ∨ maxKbps < wbits w 28 0 →
        Completes (.shaperWrite q node w) s (boom St.RANGE) ∧ Completes (.policerCfgWrite q pl w) s (boom St.RANGE)) ∧
      ((b = 0 ∨ 6 ≤ b) → b < 25 → wbits w 28 0 ≤ maxKbps →
        let short : Prop := quota < wbits w 28 0 ∨ ((∃ x, node = .tenant x) ∧ b = 0 ∧ quota < maxKbps)
        Completes (.policerCfgWrite q pl w) s (loaded .policer .boom_POL_CFG pl.val) ∧
        (¬ short → Completes (.shaperWrite q node w) s (loaded kind.1 kind.2.1 kind.2.2)) ∧
        (short → Completes (.shaperWrite q node w) s (boom St.QUOTA))) ∧
      (wbits w 28 0 ≤ maxKbps →
        Completes (.bquotaWrite q tn w) s (fun t => t.chip.fld F.boom_TEN_BQUOTA_KBPS tn.val = wbits w 28 0 ∧
          (c.fld F.boom_TEN_SHAPER_BCODE tn.val = 0 → maxKbps ≤ c.fld F.boom_TEN_BQUOTA_KBPS tn.val →
            wbits w 28 0 < maxKbps → Cells.find? (TokKind.tenant.key tn.val) t.chip.flume.toks =
              some { t := ((2 ^ 14 * 10000000 : Nat) : Int), at_ := c.count }))) ∧
      (maxKbps < wbits w 28 0 → Completes (.bquotaWrite q tn w) s (boom St.RANGE)) ∧
      (66 < port → Completes (.tenantCfgWrite q tn w) s (boom St.RANGE)) ∧
      (port ≤ 66 → tenHeld → Completes (.tenantCfgWrite q tn w) s (boom St.BUSY)) ∧
      (port ≤ 66 → ¬ tenHeld →
        Completes (.tenantCfgWrite q tn w) s (fun t =>
          t.chip.fld F.boom_TEN_CFG_EN tn.val = wbits w 35 35 ∧ t.chip.fld F.boom_TEN_CFG_PORT tn.val = port ∧
            t.chip.fld F.boom_TEN_CFG_WEIGHT tn.val = wbits w 26 19)) ∧
      (idleTenant → Completes (.serviceCfgWrite q sv w) s (boom St.NOTREADY)) ∧
      (¬ idleTenant → svcHeld → Completes (.serviceCfgWrite q sv w) s (boom St.BUSY)) ∧
      (¬ idleTenant → ¬ svcHeld →
        Completes (.serviceCfgWrite q sv w) s (fun t =>
          t.chip.fld F.boom_SVC_CFG_EN sv.val = wbits w 35 35 ∧ t.chip.fld F.boom_SVC_CFG_TENANT sv.val = wbits w 33 22 ∧
            t.chip.fld F.boom_SVC_CFG_WEIGHT sv.val = wbits w 21 14)))

/-! ## The Ethernet ports (R359 to R381) -/

/-- The link of a port: enabled after its checks and acquiring, UP once its lanes align without a fault, in FAULT while one
stands, and back; disabling or a lost lane ends what it sends (R360 to R366, R373). -/
def Obligations.PortLinks : Prop :=
  ∀ (q : Requester) (p : Fin 64) (w : Word) (skew : Nat) (hiber loc rem : Bool) (locks : BitVec 8) (s : State),
    let c := s.chip
    let link (t : State) : Nat := t.chip.fld F.mac_LINK_STATE p.val
    let m := portMode (c.fld F.mac_CFG_MODE p.val)
    let fault : Bool := hiber || loc || rem
    let event (bit : Nat) (t : State) : Prop := (t.chip.rd .mac_EVENT p.val).getLsbD bit = true
    let up (t : State) : Prop := link t = 3 ∧ event 0 t ∧
      t.chip.fld F.mac_TSLAT_RXLAT p.val = (16 * m.2.2.1 + if m.1 ≤ 1 then 0 else skew) % 2 ^ 18 ∧
      t.chip.fld F.mac_TSLAT_TXLAT p.val = 16 * m.2.2.2 % 2 ^ 18
    (c.answers q = true → Cells.find? q.idx c.host.held = none →
      (∀ st, c.checkMacCfg p.val (wput w 35 35 1) = st → st ≠ St.OK →
        Completes (.portEnable q p w) s (fun t => t.chip.fldq q F.mac_REQSTAT_LASTERR p.val = st ∧ t.chip.regs = c.regs)) ∧
      (c.portOn p.val = false → c.checkMacCfg p.val (wput w 35 35 1) = St.OK → c.live = true →
        Completes (.portEnable q p w) s (fun t => t.chip.portOn p.val = true ∧ link t = 1 ∧
          t.chip.fld F.mac_CFG_MODE p.val = wbits w 34 31 ∧ t.chip.fld F.mac_CFG_MAXLEN p.val = wbits w 30 16)) ∧
      (c.portOn p.val = true → c.checkMacCfg p.val (wput w 35 35 1) = St.OK →
        Completes (.portEnable q p w) s (fun t => t.chip.portOn p.val = true ∧ link t = link s)) ∧
      (∀ st, c.checkMacCfg p.val (wput w 35 35 0) = st → st ≠ St.OK →
        Completes (.portDisable q p w) s (fun t => t.chip.fldq q F.mac_REQSTAT_LASTERR p.val = st ∧ t.chip.regs = c.regs)) ∧
      (c.portOn p.val = false →
        Completes (.portDisable q p w) s (fun t => t.chip.portOn p.val = false ∧ link t = link s ∧
          t.chip.fld F.mac_CFG_MODE p.val = wbits w 34 31 ∧ t.chip.fld F.mac_CFG_MAXLEN p.val = wbits w 30 16)) ∧
      (c.portOn p.val = true → wbits w 34 16 = wbits (c.rd .mac_CFG p.val) 34 16 →
        Completes (.portDisable q p w) s (fun t => t.chip.portOn p.val = false ∧ link t = 0 ∧
          t.chip.fld F.mac_LINK_LFAULT p.val = 0 ∧ t.chip.fld F.mac_LINK_RFAULT p.val = 0)) ∧
      Completes (.ctadaptClear q p) s (fun t =>
        t.chip.fld F.mac_CTADAPT_UINC p.val = 0 ∧ t.chip.fld F.mac_CTADAPT_CLEAN p.val = 0 ∧
          t.chip.fld F.flume_PORT_CUT_CTEFF p.val = c.fld F.flume_PORT_CUT_CTSTART p.val)) ∧
    (link s = 1 → fault = false → Completes (.linkAligned p skew hiber loc rem) s up) ∧
    (link s = 1 → fault = true →
      Completes (.linkAligned p skew hiber loc rem) s (fun t => link t = 2 ∧ t.chip.fld F.mac_LINK_HIBER p.val = b2n hiber ∧
        t.chip.fld F.mac_LINK_LFAULT p.val = b2n (hiber || loc) ∧ t.chip.fld F.mac_LINK_RFAULT p.val = b2n rem)) ∧
    (link s ≠ 1 → Completes (.linkAligned p skew hiber loc rem) s (fun t => t = s)) ∧
    (link s = 2 → Completes (.linkFaultClear p skew) s up) ∧
    (link s ≠ 2 → Completes (.linkFaultClear p skew) s (fun t => t = s)) ∧
    (link s = 3 → fault = true → Completes (.linkFault p hiber loc rem) s (fun t => link t = 2 ∧ event 2 t)) ∧
    (link s ≠ 3 ∨ fault = false → Completes (.linkFault p hiber loc rem) s (fun t => t = s)) ∧
    (link s = 2 ∨ link s = 3 →
      Completes (.linkAlignmentLost p locks) s (fun t => link t = 1 ∧ (link s = 3 → event 1 t))) ∧
    (link s ≠ 2 → link s ≠ 3 → Completes (.linkAlignmentLost p locks) s (fun t => t = s))

/-- Preemption and underruns: enabling it on an UP port begins verification, whose timer sends three verify mPackets and
then fails, and a respond mPacket ends it; a verify mPacket is answered; fragments are joined while their counts follow; an
underrun ends the frame with an inverted FCS and raises UINC (R372 to R377). -/
def Obligations.PreemptionAndUnderrun : Prop :=
  ∀ (q : Requester) (p : Fin 64) (w : Word) (start : Bool) (count : Fin 4) (octets : List Octet) (s : State),
    let c := s.chip
    let vstate (t : State) : Nat := t.chip.fld F.mac_PREEMPT_VSTATE p.val
    let on : Prop := c.flag F.mac_PREEMPT_EN p.val = true
    let up : Prop := c.live = true ∧ c.linkUp p.val = true
    let full : Bool := decide (ceilDiv (c.maxLen p.val) 64 ≤
      c.fld F.flume_PORT_CUT_CTSTART p.val + c.fld F.mac_CTADAPT_UINC p.val)
    let until_ (t : State) : Nat := Cells.get 0 p.val t.chip.flume.verifyBy
    let tries (t : State) : Nat := Cells.get 0 p.val t.chip.flume.verified
    let joining (t : State) : Option AsmSt := Cells.find? p.val t.chip.flume.asm
    let event (bit : Nat) (t : State) : Prop := (t.chip.rd .mac_EVENT p.val).getLsbD bit = true
    let raised (k : Nat) (t : State) : Prop :=
      (t.chip.rd .mac_STAT p.val k).toNat = ((c.rd .mac_STAT p.val k).toNat + 1) % 2 ^ 36
    let body (f : FrameSt) : List Octet := (applyFix f.data f.fix).take f.have
    (c.answers q = true → Cells.find? q.idx c.host.held = none →
      (wbits w 29 23 ≠ 0 →
        Completes (.preemptEnable q p w) s (fun t => t.chip.flag F.mac_PREEMPT_EN p.val = true ∧
          t.chip.fld F.mac_PREEMPT_PMASK p.val = wbits w 22 15 ∧
          (¬ on → c.linkUp p.val = true → vstate s = 0 → vstate t = 1 ∧ tries t = 1 ∧ .mPacket p.val false ∈ t.chip.out ∧
            until_ t = c.count + wbits w 29 23 * countsPerMs) ∧
          (on ∨ c.linkUp p.val = false ∨ vstate s ≠ 0 → vstate t = vstate s ∧ t.chip.flume = c.flume))) ∧
      (wbits w 29 23 = 0 → Completes (.preemptEnable q p w) s (fun t =>
        t.chip.regs = c.regs ∧ t.chip.fldq q F.mac_REQSTAT_LASTERR p.val = St.RANGE))) ∧
    (vstate s = 1 → until_ s ≤ c.count →
      (tries s < 3 → Completes (.verifyTimerExpiry p) s (fun t => tries t = tries s + 1 ∧ .mPacket p.val false ∈ t.chip.out ∧
        until_ t = c.count + c.fld F.mac_PREEMPT_VERIFYMS p.val * countsPerMs)) ∧
      (3 ≤ tries s → Completes (.verifyTimerExpiry p) s (fun t => vstate t = 3 ∧ event 4 t))) ∧
    (vstate s ≠ 1 ∨ c.count < until_ s → Completes (.verifyTimerExpiry p) s (fun t => t = s)) ∧
    (up → on → Completes (.verifyMpacketReceived p) s (fun t => .mPacket p.val true ∈ t.chip.out ∧ raised 20 t)) ∧
    (up → ¬ on → Completes (.verifyMpacketReceived p) s (raised 19)) ∧
    (up → on → vstate s = 1 → Completes (.respondMpacketReceived p) s (fun t => vstate t = 2 ∧ event 3 t ∧ raised 20 t)) ∧
    (up → on → vstate s ≠ 1 → Completes (.respondMpacketReceived p) s (fun t => vstate t = vstate s ∧ raised 20 t)) ∧
    (up → ¬ on → Completes (.respondMpacketReceived p) s (raised 19)) ∧
    (up → on →
      (joining s = none →
        Completes (.fragmentReceived p true count octets false true) s (fun t =>
          joining t = some { data := octets, inCount := c.count, inTime := c.now, count := 0 })) ∧
      (∀ a, joining s = some a → count.val = a.count →
        Completes (.fragmentReceived p false count octets false true) s (fun t =>
          joining t = some { a with data := a.data ++ octets, count := (a.count + 1) % 4 } ∧ raised 18 t)) ∧
      (∀ a fin ok, joining s = some a → count.val ≠ a.count →
        Completes (.fragmentReceived p false count octets fin ok) s (fun t =>
          joining t = none ∧ raised 18 t ∧ raised 19 t)) ∧
      (∀ a fin ok, joining s = some a →
        Completes (.fragmentReceived p true count octets fin ok) s (fun t => joining t = none ∧ raised 19 t)) ∧
      (∀ fin ok, joining s = none →
        Completes (.fragmentReceived p false count octets fin ok) s (fun t =>
          joining t = none ∧ raised 18 t ∧ raised 19 t)) ∧
      (∀ ok, Completes (.fragmentReceived p start count octets true ok) s (fun t => joining t = none)) ∧
      Completes (.fragmentReceived p start count octets false false) s (fun t => joining t = none ∧ raised 19 t)) ∧
    (∀ fin ok, up → ¬ on → Completes (.fragmentReceived p start count octets fin ok) s (raised 19)) ∧
    (∀ fin ok, ¬ up →
      Completes (.fragmentReceived p start count octets fin ok) s (fun t => t = s) ∧
        Completes (.verifyMpacketReceived p) s (fun t => t = s) ∧
        Completes (.respondMpacketReceived p) s (fun t => t = s)) ∧
    (∀ x f, (c.portTx p.val).cur = some x → (c.portTx p.val).held = none → Cells.find? x.frame c.flume.frames = some f →
      (f.whole = false →
        Completes (.txUnderrun p) s (fun t => (t.chip.portTx p.val).cur = none ∧
          .frameOut p.val (body f ++ fcsOctets (0xFFFFFFFF - crc32 (body f))) false ∈ t.chip.out ∧
          t.chip.fld F.mac_CTADAPT_CLEAN p.val = 0 ∧ raised 37 t ∧
          t.chip.fld F.mac_CTADAPT_UINC p.val = if full = true then c.fld F.mac_CTADAPT_UINC p.val
            else min F.mac_CTADAPT_UINC.top (c.fld F.mac_CTADAPT_UINC p.val + 1))) ∧
      (f.whole = true → Completes (.txUnderrun p) s (fun t => t = s))) ∧
    ((c.portTx p.val).cur = none → Completes (.txUnderrun p) s (fun t => t = s))

/-! ## Hedgerow segments (R387 to R396) -/

/-- A segment: enabled into ROLLCALL, brought to SERVICE at a cycle start once its first round has ended, brought back by a
recall and to OFF by a disable; each cycle begins with TIME, as soon as the gap after the last frame on the wire allows; a
poll ends in its REPLY or in a miss; a DOWN entry is enabled when its checks pass (R388 to R392, Table 15.2). -/
def Obligations.HedgerowStates : Prop :=
  ∀ (q : Requester) (n i : Fin 24) (w : Word) (octets : List Octet) (s : State),
    let c := s.chip
    let h := c.hedge n.val
    let after (t : State) : HedgeSt := t.chip.hedge n.val
    let state (t : State) : Nat := t.chip.segState n.val
    let cfg (t : State) : Word := t.chip.rd .hedge_SEG_CFG n.val
    let still : Prop := h.cur = none
    let cyc := hgCycle c.mt
    let en := c.flag F.hedge_SEG_CFG_EN n.val
    let counted (k : Nat) (t : State) : Prop := t.chip.fld F.hedge_SEG_CNT_COUNT n.val k =
      min F.hedge_SEG_CNT_COUNT.top (c.fld F.hedge_SEG_CNT_COUNT n.val k + 1)
    let lastErr (st : Nat) (t : State) : Prop := t.chip.fld F.hedge_SEG_STAT_LASTERR n.val = st
    let down (t : State) : Word := t.chip.rd .hedge_SEG_DOWN n.val i.val
    let bad : Nat := St.pick [St.when (wbits w 34 30 == 0 || decide (23 < wbits w 29 25)) St.RANGE,
      c.readerStatus (wbits w 23 12) (if wbit w 24 = true then 192 + c.blockB else 240 + c.blockB)]
    let downStatus : Nat :=
      St.pick [bad, St.when (state s == 2 && decide (24 < c.hgUnits n.val + downUnits w)) St.QUOTA]
    let received (v : Instr) : Prop := v = .hgReplyReceived n octets ∨ v = .hgAudioReceived n octets ∨
      v = .hgControlReceived n octets ∨ v = .hgFrameFormatDiscard n octets
    (c.answers q = true → Cells.find? q.idx c.host.held = none →
      (wbits w 31 28 < 8 →
        (∀ v, v = Instr.segmentEnable q n w ∨ v = .segmentDisable q n w ∨ v = .segmentRecall q n w →
          Completes v s (fun t => lastErr St.RANGE t ∧ state t = state s ∧ cfg t = cfg s))) ∧
      (8 ≤ wbits w 31 28 → en = false →
        Completes (.segmentEnable q n w) s (fun t => t.chip.flag F.hedge_SEG_CFG_EN n.val = true ∧ state t = 1) ∧
          Completes (.segmentDisable q n w) s (fun t => t.chip.flag F.hedge_SEG_CFG_EN n.val = false ∧ state t = state s)) ∧
      (8 ≤ wbits w 31 28 → en = true → wbit w 34 = false →
        Completes (.segmentEnable q n w) s (fun t => state t = state s ∧ after t = h ∧
          cfg t = wput (wput (wput w 35 35 1) 34 34 0) 5 0 0)) ∧
      (8 ≤ wbits w 31 28 → en = true →
        Completes (.segmentDisable q n w) s (fun t =>
          t.chip.flag F.hedge_SEG_CFG_EN n.val = false ∧ state t = 0 ∧ (after t).queue = [] ∧ (after t).cur = h.cur)) ∧
      (8 ≤ wbits w 31 28 → en = true → wbit w 35 = true →
        (state s = 2 → Completes (.segmentRecall q n w) s (fun t => state t = 1 ∧ t.chip.admitted n.val = 0 ∧
          (after t).queue = h.queue.filter (fun x => x.1 == .time) ++ List.replicate 3 (.rollcall, c.count))) ∧
        (state s ≠ 2 → Completes (.segmentRecall q n w) s (fun t => state t = state s ∧ after t = h))) ∧
      (c.flag F.hedge_SEG_DOWN_EN n.val i.val = false → downStatus = St.OK →
        Completes (.hgDownEnable q n i w) s (fun t =>
          down t = wput (wput w 35 35 1) 11 0 0 ∧
            t.chip.fld F.chan_BUSGAIN_READERS (wbits w 23 12) =
              (c.fld F.chan_BUSGAIN_READERS (wbits w 23 12) + 1) %
                2 ^ (F.chan_BUSGAIN_READERS.hi + 1 - F.chan_BUSGAIN_READERS.lo))) ∧
      (c.flag F.hedge_SEG_DOWN_EN n.val i.val = false → downStatus ≠ St.OK →
        Completes (.hgDownEnable q n i w) s (fun t => lastErr downStatus t ∧ down t = down s)) ∧
      (c.flag F.hedge_SEG_DOWN_EN n.val i.val = true → wbits w 34 12 = wbits (down s) 34 12 →
        Completes (.hgDownEnable q n i w) s (fun t => down t = down s ∧ t.chip.regs = c.regs)) ∧
      (c.flag F.hedge_SEG_DOWN_EN n.val i.val = true → wbits w 34 12 ≠ wbits (down s) 34 12 →
        Completes (.hgDownEnable q n i w) s (fun t => lastErr (St.pick [bad, St.BUSY]) t ∧ down t = down s))) ∧
    (c.live = true → still → h.cycle ≠ some cyc → state s = 1 → c.hgServes = false ∨ h.round = false →
      let free := max h.ended h.quiet + 12000
      Completes (.hedgerowCycleStart n) s (fun t => (after t).cycle = some cyc ∧ state t = 1 ∧
        (c.count < free → (after t).queue = (.time, 0) :: h.queue ∧ (after t).cur = none) ∧
        (free ≤ c.count → (after t).queue = hgSpaced .time c.count h.queue ∧ (after t).seq = (h.seq + 1) % 256 ∧
          (after t).cur = some {
            kind := .time, start := c.count
            octets := hgFrame 1 0xFF 0 h.seq (cyc % 2 ^ 32) (beOctets 7 (cyc * 192 % 2 ^ 54) ++
              beOctets 4 ((c.now - tickInstant (cyc * 192)) / 65536 + 5600) ++ beOctets 1 0) }))) ∧
    (c.live = true → still → h.cycle ≠ some cyc → state s = 1 → c.hgServes = true → h.round = true →
      Completes (.hedgerowCycleStart n) s (fun t => (after t).cycle = some cyc ∧ state t = 2)) ∧
    (c.live = true → still → h.cycle ≠ some cyc → state s = 2 →
      Completes (.hedgerowCycleStart n) s (fun t => (after t).cycle = some cyc ∧ state t = 2)) ∧
    (c.live = false ∨ state s = 0 ∨ h.cycle = some cyc → Completes (.hedgerowCycleStart n) s (fun t => t = s)) ∧
    (still → state s = 1 → h.awaiting = true → h.ended + 375000 ≤ c.count →
      Completes (.pollTimeout n) s (fun t => ((after t).node h.polled).misses = (h.node h.polled).misses + 1 ∧
        (after t).awaiting = false ∧
        (3 ≤ (h.node h.polled).misses + 1 → t.chip.fld F.hedge_SEG_NODE_PRESENT n.val h.polled = 0))) ∧
    (still → state s ≠ 1 ∨ h.awaiting = false ∨ c.count < h.ended + 375000 →
      Completes (.pollTimeout n) s (fun t => t = s)) ∧
    (∀ f, still → state s ≠ 0 → parseHg octets = some f → f.type = 3 →
      let answers : Prop := state s = 1 ∧ h.awaiting = true ∧ f.src = h.polled ∧ (f.payload.getD 0 0).toNat ≤ 24 ∧
        octets.length = 64 ∧ c.count ≤ h.ended + 375000 + hgCounts octets
      (answers → ∀ v, received v → Completes v s (fun t => counted 1 t ∧ (after t).awaiting = false ∧
        ((after t).node f.src).misses = 0 ∧ t.chip.flag F.hedge_SEG_NODE_PRESENT n.val f.src = true ∧
        t.chip.fld F.hedge_SEG_NODE_NUP n.val f.src = (f.payload.getD 0 0).toNat ∧
        t.chip.fld F.hedge_SEG_NODE_UP48 n.val f.src = ofBeOctets ((f.payload.drop 1).take 3))) ∧
      (¬ answers → ∀ v, received v → Completes v s (counted 4))) ∧
    (still → state s ≠ 0 → parseHg octets = none → ∀ v, received v → Completes v s (fun t => counted 4 t ∧
      (after t).quiet = c.count ∧ (after t).clash = (h.clash || (!fcsGood octets && h.awaiting)))) ∧
    (still → state s = 0 → ∀ v, received v → Completes v s (fun t => t = s))

/-- Frames in SERVICE: an AUDIO frame of an admitted node is taken once a cycle; a CONTROL frame becomes one packet of its
chute, and a packet of CTLTX becomes a CONTROL frame; a collision jams and sets a back-off of whole slot times, or gives the
frame up after 16 attempts, and the frame is attempted again when the back-off ends (R392, R393, R395, R396). -/
def Obligations.HedgerowTraffic : Prop :=
  ∀ (n : Fin 24) (octets : List Octet) (s : State),
    let c := s.chip
    let h := c.hedge n.val
    let after (t : State) : HedgeSt := t.chip.hedge n.val
    let state := c.segState n.val
    let still : Prop := h.cur = none
    let counted (k : Nat) (t : State) : Prop := t.chip.fld F.hedge_SEG_CNT_COUNT n.val k =
      min F.hedge_SEG_CNT_COUNT.top (c.fld F.hedge_SEG_CNT_COUNT n.val k + 1)
    let admitted (a : Nat) : Bool := c.flag F.hedge_SEG_NODE_ADMITTED n.val a
    let received (v : Instr) : Prop := v = .hgReplyReceived n octets ∨ v = .hgAudioReceived n octets ∨
      v = .hgControlReceived n octets ∨ v = .hgFrameFormatDiscard n octets
    let ch := c.fld F.hedge_SEG_CFG_CTLTX n.val
    let packet := c.popPacket ch ((c.chute ch).count + 1) []
    let head := packet.1.getD 0 0
    let dst := wbits head 7 0
    let k := wbits head 18 8
    let good : Prop := 1 ≤ k ∧ k ≤ 1400 ∧ packet.1.length = 1 + packCount k ∧
      (dst = 0xFF ∨ (1 ≤ dst ∧ dst ≤ 31 ∧ admitted dst = true))
    let sending (x : HgSend) : Prop := h.cur = some x ∧ c.count < x.start + hgCounts x.octets
    (∀ f, still → state = 2 → parseHg octets = some f → f.type = 6 →
      let cyc := extendHalf 32 f.cycle (hgCycle c.mt)
      let entries := hgEntries (c.fld F.hedge_SEG_NODE_NUP n.val f.src) (c.fld F.hedge_SEG_NODE_UP48 n.val f.src) 25 f.payload
      let taken : Prop := admitted f.src = true ∧ (h.node f.src).heard ≠ some cyc ∧ entries ≠ none
      (taken → ∀ v, received v → Completes v s (fun t => counted 1 t ∧ ((after t).node f.src).heard = some cyc ∧
        ((after t).node f.src).absent = 0 ∧ t.chip.fld F.hedge_SEG_NODE_LOST n.val f.src = 0)) ∧
      (¬ taken → ∀ v, received v → Completes v s (counted 4))) ∧
    (∀ f, still → state = 2 → parseHg octets = some f → f.type = 7 →
      let taken : Prop := admitted f.src = true ∧ 1 ≤ f.payload.length ∧ f.payload.length ≤ 1400
      (taken → ∀ v, received v → Completes v s (fun t => counted 1 t ∧
        ∃ rest, t.chip.arriving = c.arriving ++ [{ chute := c.fld F.hedge_SEG_CFG_CTLRX n.val
                                                   word := BitVec.ofNat 36 (f.payload.length * 32 + f.src), fin := false }] ++ rest ∧
          rest.length = packCount f.payload.length ∧ ∀ a, rest.getLast? = some a → a.fin = true)) ∧
      (¬ taken → ∀ v, received v → Completes v s (counted 4))) ∧
    (∀ f, still → state = 2 → parseHg octets = some f → f.type = 3 → ∀ v, received v → Completes v s (counted 4)) ∧
    (∀ f, still → state = 1 → parseHg octets = some f → f.type ≠ 3 → ∀ v, received v → Completes v s (counted 4)) ∧
    (c.live = false ∨ state ≠ 2 ∨ c.fld F.chute_C_PKTS_PACKETS ch = 0 → Completes (.hgControlSend n) s (fun t => t = s)) ∧
    (c.live = true → state = 2 → c.fld F.chute_C_PKTS_PACKETS ch ≠ 0 →
      (∀ x, sending x → good →
        Completes (.hgControlSend n) s (fun t =>
          ∃ o, o.length ≤ k ∧ (after t).queue = h.queue ++ [(.control dst o, 0)] ∧ (after t).cur = h.cur)) ∧
      (still → h.queue = [] → max h.ended h.quiet + 12000 ≤ c.count → good →
        Completes (.hgControlSend n) s (fun t =>
          ∃ o x, o.length ≤ k ∧ (after t).queue = [] ∧ (after t).cur = some x ∧ x.kind = .control dst o ∧ x.start = c.count)) ∧
      (¬ good → Completes (.hgControlSend n) s (fun t => counted 4 t ∧ (after t).queue = h.queue))) ∧
    (∀ x, sending x →
      (h.backoff = none → h.attempts < 16 →
        Completes (.hgCollision n) s (fun t => counted 2 t ∧ .hedgeJam n.val ∈ t.chip.out ∧ (after t).cur = h.cur ∧
          ∃ r, r < 2 ^ min h.attempts 10 ∧ (after t).backoff = some (c.count + r * 64000))) ∧
      (h.backoff = none → 16 ≤ h.attempts →
        Completes (.hgCollision n) s (fun t => counted 2 t ∧ counted 3 t ∧ .hedgeJam n.val ∈ t.chip.out ∧
          (after t).cur = none ∧ (after t).backoff = none)) ∧
      (h.backoff ≠ none → Completes (.hgCollision n) s (fun t => t = s))) ∧
    (still → state ≠ 0 → Completes (.hgCollision n) s (fun t => counted 2 t ∧ (after t).clash = (h.clash || h.awaiting))) ∧
    (still → state = 0 → Completes (.hgCollision n) s (fun t => t = s)) ∧
    (∀ x e, h.cur = some x → h.backoff = some e → e ≤ c.count →
      let o := if x.kind = .time then ((c.hgBuild n.val .time ((h.seq + 255) % 256)).1).getD x.octets else x.octets
      Completes .hgBackoffExpiry s (fun t => after t = { h with
        backoff := none, attempts := h.attempts + 1, cur := some { x with octets := o, start := c.count } })) ∧
    (still ∨ h.backoff = none ∨ (∃ e, h.backoff = some e ∧ c.count < e) →
      Completes .hgBackoffExpiry s (fun t => after t = h))

/-! ## TDM, MADI, GPIO and MDIO (R385 to R387, R397 to R404) -/

/-- The local audio ports: a port is enabled once its settings pass; a frame of a port that is off does nothing, and one of
a port that runs sends a word for every slot or channel; an output entry counts as a reader of its bus, which must be on
(R385, R397 to R402). -/
def Obligations.AudioPorts : Prop :=
  ∀ (q : Requester) (u : Fin 8) (m : Fin 4) (e : OutEntry) (w : Word) (ins : List Nat) (inm : List (Bool × Bool × Nat))
    (s : State),
    let c := s.chip
    let refused (st : Nat) (t : State) : Prop :=
      t.chip.fldq q F.audioio_REQSTAT_LASTERR = st ∧ t.chip.regs = c.regs ∧ t.chip.audio = c.audio
    let slots := wbits w 30 26 + 1
    let tdmBad : Prop := wbits w 33 32 = 3 ∨ wbits w 25 24 = 3 ∨ (wbits w 33 32 = 0 ∧ slots ≠ 2) ∨
      (wbit w 31 = true ∧ 16 < slots) ∨ 20832 < wbits w 21 7
    let place : RegName × Nat × Nat := match e with
      | .tdm x i => (.audioio_TDM_OUT, x.val, i.val)
      | .madi x i => (.audioio_MADI_OUT, x.val, i.val)
    let bus := wbits w 34 23
    let readers (t : State) : Nat := t.chip.fld F.chan_BUSGAIN_READERS bus
    let tl (t : State) : LockSt := Cells.get {} u.val t.chip.audio.tdm
    let entry := c.rd place.1 place.2.1 place.2.2
    let frameOut (n : Nat) (madi : Bool) (i : Nat) (t : State) : Prop :=
      ∃ ws, t.chip.out = .audioOut madi i ws :: c.out ∧ ws.length = n
    let nSlots := c.fld F.audioio_TDM_CFG_SLOTS u.val + 1
    (c.answers q = true → Cells.find? q.idx c.host.held = none →
      (tdmBad → Completes (.tdmEnable q u w) s (refused St.RANGE)) ∧
      (¬ tdmBad → c.flag F.audioio_TDM_CFG_EN u.val = false →
        Completes (.tdmEnable q u w) s (fun t => t.chip.flag F.audioio_TDM_CFG_EN u.val = true ∧ tl t = {} ∧
          t.chip.fld F.audioio_TDM_CFG_SLOTS u.val = wbits w 30 26 ∧
          t.chip.fld F.audioio_TDM_STAT_LOCKED u.val = wbits w 34 34)) ∧
      (¬ tdmBad → c.flag F.audioio_TDM_CFG_EN u.val = true →
        (wbits w 34 7 ≠ wbits (c.rd .audioio_TDM_CFG u.val) 34 7 → Completes (.tdmEnable q u w) s (refused St.BUSY)) ∧
        (wbits w 34 7 = wbits (c.rd .audioio_TDM_CFG u.val) 34 7 → Completes (.tdmEnable q u w) s (fun t => t = s))) ∧
      (20832 < wbits w 33 19 → Completes (.madiEnable q m w) s (refused St.RANGE)) ∧
      (wbits w 33 19 ≤ 20832 → c.flag F.audioio_MADI_CFG_EN m.val = false →
        Completes (.madiEnable q m w) s (fun t => t.chip.flag F.audioio_MADI_CFG_EN m.val = true ∧
          t.chip.fld F.audioio_MADI_CFG_TXPHASE m.val = wbits w 33 19 ∧
          t.chip.flag F.audioio_MADI_STAT_LOCKED m.val = false)) ∧
      (wbits w 33 19 ≤ 20832 → c.flag F.audioio_MADI_CFG_EN m.val = true →
        wbits w 34 19 ≠ wbits (c.rd .audioio_MADI_CFG m.val) 34 19 → Completes (.madiEnable q m w) s (refused St.BUSY)) ∧
      (wbit entry 35 = true → c.readerStatus bus c.blockB = St.OK →
        (wbits entry 34 23 = bus → Completes (.outputEntryEnable q e w) s (fun t => t = s)) ∧
        (wbits entry 34 23 ≠ bus → Completes (.outputEntryEnable q e w) s (refused St.BUSY))) ∧
      (wbit entry 35 = false →
        (c.readerStatus bus c.blockB ≠ St.OK →
          Completes (.outputEntryEnable q e w) s (refused (c.readerStatus bus c.blockB))) ∧
        (c.readerStatus bus c.blockB = St.OK →
          Completes (.outputEntryEnable q e w) s (fun t =>
            wbit (t.chip.rd place.1 place.2.1 place.2.2) 35 = true ∧
              wbits (t.chip.rd place.1 place.2.1 place.2.2) 34 23 = bus ∧
              readers t = (readers s + 1) % 2 ^ (F.chan_BUSGAIN_READERS.hi + 1 - F.chan_BUSGAIN_READERS.lo))) ∧
        (c.busOn bus = false → Completes (.outputEntryEnable q e w) s (refused St.NOTREADY)))) ∧
    (c.live = false ∨ c.flag F.audioio_TDM_CFG_EN u.val = false → Completes (.tdmFrame u ins) s (fun t => t = s)) ∧
    (c.live = true → c.flag F.audioio_TDM_CFG_EN u.val = true →
      Completes (.tdmFrame u ins) s (frameOut nSlots false u.val) ∧
      (c.flag F.audioio_TDM_CFG_MASTER u.val = true → Completes (.tdmFrame u ins) s (fun t => tl t = tl s)) ∧
      (c.flag F.audioio_TDM_CFG_MASTER u.val = false →
        ((tl s).ref = none → Completes (.tdmFrame u ins) s (fun t => (tl t).ref = some (c.mt, c.now) ∧
          t.chip.flag F.audioio_TDM_STAT_LOCKED u.val = false ∧ t.chip.dram = c.dram ∧
          t.chip.out.head? = some (.audioOut false u.val (List.replicate nSlots 0)))) ∧
        (∀ t0 start, (tl s).ref = some (t0, start) → (tl s).bad = 0 → 47 ≤ (tl s).good → c.tdmRate u.val = 48000 →
          c.now = start + ((tl s).k + 1) * tSec / 48000 →
          Completes (.tdmFrame u ins) s (fun t => t.chip.flag F.audioio_TDM_STAT_LOCKED u.val = true ∧
            (tl t).k = (tl s).k + 1 ∧ (tl t).good = (tl s).good + 1)))) ∧
    (c.live = false ∨ c.flag F.audioio_MADI_CFG_EN m.val = false →
      Completes (.madiFrameReceived m inm) s (fun t => t = s) ∧ Completes (.madiFrameTransmit m) s (fun t => t = s)) ∧
    (c.live = true → c.flag F.audioio_MADI_CFG_EN m.val = true →
      Completes (.madiFrameTransmit m) s (frameOut (c.madiChans m.val) true m.val) ∧
      ((∀ i, i < c.madiChans m.val → wbit (c.rd .audioio_MADI_OUT m.val i) 35 = false) →
        Completes (.madiFrameTransmit m) s (fun t => t.chip.out.head? = some (.audioOut true m.val
          ((List.range (c.madiChans m.val)).map (fun ch => madiSub ch 0
            (((c.masterFrame (c.fld F.audioio_MADI_CFG_TXPHASE m.val)).1 + Config.statusStart) % 192)))))) ∧
      (∀ l, Cells.get {} m.val c.audio.madi = l →
        (l.ref = none → Completes (.madiFrameReceived m inm) s (fun t =>
          (Cells.get {} m.val t.chip.audio.madi).ref = some (c.mt, c.now) ∧
            t.chip.flag F.audioio_MADI_STAT_LOCKED m.val = false ∧ t.chip.dram = c.dram)) ∧
        Completes (.madiFrameReceived m inm) s (fun t =>
          Cells.get {} m.val t.chip.audio.madi =
            (l.frame 48000 c.mt c.now (c.flag F.audioio_MADI_STAT_LOCKED m.val)).1 ∧
          t.chip.fld F.audioio_MADI_STAT_PARITY m.val = min F.audioio_MADI_STAT_PARITY.top
            (c.fld F.audioio_MADI_STAT_PARITY m.val +
              ((inm.take (c.madiChans m.val)).filter (fun x => x.1 && x.2.1)).length))))

/-- GPIO and MDIO: a level that changes is accepted at once without debounce, else once it has stood; a timed change waits
for its instant or applies at once; an MDIO access is under way until it completes, a read with the PHY's data, and a second
one meanwhile is refused (R387, R403, R404). -/
def Obligations.GpioAndMdio : Prop :=
  ∀ (q : Requester) (g : Fin 32) (w : Word) (level : Bool) (data : BitVec 16) (s : State),
    let c := s.chip
    let pins := c.audio.gpio.pins
    let lev (t : State) : Bool := (t.chip.fld F.audioio_GPIO_LEVEL_LEVEL).testBit g.val
    let input : Prop := c.flag F.audioio_GPIO_CFG_DIR g.val = false
    let deb := c.fld F.audioio_GPIO_CFG_DEBOUNCE g.val
    let d := halfDist 36 (c.rdq q .audioio_GPIO_TSET).toNat c.mt
    let pin := wbits w 4 0
    let phy := wbits w 31 27
    let started (write : Bool) (t : State) : Prop :=
      t.chip.audio.mdio = some (q.idx, write, phy, wbits w 26 22) ∧
        .mdio write phy (wbits w 26 22) (wbits w 15 0) ∈ t.chip.out ∧ t.chip.fldq q F.hedge_MDIO_BUSY = 1
    let stood : Prop := ∃ n t0, Cells.find? g.val c.audio.gpio.fresh = some (n, t0) ∧ n + 1250 * deb ≤ c.count
    (pins.testBit g.val = level → Completes (.gpioInputEdge g level) s (fun t => t = s)) ∧
    (∀ before, pins.testBit g.val ≠ level →
      (stood ∧ input ∧ before = pins.testBit g.val ∨ ¬ (stood ∧ input) ∧ before = lev s) →
      Completes (.gpioInputEdge g level) s (fun t => t.chip.audio.gpio.pins.testBit g.val = level ∧
        (∀ p, p ≠ g.val → t.chip.audio.gpio.pins.testBit p = pins.testBit p) ∧
        (c.live = false ∨ ¬ input → lev t = before) ∧
        (c.live = true → input →
          (before ≠ level → deb = 0 → lev t = level) ∧
          (before ≠ level → deb ≠ 0 → lev t = before ∧
            Cells.find? g.val t.chip.audio.gpio.fresh = some (c.count, c.now)) ∧
          (before = level → lev t = level ∧ Cells.find? g.val t.chip.audio.gpio.fresh = none)))) ∧
    (Cells.find? g.val c.audio.gpio.fresh = none → Completes (.gpioDebounceExpiry g) s (fun t => t = s)) ∧
    (¬ input → Completes (.gpioDebounceExpiry g) s (fun t => t = s)) ∧
    (∀ n t0, Cells.find? g.val c.audio.gpio.fresh = some (n, t0) → input →
      (n + 1250 * deb ≤ c.count →
        Completes (.gpioDebounceExpiry g) s (fun t => lev t = pins.testBit g.val ∧
          Cells.find? g.val t.chip.audio.gpio.fresh = none)) ∧
      (c.count < n + 1250 * deb → Completes (.gpioDebounceExpiry g) s (fun t => t = s))) ∧
    (c.answers q = true → Cells.find? q.idx c.host.held = none →
      (0 < d → c.audio.gpio.timed.length < 64 →
        Completes (.gpioTimedQueue q w) s (fun t => t.chip.regs = c.regs ∧
          t.chip.audio.gpio.timed = c.audio.gpio.timed ++ [(((c.mt : Int) + d).toNat, pin, wbit w 5)])) ∧
      (0 < d → 64 ≤ c.audio.gpio.timed.length →
        Completes (.gpioTimedQueue q w) s (fun t => t.chip.fldq q F.audioio_REQSTAT_LASTERR = St.BUSY ∧
          t.chip.audio = c.audio)) ∧
      (d ≤ 0 → Completes (.gpioTimedQueue q w) s (fun t =>
        (t.chip.fld F.audioio_GPIO_OUT_OUT).testBit pin = wbit w 5 ∧ t.chip.audio.gpio.timed = c.audio.gpio.timed ∧
        (c.flag F.audioio_GPIO_CFG_DIR pin = true → c.live = true → .pin "GPIO" pin (wbit w 5) ∈ t.chip.out))) ∧
      (phy < 24 → c.audio.mdio = none →
        Completes (.mdioWrite q w) s (started true) ∧ Completes (.mdioRead q w) s (started false)) ∧
      (phy < 24 → c.audio.mdio ≠ none →
        (∀ v, v = Instr.mdioWrite q w ∨ v = .mdioRead q w →
          Completes v s (fun t => t.chip.fld F.hedge_SEG_STAT_LASTERR phy = St.BUSY ∧ t.chip.audio = c.audio))) ∧
      (24 ≤ phy → ∀ v, v = Instr.mdioWrite q w ∨ v = .mdioRead q w → Completes v s (fun t => t = s))) ∧
    (c.audio.mdio = none → Completes (.mdioComplete data) s (fun t => t = s)) ∧
    (∀ r wr x y, r ≠ .loader → c.audio.mdio = some (r.idx, wr, x, y) →
      Completes (.mdioComplete data) s (fun t => t.chip.audio.mdio = none ∧
        (wr = false → t.chip.fldq r F.hedge_MDIO_DATA = data.toNat) ∧
        (∀ p, p ≠ .loader → t.chip.fldq p F.hedge_MDIO_BUSY = 0 ∧
          (p ≠ r ∨ wr = true → t.chip.fldq p F.hedge_MDIO_DATA = c.fldq p F.hedge_MDIO_DATA)))) ∧
    ((∀ x ∈ c.audio.gpio.timed, c.mt < x.1) → Completes .gpioTimedApply s (fun t => t = s)) ∧
    (∀ i t0 p b, c.audio.gpio.timed[i]? = some (t0, p, b) → t0 ≤ c.mt → p < 32 →
      (∀ j x, c.audio.gpio.timed[j]? = some x → t0 < x.1 ∨ t0 = x.1 ∧ i ≤ j) →
      Completes .gpioTimedApply s (fun t => t.chip.audio.gpio.timed = c.audio.gpio.timed.eraseIdx i ∧
        (t.chip.fld F.audioio_GPIO_OUT_OUT).testBit p = b ∧
        (c.flag F.audioio_GPIO_CFG_DIR p = true → c.live = true → .pin "GPIO" p b ∈ t.chip.out)))

/-! ## The memory controller (R408 to R428) -/

/-- A request enters its bank's queue unless it must wait, a whole write with its words in DRAM at once; a command picks the
open row before another and activates a row that is closed; a read answers with its words, or with an error response beyond
the fitted capacity (R412 to R415, R418, R420). -/
def Obligations.DramAccesses : Prop :=
  ∀ (src : Fin 9) (host write : Bool) (b : BitVec 34) (mask : BitVec 16) (ws : List Word) (sc : Fin 16) (s : State),
    let c := s.chip
    let r0 : DramReq := { src := src.val, host := host, burst := b.toNat, write := write, mask := mask.toNat, ws := ws }
    let bank := c.bankOf r0
    let queue (k : Nat) (t : State) : List DramReq := (t.chip.bankSt k).queue
    let go := Instr.dramRequest src host write b mask ws
    let cnt (i : Nat) (t : State) : Nat := t.chip.fld F.mc_CNT_COUNT i
    let counted (i : Nat) (t : State) : Prop := cnt i t = min F.mc_CNT_COUNT.top (cnt i s + 1)
    (c.mc.held = [] → c.mustHold r0 = true →
      Completes go s (fun t => t.chip.mc.held = [r0] ∧ t.chip.dram = c.dram ∧ t.chip.mc.banks = c.mc.banks)) ∧
    (c.mc.held = [] → c.mustHold r0 = false → b.toNat < c.dramBursts →
      (write = true → mask.toNat = 0xFFFF →
        Completes go s (fun t => (∀ i, i < 16 → t.chip.word (b.toNat * 16 + i) = ws.getD i 0) ∧
          (∀ a, a / 16 ≠ b.toNat → t.chip.word a = c.word a) ∧ (queue bank t).length = (queue bank s).length + 1)) ∧
      (write = true → c.burstOk b.toNat = true → mask.toNat ≠ 0xFFFF →
        Completes go s (fun t => ∀ i, i < 16 → t.chip.word (b.toNat * 16 + i) =
          if mask.getLsbD i = true then ws.getD i 0 else c.word (b.toNat * 16 + i))) ∧
      (write = true → c.burstOk b.toNat = false → mask.toNat ≠ 0xFFFF →
        Completes go s (fun t => (t.chip.burst b.toNat).bad = 1 ∧
          counted (if (c.burst b.toNat).bad = 1 then 3 else 1) t)) ∧
      (write = false →
        Completes go s (fun t => t.chip.dram = c.dram ∧
          t.chip.mc.reads = c.mc.reads ++ [{ id := c.mc.nextId, src := src.val, burst := b.toNat }] ∧
          ∃ r, queue bank t = queue bank s ++ [r] ∧ r.id = c.mc.nextId ∧ r.ws = (c.burst b.toNat).ws ∧
            r.bad = (c.burst b.toNat).bad))) ∧
    (c.mc.held = [] → c.mustHold r0 = false → c.dramBursts ≤ b.toNat → write = false → c.mc.reads = [] →
      Completes go s (fun t => .dramData src.val b.toNat none ∈ t.chip.out ∧ t.chip.mc.reads = [] ∧ t.chip.dram = c.dram)) ∧
    (c.mc.held = [] → c.mustHold r0 = false → c.dramBursts ≤ b.toNat → write = true →
      Completes go s (fun t => t.chip.dram = c.dram ∧ t.chip.mc.banks = c.mc.banks ∧ t.chip.out = c.out)) ∧
    (c.subStopped sc.val = true → Completes (.dramCommandIssue sc) s (fun t => t = s)) ∧
    (∀ k row rest, c.subStopped sc.val = false → c.mc.held = [] →
      (c.banksOf sc.val).find? (fun k => !(c.bankSt k).nbr.isEmpty) = some k → (c.bankSt k).nbr = row :: rest →
      Completes (.dramCommandIssue sc) s (fun t => (t.chip.bankSt k).nbr = rest ∧ (t.chip.bankSt k).row = none ∧
        t.chip.fld F.mc_CNT_COUNT 4 = min F.mc_CNT_COUNT.top (c.fld F.mc_CNT_COUNT 4 + 1) ∧ t.chip.dram = c.dram)) ∧
    (∀ k r, c.subStopped sc.val = false → c.mc.held = [] → (∀ j, (c.bankSt j).nbr = []) → k ∈ c.banksOf sc.val →
      queue k s = [r] → (∀ j, j ≠ k → queue j s = []) → (r.host = true → (c.bankSt k).throttled = false) →
      (some (c.place r.burst).row = (c.bankSt k).row →
        Completes (.dramCommandIssue sc) s (fun t => queue k t = [] ∧
          .dramCommand sc.val (if r.write = true then "WR" else "RD") (k % 128) (c.place r.burst).row ∈ t.chip.out ∧
          (r.write = false → (t.chip.sub sc.val).flight = (c.sub sc.val).flight ++ [r]))) ∧
      (some (c.place r.burst).row ≠ (c.bankSt k).row →
        Completes (.dramCommandIssue sc) s (fun t => (t.chip.bankSt k).row = some (c.place r.burst).row ∧
          queue k t = [r] ∧ .dramCommand sc.val "ACT" (k % 128) (c.place r.burst).row ∈ t.chip.out ∧
          (r.host = true → (t.chip.bankSt k).hostActs = (c.bankSt k).hostActs + 1 ∧
            ((c.bankSt k).hostActs + 1 = c.mc.winMax →
              (t.chip.bankSt k).throttled = true ∧ Cells.find? r.src t.chip.mc.hostNext = some (c.count + 1250) ∧
                counted 5 t))))) ∧
    (c.subStopped sc.val = false → c.mc.held = [] → (∀ k ∈ c.banksOf sc.val, (c.bankSt k).nbr = [] ∧ queue k s = []) →
      Completes (.dramCommandIssue sc) s (fun t => t.chip.out = c.out ∧ t.chip.dram = c.dram ∧ t.chip.mc.banks = c.mc.banks)) ∧
    ((c.sub sc.val).flight = [] → ∀ e, Completes (.dramReadComplete sc e) s (fun t => t = s)) ∧
    (∀ r rest (e : BitVec 640), (c.sub sc.val).flight = r :: rest →
      (∃ x ∈ c.mc.reads, x.id = r.id) →
      (∀ x ∈ c.mc.reads, (x.id = r.id → x.src = r.src ∧ x.burst = r.burst) ∧ (x.src = r.src → r.id ≤ x.id)) →
      let done (ws : Option (List Word)) (t : State) : Prop :=
        (t.chip.sub sc.val).flight = rest ∧ .dramData r.src r.burst ws ∈ t.chip.out ∧ (∀ x ∈ t.chip.mc.reads, x.id ≠ r.id)
      let go := Instr.dramReadComplete sc e
      (c.dramBursts ≤ r.burst → Completes go s (fun t => done none t ∧ t.chip.dram = c.dram)) ∧
      (r.burst < c.dramBursts →
        (r.bad = 1 → e = 0 → Completes go s (fun t => done none t ∧ counted 3 t ∧ t.chip.dram = c.dram)) ∧
        (r.bad = 0 →
          (e = 0 → Completes go s (fun t => done (some r.ws) t ∧ t.chip.dram = c.dram ∧ t.chip.mc.elog = c.mc.elog)) ∧
          (∀ d b, e ≠ 0 → oneBeat e.toNat = some (d, b) →
            Completes go s (fun t => done (some r.ws) t ∧ counted 0 t)) ∧
          (e ≠ 0 → oneBeat e.toNat = none → Completes go s (fun t =>
            (decodeBurst e.toNat = .bad → done none t ∧ counted 1 t ∧
              (c.burst r.burst = { ws := r.ws, bad := 0 } → (t.chip.burst r.burst).bad = 2)) ∧
            (∀ d b left, decodeBurst e.toNat = .fixed d b left → done (some (spoil r.ws left)) t ∧ counted 0 t))))))

/-- Upkeep of the DRAM: refreshes, held while their subchannel pauses; the refresh window that empties the tables; a parity
alert that poisons the writes it may have lost; the patrol scrub; drift pauses; and a change of frequency point, requested,
begun and completed (R416 to R428). -/
def Obligations.DramUpkeep : Prop :=
  ∀ (q : Requester) (sc : Fin 16) (rank : Fin 4) (n : Fin 65) (hot : BitVec 4) (up down : BitVec 40) (w : Word) (e : BitVec 640)
    (s : State),
    let c := s.chip
    let m := c.mc
    let p := wbits w 1 0
    let changing (t : State) : Bool := t.chip.flag F.mc_STATUS_CHANGING
    let lane (l : Nat) (t : State) : LaneDrift := Cells.get {} (c.driftKey sc.val l) t.chip.mc.drift
    let refused (st : Nat) (t : State) : Prop := t.chip.fldq q F.mc_REQSTAT_LASTERR = st ∧ t.chip.regs = c.regs
    (m.changing = true → Completes (.refreshDue sc rank) s (fun t => t = s)) ∧
    (m.changing = false → m.pause = some sc.val →
      Completes (.refreshDue sc rank) s (fun t =>
        (t.chip.sub sc.val).refresh = (c.sub sc.val).refresh ++ [rank.val] ∧ t.chip.mc.banks = m.banks)) ∧
    (m.changing = false → m.pause ≠ some sc.val →
      Completes (.refreshDue sc rank) s (fun t =>
        (∀ i, i < 32 → (t.chip.bankSt (sc.val * 128 + rank.val * 32 + i)).row = none) ∧
          ∀ k, (∀ i, i < 32 → k ≠ sc.val * 128 + rank.val * 32 + i) → t.chip.bankSt k = c.bankSt k)) ∧
    (c.count < m.winStart + m.window → Completes .refreshWindowEnd s (fun t => t = s)) ∧
    (m.winStart + m.window ≤ c.count →
      Completes .refreshWindowEnd s (fun t => t.chip.mc.winStart = m.winStart + m.window ∧
        t.chip.mc.winFast = c.flag F.mc_REFCFG_FAST ∧ t.chip.mc.winMax = c.fld F.mc_HOSTCFG_BANKMAX ∧ t.chip.mc.hostNext = [] ∧
          ∀ k, (t.chip.bankSt k).table = [] ∧ (t.chip.bankSt k).hostActs = 0 ∧ (t.chip.bankSt k).throttled = false)) ∧
    Completes (.caParityAlert sc n) s (fun t => (t.chip.sub sc.val).sent = [] ∧
      t.chip.fld F.mc_CNT_COUNT 2 = min F.mc_CNT_COUNT.top (c.fld F.mc_CNT_COUNT 2 + 1) ∧
      (t.chip.sub sc.val).flight =
        (c.sub sc.val).flight.filter (fun r => !((c.sub sc.val).sent.take n.val).any (fun y => y.id == r.id)) ∧
      (∀ r ∈ (c.sub sc.val).sent.take n.val, r.write = true → c.writeQueued r.burst = false → r.burst < c.dramBursts →
        (t.chip.burst r.burst).bad = 1) ∧
      (n.val = 0 → t.chip.dram = c.dram)) ∧
    (c.flag F.mc_SCRUB_EN = false ∨ c.dramBursts = 0 → Completes (.scrubRead e) s (fun t => t = s)) ∧
    (c.flag F.mc_SCRUB_EN = true → c.dramBursts ≠ 0 →
      Completes (.scrubRead e) s (fun t => t.chip.mc.scrub = (m.scrub % c.dramBursts + 1) % c.dramBursts ∧
        (e = 0 → c.burstOk (m.scrub % c.dramBursts) = true → t.chip.dram = c.dram))) ∧
    (∀ d, (c.sub sc.val).nextPause = some d → d ≤ c.count → m.pause = none → m.changing = false →
      Completes (.driftPauseStart sc hot) s (fun t => t.chip.mc.pause = some sc.val ∧
        (t.chip.sub sc.val).nextPause = some (d + 12500000 * ((c.count - d) / 12500000 + 1)) ∧
        (hot ≠ 0 → t.chip.flag F.mc_REFCFG_FAST = true))) ∧
    (∀ d, (c.sub sc.val).nextPause = some d →
      (c.count < d ∨ m.pause.isSome = true → Completes (.driftPauseStart sc hot) s (fun t => t = s)) ∧
      (d ≤ c.count → m.pause = none → m.changing = true →
        Completes (.driftPauseStart sc hot) s (fun t => t.chip.mc.pause = none ∧ t.chip.regs = c.regs ∧
          (t.chip.sub sc.val).nextPause = some (d + 12500000 * ((c.count - d) / 12500000 + 1))))) ∧
    ((c.sub sc.val).nextPause = none → Completes (.driftPauseStart sc hot) s (fun t => t = s)) ∧
    (m.pause = some sc.val →
      Completes (.driftPauseEnd sc up down) s (fun t => t.chip.mc.pause = none ∧ (t.chip.sub sc.val).refresh = [] ∧
        (∀ l, l < 40 → lane l t = (lane l s).sample
          (if up.getLsbD l = down.getLsbD l then 0 else if up.getLsbD l = true then 1 else -1)) ∧
        ∀ r ∈ (c.sub sc.val).refresh, ∀ i, i < 32 → (t.chip.bankSt (sc.val * 128 + r * 32 + i)).row = none)) ∧
    (m.pause ≠ some sc.val → Completes (.driftPauseEnd sc up down) s (fun t => t = s)) ∧
    (c.answers q = true → Cells.find? q.idx c.host.held = none →
      (c.flag F.mc_FP_CFG_EN p = false → Completes (.freqPointRequest q w) s (refused St.RANGE)) ∧
      (c.flag F.mc_FP_CFG_EN p = true → changing s = true → Completes (.freqPointRequest q w) s (refused St.BUSY)) ∧
      (c.flag F.mc_FP_CFG_EN p = true → changing s = false →
        Completes (.freqPointRequest q w) s (fun t => t.chip.fld F.mc_FPREQ_POINT = p ∧
          (changing t = true ↔ p ≠ c.fld F.mc_STATUS_POINT)))) ∧
    (changing s = true → m.changing = false → m.pause = none →
      Completes .freqChangeStart s (fun t => t.chip.mc.changing = true ∧ ∀ k, (t.chip.bankSt k).row = none)) ∧
    (changing s = false ∨ m.changing = true ∨ m.pause ≠ none → Completes .freqChangeStart s (fun t => t = s)) ∧
    (∀ p, m.changing = true → (∀ x ∈ m.subs, x.2.flight = []) → c.ranger.fpWanted = some p →
      c.flag F.mc_FP_CFG_EN p = true → p < 4 → p ≠ c.fld F.mc_FPREQ_POINT →
      Completes .freqChangeComplete s (fun t => t.chip.mc.changing = false ∧ changing t = true ∧
        t.chip.fld F.mc_STATUS_POINT = c.fld F.mc_FPREQ_POINT ∧ t.chip.fld F.mc_FPREQ_POINT = p)) ∧
    (m.changing = true → (∀ x ∈ m.subs, x.2.flight = []) → c.ranger.fpWanted = none →
      Completes .freqChangeComplete s (fun t => t.chip.mc.changing = false ∧ changing t = false ∧
        t.chip.fld F.mc_STATUS_POINT = c.fld F.mc_FPREQ_POINT)) ∧
    (m.changing = false ∨ (∃ x ∈ m.subs, x.2.flight ≠ []) → Completes .freqChangeComplete s (fun t => t = s))

/-! ## The host link (R430 to R453) -/

/-- Resets and power of the PCIe function: a Function Level Reset returns the rings, the message masks and the registers of
HOSTDMA to reset and nothing outside them; so does a fall of PERST_N after release, which also ends the link; the link
trains again when it rises; D3hot is entered and left while it is trained; in FUSE, LOAD and TRAIN each of these requests is
answered with Configuration Request Retry Status (Table 1.6, R431, R448, R458). -/
def Obligations.HostLinkResets : Prop :=
  ∀ (s : State),
    let c := s.chip
    let cleared (t : State) : Prop := t.chip.host.rings = [] ∧ t.chip.host.unmasked = 0 ∧ t.chip.host.funcMask = false ∧
      t.chip.host.msixPending = 0 ∧ t.chip.dev.d3hot = false ∧ (∀ r, r < 16 → t.chip.ringOn r = false) ∧
      t.chip.rd .hostdma_EPOCH = c.rd .hostdma_EPOCH ∧ t.chip.dram = c.dram ∧
      (∀ r i j, slotOf .hostdma_CFG 0 0 ≤ slotOf r i j → slotOf r i j < slotOf .hostdma_CFG 0 0 + 131072 →
        slotOf r i j ≠ slotOf .hostdma_EPOCH 0 0 → t.chip.rd r i j = BitVec.ofNat 36 (r.resetVal i)) ∧
      (∀ r i j, slotOf r i j < slotOf .hostdma_CFG 0 0 ∨ slotOf .hostdma_CFG 0 0 + 131072 ≤ slotOf r i j →
        t.chip.rd r i j = c.rd r i j)
    let early : Prop := c.mode = Md.FUSE ∨ c.mode = Md.LOAD ∨ c.mode = Md.TRAIN
    let retry (t : State) : Prop := t = { s with chip := { c with out := .configRetry :: c.out } }
    (c.dev.pcieUp = true → ¬ early →
      Completes .pcieFlr s (fun t => cleared t ∧ t.chip.dev.pcieUp = c.dev.pcieUp ∧ t.chip.dev.perstN = c.dev.perstN) ∧
      Completes .d3hotEntry s (fun t => t = { s with chip := { c with dev := { c.dev with d3hot := true } } }) ∧
      Completes .d3hotExit s (fun t => t = { s with chip := { c with dev := { c.dev with d3hot := false } } })) ∧
    (c.dev.pcieUp = true → early →
      Completes .pcieFlr s retry ∧ Completes .d3hotEntry s retry ∧ Completes .d3hotExit s retry) ∧
    (c.live = true → Completes .perstNFall s (fun t => cleared t ∧ t.chip.dev.pcieUp = false ∧ t.chip.dev.perstN = false)) ∧
    (c.live = false → Completes .perstNFall s (fun t =>
      t = { s with chip := { c with dev := { c.dev with perstN := false, pcieUp := false } } })) ∧
    Completes .perstNRise s (fun t => t.chip.dev.perstN = true ∧ t.chip.regs = c.regs ∧
      (t.chip.dev.pcieUp = true ↔ c.mode ≠ Md.OFF ∧ c.mode ≠ Md.HELD)) ∧
    (c.dev.pcieUp = false → Completes .pcieFlr s (fun t => t = s) ∧ Completes .d3hotEntry s (fun t => t = s) ∧
      Completes .d3hotExit s (fun t => t = s))

/-- Descriptor rings: enabled at HEAD and TAIL 0; a descriptor is fetched at the ring's next index, ends at once where a
check refuses it, and otherwise its work is done: a frame enters or leaves, words are copied or a record is read;
completions are written in ring order and move HEAD (R437 to R445). -/
def Obligations.HostRings : Prop :=
  ∀ (q : Requester) (r : Fin 16) (w : Word) (q0 q1 q2 : BitVec 64) (octets : List Octet) (changed : Bool) (s : State),
    let c := s.chip
    let k := c.ring r.val
    let at_ (t : State) : RingSt := t.chip.ring r.val
    let len := qLen q1.toNat
    let fetches (ty : Nat) : Prop := c.ringFetches r.val = true ∧ c.ringType r.val = ty
    let st (ty : Nat) : Nat := c.descStatus ty q0.toNat q1.toNat q2.toNat
    let step := (k.next + 1) % max 1 (c.fld F.hostdma_R_SIZE_ENTRIES r.val)
    let fetched (done : Option (Nat × Option Nat × Nat)) (t : State) : Prop :=
      (at_ t).next = step ∧
        (at_ t).tags = k.tags + 1 ∧
        (at_ t).fetched = k.fetched ++ [{ idx := k.next, tag := k.tags, q0 := q0.toNat, q1 := q1.toNat, q2 := q2.toNat, done := done }]
    let all (ty : Nat) : List Instr :=
      if ty = 1 then [.ringTx r q0 q1 q2 octets] else if ty = 3 then [.ringCopy r q0 q1 q2 octets] else []
    let count (i : Nat) (t : State) : Prop :=
      t.chip.fld F.hostdma_CNT_COUNT i = min F.hostdma_CNT_COUNT.top (c.fld F.hostdma_CNT_COUNT i + 1)
    let svc := nbits q2.toNat 50 36
    let a := nbits q2.toNat 37 0
    let cap := (nbits q2.toNat 33 0 + 1 + nbits q2.toNat 58 34 * recBursts (nbits q1.toNat 46 44) (nbits q1.toNat 43 41)) * 16
    let capLen := 4 + nbits q1.toNat 46 44 * balerS (nbits q1.toNat 43 41)
    let bu := nbits q1.toNat 48 47
    let room : Prop := c.fld F.baler_U_OCC_SHARED bu < 880 ∧
      c.fld F.baler_U_OCC_STAGE bu + nbits q1.toNat 46 44 * balerS (nbits q1.toNat 43 41) ≤ 65536 ∧
      (qMap q1.toNat ≤ 1 ∨ c.flag F.baler_U_CTRL_EN bu = true)
    let found := c.words cap capLen
    let job := captureJob (nbits q1.toNat 43 41) (min (nbits q1.toNat 46 44) (wbits (found.getD 1 0) 28 26)) (found.drop 4)
    (c.answers q = true → Cells.find? q.idx c.host.held = none →
      (c.ringOn r.val = false → 1 ≤ wbits w 34 32 → wbits w 34 32 ≤ 4 →
        Completes (.ringEnable q r w) s (fun t => t.chip.ringOn r.val = true ∧ t.chip.ringType r.val = wbits w 34 32 ∧
          t.chip.fld F.hostdma_R_HEAD_HEAD r.val = 0 ∧ t.chip.fld F.hostdma_R_TAIL_TAIL r.val = 0 ∧ (at_ t).next = 0)) ∧
      (c.ringOn r.val = false → wbits w 34 32 = 0 ∨ 4 < wbits w 34 32 →
        Completes (.ringEnable q r w) s (fun t =>
          t.chip.fldq q F.hostdma_REQSTAT_LASTERR = St.RANGE ∧ t.chip.regs = c.regs)) ∧
      (c.ringOn r.val = true → wbits w 34 23 ≠ wbits (c.rd .hostdma_R_CFG r.val) 34 23 →
        ∀ v, v = Instr.ringEnable q r w ∨ v = .ringDisable q r w → Completes v s (fun t =>
          t.chip.fldq q F.hostdma_REQSTAT_LASTERR = St.BUSY ∧ t.chip.regs = c.regs ∧ at_ t = k)) ∧
      (c.ringOn r.val = false → Completes (.ringDisable q r w) s (fun t =>
        t.chip.ringOn r.val = false ∧ t.chip.ringType r.val = wbits w 34 32 ∧ at_ t = k)) ∧
      (c.ringOn r.val = true → wbits w 34 23 = wbits (c.rd .hostdma_R_CFG r.val) 34 23 →
        Completes (.ringDisable q r w) s (fun t => t.chip.ringOn r.val = false ∧ (at_ t).fetched = k.fetched)) ∧
      (wbits w 15 0 < c.fld F.hostdma_R_SIZE_ENTRIES r.val →
        Completes (.ringTailWrite q r w) s (fun t => t.chip.fld F.hostdma_R_TAIL_TAIL r.val = wbits w 15 0 ∧
          ((at_ t).closed = true ↔ wbits w 15 0 = c.fld F.hostdma_R_HEAD_HEAD r.val))) ∧
      (c.fld F.hostdma_R_SIZE_ENTRIES r.val ≤ wbits w 15 0 →
        Completes (.ringTailWrite q r w) s (fun t =>
          t.chip.fldq q F.hostdma_REQSTAT_LASTERR = St.RANGE ∧ t.chip.regs = c.regs))) ∧
    (∀ ty, ¬ fetches ty → ∀ v ∈ all ty, Completes v s (fun t => t = s)) ∧
    (∀ ty, fetches ty → st ty ≠ St.OK → ∀ v ∈ all ty, Completes v s (fetched (descDone (st ty)))) ∧
    (∀ ty, fetches ty → st ty = St.OK → len = 0 → ∀ v ∈ all ty, Completes v s (fetched (descDone St.OK))) ∧
    (c.fullFor len = true → st 1 = St.OK → Completes (.ringTx r q0 q1 q2 octets) s (fun t => t = s)) ∧
    (fetches 1 → st 1 = St.OK → len ≠ 0 → c.fullFor len = false →
      (octets.length < len → Completes (.ringTx r q0 q1 q2 octets) s (fun t => fetched (descDone St.UNCORR) t ∧ count 3 t)) ∧
      (len ≤ octets.length → c.fwdRec = false → c.flag F.boom_SVC_CFG_EN svc = false →
        Completes (.ringTx r q0 q1 q2 octets) s (fun t => fetched none t ∧
          t.chip.flume.txDone = c.flume.txDone ++ [(r.val, k.tags, St.NOTREADY)])) ∧
      (len ≤ octets.length → c.fwdRec = false → c.flag F.boom_SVC_CFG_EN svc = true →
        Completes (.ringTx r q0 q1 q2 octets) s (fun t => fetched none t ∧ t.chip.flume.next = c.flume.next + 1))) ∧
    (∀ n, fetches 3 → st 3 = St.OK → len ≠ 0 → qOp q1.toNat = 1 → n = mapOctets (qMap q1.toNat) len →
      (octets.length < n → Completes (.ringCopy r q0 q1 q2 octets) s (fun t => fetched (descDone St.UNCORR) t ∧ count 3 t ∧
        t.chip.dram = c.dram)) ∧
      (n ≤ octets.length → c.writeOk a len = true →
        Completes (.ringCopy r q0 q1 q2 octets) s (fun t => fetched (descDone St.OK len) t ∧
          ∀ i, i < len → t.chip.word (a + i) =
            (if qMap q1.toNat = 0 then w64In (octets.take n) else packIn len (octets.take n)).getD i 0))) ∧
    (∀ n, fetches 3 → st 3 = St.OK → len ≠ 0 → qOp q1.toNat = 2 → n = c.readable a len →
      Completes (.ringCopy r q0 q1 q2 octets) s (fun t =>
        fetched (descDone (if n < len then St.UNCORR else St.OK) n) t ∧ t.chip.dram = c.dram ∧
        .hostWrite q0.toNat (if qMap q1.toNat = 0 then w64Out (c.words a n) else packOut (c.words a n)) ∈ t.chip.out)) ∧
    (¬ fetches 4 ∨ ¬ room → Completes (.ringCapture r q0 q1 q2 changed) s (fun t => t = s)) ∧
    (fetches 4 → room → st 4 = St.OK →
      (c.rangeOk cap capLen = false →
        Completes (.ringCapture r q0 q1 q2 changed) s (fetched (descDone St.UNCORR 0 (some q2.toNat)))) ∧
      (c.rangeOk cap capLen = true →
        (qMap q1.toNat ≤ 1 → Completes (.ringCapture r q0 q1 q2 changed) s (fun t => t.chip.dram = c.dram ∧
          .hostWrite q0.toNat (if qMap q1.toNat = 0 then w64Out found else packOut found) ∈ t.chip.out ∧
          ∃ low, fetched (some (if changed = true then St.BUSY else St.OK, some q2.toNat, low)) t)) ∧
        (2 ≤ qMap q1.toNat → Completes (.ringCapture r q0 q1 q2 changed) s (fun t => t.chip.dram = c.dram ∧
          .hostWrite q0.toNat (if qMap q1.toNat = 2 then pcm24Out job.out else pcm32Out job.out) ∈ t.chip.out ∧
          t.chip.fld F.baler_U_JOBS_COUNT bu = min F.baler_U_JOBS_COUNT.top (c.fld F.baler_U_JOBS_COUNT bu + 1) ∧
          ∃ low, fetched (some (St.pick [if changed = true then St.BUSY else St.OK, job.status], some q2.toNat, low)) t)))) ∧
    (fetches 4 → room → st 4 ≠ St.OK →
      Completes (.ringCapture r q0 q1 q2 changed) s (fetched (descDone (st 4)))) ∧
    (c.ringFetches r.val = true → Completes (.hostReadTimeout r q0 q1 q2) s (fun t => fetched (descDone St.UNCORR) t ∧ count 3 t)) ∧
    (c.ringFetches r.val = false → Completes (.hostReadTimeout r q0 q1 q2) s (fun t => t = s)) ∧
    (∀ d rest x w2 low, k.fetched = d :: rest → k.discarded = false →
      (d.done = some (x, w2, low) ∨ d.done = none ∧ w2 = none ∧ low = (if x = St.OK then qLen d.q1 else 0) ∧
        c.flume.txDone.find? (fun y => y.1 == r.val && y.2.1 == d.tag) = some (r.val, d.tag, x)) →
      Completes (.descriptorComplete r) s (fun t => (at_ t).fetched.map (·.tag) = rest.map (·.tag) ∧
        .hostWrite (c.descHost r.val d.idx + (if c.ringType r.val = 1 ∨ c.ringType r.val = 3 then 24 else 16))
          (completionOctets (c.ringType r.val) d.q2 x w2 low) ∈ t.chip.out ∧
        (d.stale = false → t.chip.fld F.hostdma_R_HEAD_HEAD r.val =
          (d.idx + 1) % max 1 (c.fld F.hostdma_R_SIZE_ENTRIES r.val) % 2 ^ 16))) ∧
    (k.discarded = true → Completes (.descriptorComplete r) s (fun t => t = s)) ∧
    (k.discarded = false → (∀ d, k.fetched.head? = some d → d.done = none ∧
        c.flume.txDone.find? (fun y => y.1 == r.val && y.2.1 == d.tag) = none) →
      Completes (.descriptorComplete r) s (fun t => (at_ t).fetched.length = k.fetched.length ∧ t.chip.out = c.out ∧
        t.chip.regs = c.regs))

/-- Frames to the host, messages and management: the oldest frame at port 66 is written to its ring's descriptor, or dropped
and counted; a held or masked message is sent once its interval has ended or its vector is unmasked; the oldest management
datagram is taken, and one that fails its first check is counted (R443, R446, R448, R450 to R453). -/
def Obligations.HostFramesAndMessages : Prop :=
  ∀ (r : Fin 16) (vec : Fin 256) (descs : List (Nat × Nat)) (s : State),
    let c := s.chip
    let count (i : Nat) (t : State) : Prop :=
      t.chip.fld F.hostdma_CNT_COUNT i = min F.hostdma_CNT_COUNT.top (c.fld F.hostdma_CNT_COUNT i + 1)
    let rx (d : Delivered) : Nat := if 64 ≤ d.src then c.fld F.hostdma_CFG_DEFRX else d.dest % 16
    let sent (t : State) : Prop := c.fwdRec = false → c.flag F.boom_SVC_CFG_EN (c.fld F.hostdma_MGMT_SERVICE) = true →
      t.chip.flume.next = c.flume.next + 1
    let isMgmt (d : Delivered) : Bool := d.mgmt && match udpOf d.octets with
      | some (_, _, _, dst) => dst == c.fld F.hostdma_MGMT_UDPPORT
      | none => false
    (c.flume.toHost = [] → Completes (.ringRxFrame descs) s (fun t => t = s)) ∧
    (∀ d rest, c.flume.toHost = d :: rest →
      (c.ringOn (rx d) = false ∨ c.ringType (rx d) ≠ 2 →
        Completes (.ringRxFrame descs) s (fun t => t.chip.flume.toHost = rest ∧ count 2 t)) ∧
      (c.ringOn (rx d) = true → c.ringType (rx d) = 2 → descs = [] →
        Completes (.ringRxFrame descs) s (fun t => t.chip.flume.toHost = rest ∧
          t.chip.fld F.hostdma_R_DROPS_FRAMES (rx d) =
            min F.hostdma_R_DROPS_FRAMES.top (c.fld F.hostdma_R_DROPS_FRAMES (rx d) + 1))) ∧
      (∀ q0 q1 more, c.ringOn (rx d) = true → c.ringType (rx d) = 2 → descs = (q0, q1) :: more →
        c.ringFetches (rx d) = true → c.descStatus 2 q0 q1 0 = St.OK → qLen q1 ≠ 0 →
        Completes (.ringRxFrame descs) s (fun t => t.chip.flume.toHost = rest ∧
          .hostWrite q0 (d.octets.take (qLen q1)) ∈ t.chip.out ∧
          ∃ x w2, (t.chip.ring (rx d)).fetched = (c.ring (rx d)).fetched ++ [x] ∧
            x.done = descDone St.OK d.octets.length (some w2)))) ∧
    ((c.ring r.val).msgHeld = false → Completes (.msixModerationExpiry r) s (fun t => t = s)) ∧
    ((c.ring r.val).msgHeld = true →
      ((∀ n, (c.ring r.val).lastMsg = some n → n + c.fld F.hostdma_R_CFG_MODUS r.val * 1250 ≤ c.count) →
        Completes (.msixModerationExpiry r) s (fun t =>
          (t.chip.ring r.val).msgHeld = false ∧ (t.chip.ring r.val).lastMsg = some c.count ∧
            (c.host.funcMask = false → c.dev.d3hot = false → c.host.unmasked.testBit (c.fld F.hostdma_R_CFG_VEC r.val) = true →
              t.chip.out = .msix (c.fld F.hostdma_R_CFG_VEC r.val) :: c.out))) ∧
      (∀ n, (c.ring r.val).lastMsg = some n → c.count < n + c.fld F.hostdma_R_CFG_MODUS r.val * 1250 →
        Completes (.msixModerationExpiry r) s (fun t => (t.chip.ring r.val).msgHeld = true ∧ t.chip.out = c.out))) ∧
    (∀ fn, Completes (.msixUnmask fn vec) s (fun t =>
      t.chip.host.funcMask = (if fn = true then false else c.host.funcMask) ∧
      ∀ i, i < 256 → (t.chip.host.unmasked.testBit i = true ↔
          c.host.unmasked.testBit i = true ∨ fn = false ∧ i = vec.val) ∧
        (t.chip.host.funcMask = false → c.dev.d3hot = false → c.host.msixPending.testBit i = true →
          t.chip.host.unmasked.testBit i = true →
          .msix i ∈ t.chip.out ∧ t.chip.host.msixPending.testBit i = false) ∧
        (t.chip.host.funcMask = true ∨ c.dev.d3hot = true ∨ t.chip.host.unmasked.testBit i = false →
          t.chip.host.msixPending.testBit i = c.host.msixPending.testBit i))) ∧
    (c.live = false ∨ c.flume.toCtl.find? isMgmt = none → Completes .mgmtDatagram s (fun t => t = s)) ∧
    (∀ d, c.live = true → c.flume.toCtl.find? isMgmt = some d →
      (c.flag F.hostdma_MGMT_EN = false →
        Completes .mgmtDatagram s (fun t => t.chip.flume.toCtl = c.flume.toCtl.erase d ∧ t.chip.regs = c.regs)) ∧
      (∀ tr o sp dp, c.flag F.hostdma_MGMT_EN = true → udpOf d.octets = some (tr, o, sp, dp) →
        let pay := (d.octets.drop (o + 8)).take (be16 d.octets (o + 4) - 8)
        let key := at8 pay 2
        let body := pay.take (pay.length - 32)
        let seq := ofBeOctets ((pay.drop 4).take 8)
        (c.mgmtFormatOk pay = false →
          Completes .mgmtDatagram s (fun t => t.chip.flume.toCtl = c.flume.toCtl.erase d ∧ count 4 t)) ∧
        (c.mgmtFormatOk pay = true →
          (hmac256 (Cells.get [] key c.host.keys) body ≠ pay.drop (pay.length - 32) →
            Completes .mgmtDatagram s (fun t => t.chip.flume.toCtl = c.flume.toCtl.erase d ∧ count 5 t)) ∧
          (hmac256 (Cells.get [] key c.host.keys) body = pay.drop (pay.length - 32) → seq / 2 ^ 32 = c.fault.epoch →
            seq % 2 ^ 32 ≤ Cells.get 0 key c.host.seqs →
            Completes .mgmtDatagram s (fun t => t.chip.flume.toCtl = c.flume.toCtl.erase d ∧ count 6 t)) ∧
          (hmac256 (Cells.get [] key c.host.keys) body = pay.drop (pay.length - 32) → seq / 2 ^ 32 ≠ c.fault.epoch →
            Completes .mgmtDatagram s (fun t => t.chip.flume.toCtl = c.flume.toCtl.erase d ∧ t.chip.host = c.host ∧ sent t)) ∧
          (hmac256 (Cells.get [] key c.host.keys) body = pay.drop (pay.length - 32) → seq / 2 ^ 32 = c.fault.epoch →
            Cells.get 0 key c.host.seqs < seq % 2 ^ 32 →
            (at8 pay 3 = 0 → Completes .mgmtDatagram s (fun t => t.chip.flume.toCtl = c.flume.toCtl.erase d ∧
              Cells.get 0 key t.chip.host.seqs = seq % 2 ^ 32 ∧ sent t)) ∧
            (∀ x, x = ((c.modFlume (fun x => { x with toCtl := x.toCtl.erase d })).modHost
                (fun h => { h with seqs := Cells.set 0 key (seq % 2 ^ 32) h.seqs })).mgmtOps (groupsOf 16 (at8 pay 3) (body.drop 32)) →
              Completes .mgmtDatagram s (fun t => t.chip.host = x.2.host ∧ t.chip.dram = x.2.dram))))))

/-! ## Modes, faults and RECOVERY (R476 to R492) -/

/-- A mode request: refused with the status of its check, in the requester's own register, with nothing else changed;
otherwise the base mode changes with the mode reported, or RECOVERY of the requested domains begins (R476 to R479, Table
19.2). -/
def Obligations.ModeRequests : Prop :=
  ∀ (q : Requester) (s : State), s.chip.answers q = true → Cells.find? q.idx s.chip.host.held = none →
    let c := s.chip
    let asks (r : Nat) (v : Instr) : Prop := (r = 1 ∧ v = .requestRun q) ∨ (r = 2 ∧ v = .requestEco q) ∨ (r = 3 ∧ v = .requestDrain q) ∨
      (r = 4 ∧ v = .requestTest q) ∨ (r = 5 ∧ v = .recoverChannel q) ∨ (r = 6 ∧ v = .recoverForwarding q) ∨
      (r = 7 ∧ v = .recoverBoth q) ∨ (r = 8 ∧ v = .stepRequest q)
    let base (b : Nat) (t : State) : Prop := t.chip.base = b ∧ t.chip.mode =
      (if (b = Md.RUN ∨ b = Md.ECO) ∧ c.fld F.time_STATUS_STATE = 3 then Md.HOLDOVER else b)
    let recovers (i : Nat) (t : State) : Prop := t.chip.mode = Md.RECOVERY ∧ t.chip.base = c.base ∧
      t.chip.fld F.fault_CNT_COUNT i = min F.fault_CNT_COUNT.top (c.fld F.fault_CNT_COUNT i + 1)
    (∀ r v, asks r v → c.modeStatus r ≠ St.OK →
      Completes v s (fun t => t.chip.fldq q F.fault_REQSTAT_LASTERR = c.modeStatus r ∧ t.chip.regs = c.regs ∧
        t.chip.chans = c.chans ∧ t.chip.flume = c.flume)) ∧
    (c.modeStatus 1 = St.OK → Completes (.requestRun q) s (base Md.RUN)) ∧
    (c.modeStatus 2 = St.OK → Completes (.requestEco q) s (base Md.ECO)) ∧
    (c.modeStatus 3 = St.OK → Completes (.requestDrain q) s (base Md.DRAIN)) ∧
    (c.modeStatus 4 = St.OK → Completes (.requestTest q) s (base Md.TEST)) ∧
    (c.modeStatus 5 = St.OK → Completes (.recoverChannel q) s (fun t => t.chip.chanRec = true ∧ recovers 2 t)) ∧
    (c.modeStatus 6 = St.OK → Completes (.recoverForwarding q) s (fun t => t.chip.fwdRec = true ∧ recovers 3 t)) ∧
    (c.modeStatus 7 = St.OK →
      Completes (.recoverBoth q) s (fun t => t.chip.chanRec = true ∧ t.chip.fwdRec = true ∧ recovers 4 t)) ∧
    (c.modeStatus 8 = St.OK →
      Completes (.stepRequest q) s (fun t => t.chip.chanRec = true ∧ t.chip.fwdRec = true ∧ recovers 4 t ∧
        t.chip.fld F.fault_LAST0_SOURCE = 3 ∧ t.chip.fld F.time_STATUS_ARMED = 1))

/-- A fatal fault counts by its class, leaves its source, class and time in FAULT.LAST and puts its domain, or both, into
RECOVERY, which discards the domain's work; RECOVERY goes from Flush to Check to completion, and its end clears RECOVERING
(R481 to R485, Tables 19.4 to 19.6). The fault-record area: a queued entry is written to the active half with the next SEQ;
the erase of the other half ends; a fall of PFAIL_N counts, and writes its entry ahead of the queue but for a second fall
within a millisecond; before the scan of TRAIN has ended it is ignored (R487 to R491). -/
def Obligations.FaultsRecoveryAndRecords : Prop :=
  (∀ (src : Fin 64) (chan bad : Bool) (s : State),
    let c := s.chip
    let cls := faultClass src.val chan
    let rec_ (d : Bool) (t : State) : Bool := if d = true then t.chip.chanRec else t.chip.fwdRec
    let phase (t : State) : RecPhase := (t.chip.recSt chan).phase
    let count (i : Nat) (t : State) : Prop :=
      t.chip.fld F.fault_CNT_COUNT i = min F.fault_CNT_COUNT.top (c.fld F.fault_CNT_COUNT i + 1)
    (c.live = false ∨ src.val = 0 ∨ 0xC < src.val → Completes (.fatalFault src chan) s (fun t => t = s)) ∧
    (c.live = true → 1 ≤ src.val → src.val ≤ 0xC →
      Completes (.fatalFault src chan) s (fun t =>
        t.chip.fld F.fault_LAST0_SOURCE = src.val ∧ t.chip.fld F.fault_LAST0_CLASS = cls ∧
          count (if cls = 4 then 4 else if cls = 3 then 2 else 3) t ∧
          (cls = 3 ∨ cls = 4 → rec_ true t = true ∧ t.chip.slots = [] ∧ t.chip.fault.chan.phase = .flush ∧
            ∀ k, k < 96 → (t.chip.core k).item = none ∧ (t.chip.core k).wait = .take) ∧
          (cls = 2 ∨ cls = 4 → rec_ false t = true ∧ t.chip.fault.fwd.phase = .flush) ∧
          (cls = 2 → rec_ true t = c.chanRec) ∧ (cls = 3 → rec_ false t = c.fwdRec))) ∧
    (phase s = .flush → Completes (.recoveryFlushEnd chan) s (fun t => phase t = .check ∧ t.chip.regs = c.regs)) ∧
    (phase s ≠ .flush → Completes (.recoveryFlushEnd chan) s (fun t => t = s)) ∧
    (phase s = .check → bad = false →
      Completes (.recoveryCheckEnd chan bad) s (fun t => phase t = .complete ∧ t.chip.regs = c.regs ∧
        (chan = true → ∀ a, c.upset (.mixCell a) = true → t.chip.cell a = 0 ∧ t.chip.upset (.mixCell a) = false))) ∧
    (phase s = .check → bad = true → c.live = false → Completes (.recoveryCheckEnd chan bad) s (fun t => t = s)) ∧
    (phase s = .check → bad = true → c.live = true →
      Completes (.recoveryCheckEnd chan bad) s (fun t => phase t = .flush ∧ rec_ chan t = true ∧
        t.chip.fld F.fault_LAST0_SOURCE = 0x0E)) ∧
    (phase s ≠ .check → Completes (.recoveryCheckEnd chan bad) s (fun t => t = s)) ∧
    (phase s = .complete →
      Completes (.recoveryComplete chan) s (fun t => phase t = .none ∧ rec_ chan t = false ∧
        t.chip.flag F.fault_EVENT_RECDONE = true ∧ rec_ (!chan) t = rec_ (!chan) s ∧
        (c.live = true → t.chip.mode = t.chip.reportedMode))) ∧
    (phase s ≠ .complete → Completes (.recoveryComplete chan) s (fun t => t = s))) ∧
  (∀ (s : State),
    let c := s.chip
    let half (h : Nat) (t : State) : List FaultEntry := t.chip.fault.half h
    let act := c.activeHalf
    let count (i : Nat) (t : State) : Prop :=
      t.chip.fld F.fault_CNT_COUNT i = min F.fault_CNT_COUNT.top (c.fld F.fault_CNT_COUNT i + 1)
    (∀ e rest, c.fault.queue = e :: rest → e.ty ≠ 6 → c.freeEntries ≠ 0 →
      Completes .faultRecordWritten s (fun t => t.chip.fault.queue = rest ∧ t.chip.fault.seq = (c.fault.seq + 1) % 2 ^ 32 ∧
        half act t = half act s ++ [{ e with seq := (c.fault.seq + 1) % 2 ^ 32 }] ∧ t.chip.count = c.count)) ∧
    (∀ e rest, c.fault.queue = e :: rest → e.ty = 6 → c.freeEntries ≠ 0 →
      Completes .faultRecordWritten s (fun t => t.chip.mode = Md.HELD ∧ t.chip.count = 0 ∧ t.chip.dev.released = false)) ∧
    (c.fault.queue = [] ∨ c.freeEntries = 0 → Completes .faultRecordWritten s (fun t => t = s)) ∧
    (c.flag F.fault_FLASH_ERASING = true → c.freeEntries ≠ 0 →
      Completes .flashHalfErased s (fun t => half (1 - act) t = [] ∧ half act t = half act s ∧
        t.chip.flag F.fault_FLASH_ERASING = false)) ∧
    (c.flag F.fault_FLASH_ERASING = false → Completes .flashHalfErased s (fun t => t = s)) ∧
    (c.fault.scanned = false →
      Completes .pfailNFall s (fun t => t = { s with chip := { c with dev := { c.dev with pfailN := false } } })) ∧
    (c.fault.scanned = true → (∀ n, c.fault.lastPfail = some n → n + 1250000 ≤ c.count) →
      (c.freeEntries ≠ 0 →
        Completes .pfailNFall s (fun t => count 5 t ∧ t.chip.flag F.fault_EVENT_PFAIL = true ∧
          t.chip.fault.lastPfail = some c.count ∧ t.chip.fault.pfails = 0 ∧ t.chip.fault.queue = c.fault.queue ∧
          ∃ e, half act t = half act s ++ [e] ∧ e.ty = 4)) ∧
      (c.freeEntries = 0 →
        Completes .pfailNFall s (fun t => count 5 t ∧ count 6 t ∧ t.chip.flag F.fault_EVENT_PFAIL = true ∧
          t.chip.fault.pfails = c.fault.pfails + 1 ∧ half act t = half act s ∧ t.chip.fault.queue = c.fault.queue))) ∧
    (∀ n, c.fault.scanned = true → c.fault.lastPfail = some n → c.count < n + 1250000 →
      Completes .pfailNFall s (fun t => count 5 t ∧ t.chip.fault.pfails = c.fault.pfails + 1 ∧
        half act t = half act s ∧ t.chip.fault.queue = c.fault.queue)))

/-! ## The Ranger (R493 to R501) -/

/-- The Ranger's samples and steps: readings stand in their registers; the throttle and the power cap lower the operating
point of one charged cluster at their own pace and give the steps back; a change completes; an idle group follows its
utilisation and an idle cluster is gated; the trip threshold read twice puts the device into HELD; a converter's fault
counts (R493 to R500). -/
def Obligations.RangerControl : Prop :=
  ∀ (temps : List Int) (doms uses : List Nat) (total : Nat) (g : Fin 13) (faults : List Bool) (s : State),
    let c := s.chip
    let g0 := c.ranger
    let opp (k : Nat) (t : State) : Nat := t.chip.oppOf k
    (Completes (.sensorSample temps doms total) s (fun t =>
      (∀ i, i < 64 → t.chip.fld F.ranger_TEMP_TEMP i = unsignedOf 12 (temps.getD i 0)) ∧
        (∀ i, i < 18 → t.chip.fld F.ranger_DOMPWR_MW i = doms.getD i 0 % F.ranger_DOMPWR_MW.top.succ) ∧
        t.chip.fld F.ranger_POWER_MW = total % F.ranger_POWER_MW.top.succ ∧
        t.chip.fld F.ranger_TMAX_TEMP = unsignedOf 12 t.chip.tmax ∧
        (c.live = true → 840 ≤ t.chip.tmax → t.chip.flag F.ranger_STATUS_THROTTLE = true))) ∧
    (c.live = false ∨ c.tmax < 840 ∨ c.spaced g0.lastThrottle 1250000 = false ∨ c.throttled = none →
      Completes .throttleStep s (fun t => t = s)) ∧
    (∀ k, c.live = true → 840 ≤ c.tmax → c.spaced g0.lastThrottle 1250000 = true → c.throttled = some k →
      Completes .throttleStep s (fun t => opp k t = opp k s + 1 ∧ t.chip.ranger.lastThrottle = some c.count ∧
        Cells.get 0 k t.chip.ranger.thrSteps = Cells.get 0 k g0.thrSteps + 1 ∧ ∀ j, j ≠ k → opp j t = opp j s)) ∧
    (c.live = false ∨ g0.coolSince = none ∨ c.spaced g0.coolSince 12500000 = false ∨
        g0.thrSteps = [] →
      Completes .throttleRestore s (fun t => t = s)) ∧
    (∀ k, c.live = true → g0.coolSince ≠ none → c.spaced g0.coolSince 12500000 = true →
      pickMost (fun k => Cells.get 0 k g0.thrSteps) (g0.thrSteps.map (·.1)) = some k →
      Completes .throttleRestore s (fun t => opp k t = opp k s - 1 ∧
        Cells.get 0 k t.chip.ranger.thrSteps = Cells.get 0 k g0.thrSteps - 1 ∧ t.chip.ranger.coolSince = some c.count ∧
        (∀ j, j ≠ k → opp j t = opp j s) ∧
        (t.chip.ranger.thrSteps = [] → c.tmax < 840 → t.chip.flag F.ranger_STATUS_THROTTLE = false))) ∧
    (c.live = false ∨ c.fld F.ranger_POWER_MW ≤ c.fld F.ranger_POL0_TDPCAP * 1000 ∨ c.spaced g0.lastCap 12500000 = false ∨
        c.lowerable = [] →
      Completes .tdpCapStep s (fun t => t = s)) ∧
    (∀ k, c.live = true → c.fld F.ranger_POL0_TDPCAP * 1000 < c.fld F.ranger_POWER_MW → c.spaced g0.lastCap 12500000 = true →
      pickMost (fun k => c.fld F.ranger_DOMPWR_MW k) c.lowerable = some k →
      Completes .tdpCapStep s (fun t => opp k t = opp k s + 1 ∧ t.chip.ranger.lastCap = some c.count ∧
        t.chip.flag F.ranger_STATUS_CAP = true ∧ ∀ j, j ≠ k → opp j t = opp j s)) ∧
    (c.live = false ∨ g0.capCool = none ∨ c.spaced g0.capCool 125000000 = false ∨
        g0.capSteps = [] →
      Completes .tdpCapRestore s (fun t => t = s)) ∧
    (∀ k, c.live = true → g0.capCool ≠ none → c.spaced g0.capCool 125000000 = true →
      pickMost (fun k => c.oppOf k) (g0.capSteps.map (·.1)) = some k →
      Completes .tdpCapRestore s (fun t => opp k t = opp k s - 1 ∧ t.chip.ranger.capCool = some c.count ∧
        Cells.get 0 k t.chip.ranger.capSteps = Cells.get 0 k g0.capSteps - 1 ∧ (∀ j, j ≠ k → opp j t = opp j s) ∧
        (t.chip.ranger.capSteps = [] → t.chip.flag F.ranger_STATUS_CAP = false))) ∧
    (∀ p, Cells.find? g.val g0.changing = some p → p < 8 →
      Completes (.oppChangeComplete g) s (fun t => t.chip.fld F.ranger_OPP_OPP g.val = p ∧
        Cells.find? g.val t.chip.ranger.changing = none)) ∧
    (Cells.find? g.val g0.changing = none → Completes (.oppChangeComplete g) s (fun t => t = s)) ∧
    (c.live = false → Completes (.utilisationPeriod uses) s (fun t => t = s)) ∧
    (c.live = true → Completes (.utilisationPeriod uses) s (fun t => ∀ k, k < 13 →
      (opp k s = 4 ∨ k < 12 ∧ c.charged k = true → opp k t = opp k s) ∧ ((k < 12 → c.charged k = false) → opp k s ≠ 4 →
      (c.fld F.ranger_POL3_UPTHR ≤ uses.getD k 0 → opp k t = opp k s - 1 ∧ Cells.get 0 k t.chip.ranger.downRun = 0) ∧
      (c.fld F.ranger_POL3_DOWNTHR < uses.getD k 0 → uses.getD k 0 < c.fld F.ranger_POL3_UPTHR →
        opp k t = opp k s ∧ Cells.get 0 k t.chip.ranger.downRun = 0) ∧
      (uses.getD k 0 ≤ c.fld F.ranger_POL3_DOWNTHR → uses.getD k 0 < c.fld F.ranger_POL3_UPTHR →
        (Cells.get 0 k g0.downRun + 1 < 10 → opp k t = opp k s ∧
          Cells.get 0 k t.chip.ranger.downRun = Cells.get 0 k g0.downRun + 1) ∧
        (10 ≤ Cells.get 0 k g0.downRun + 1 → opp k t = min (if k = 12 then 2 else 3) (opp k s + 1)))))) ∧
    (∀ k n, k < 12 → Cells.find? k g0.idleSince = some n → c.fld F.ranger_OPP_OPP k = 3 → c.charged k = false →
      c.readyLen k = 0 → (c.fld F.ranger_POL2_GATEOK).testBit k = true → n + 12500000 ≤ c.count → c.live = true →
      Completes .clusterGate s (fun t => t.chip.fld F.ranger_OPP_OPP k = 4 ∧
        (t.chip.fld F.ranger_STATUS_GATED).testBit k = true)) ∧
    ((∀ k n, Cells.find? k g0.idleSince = some n → c.count < n + 12500000) ∨ c.live = false →
      Completes .clusterGate s (fun t => t = s)) ∧
    (g0.trip = true → c.mode ≠ Md.HELD → c.mode ≠ Md.OFF →
      Completes .thermalTrip s (fun t => t.chip.mode = Md.HELD ∧ t.chip.dev.tripHeld = true ∧ t.chip.dev.thermtripN = false ∧
        t.chip.dev.released = false ∧ t.chip.count = 0)) ∧
    (g0.trip = false ∨ c.mode = Md.HELD ∨ c.mode = Md.OFF → Completes .thermalTrip s (fun t => t = s)) ∧
    (∀ i, c.live = true → i < 4 → (c.fld F.ranger_POL4_LIST).testBit (8 * i + 7) = true → faults.getD i false = true →
      Completes (.pmbAlert faults) s (fun t => t.chip.flag F.ranger_EVENT_PMBUS = true ∧
        t.chip.fld F.fault_CNT_COUNT 0 = min F.fault_CNT_COUNT.top (c.fld F.fault_CNT_COUNT 0 + 1))) ∧
    (c.live = false ∨ (∀ i, i < 4 → faults.getD i false = false) → Completes (.pmbAlert faults) s (fun t => t = s))

/-! ## Rails, reset, bring-up and the image (R454 to R475, R515, R516) -/

/-- Rails and resets: OFF and HELD follow the rails; a fall of RESET_N or PWROK abandons everything but the flash, the fuses
and the board's levels; bring-up starts from HELD and goes through FUSE and LOAD to the image of its slot (R454 to R460,
R464, R465, R477). -/
def Obligations.RailsAndBringup : Prop :=
  ∀ (pw cool sfdp : Bool) (sel : Fin 4) (mib : Nat) (s : State),
    let c := s.chip
    let mode (t : State) : Nat := t.chip.mode
    let blank (t : State) : Prop := t.chip.dev.released = false ∧ t.chip.count = 0 ∧ t.chip.dram = [] ∧ t.chip.cores = [] ∧
      t.chip.chans = [] ∧ t.chip.boot.burned = c.boot.burned ∧ t.chip.fault.half0 = c.fault.half0 ∧ t.chip.fault.half1 = c.fault.half1
    (mode s = Md.OFF → Completes .railsRise s (fun t => mode t = Md.HELD ∧ t.chip.dev.rails = true)) ∧
    (mode s ≠ Md.OFF → Completes .railsRise s (fun t => t = s)) ∧
    (mode s = Md.HELD → c.dev.pwrok = false →
      Completes .railsFall s (fun t => mode t = Md.OFF ∧ t.chip.dev.rails = false ∧ t.chip.boot.burned = c.boot.burned)) ∧
    (mode s ≠ Md.HELD ∨ c.dev.pwrok = true → Completes .railsFall s (fun t => t = s)) ∧
    (mode s ≠ Md.OFF →
      Completes (.resetOrPwrokFall pw) s (fun t => mode t = Md.HELD ∧ blank t ∧ (pw = true → t.chip.dev.pwrok = false) ∧
        (pw = false → t.chip.dev.resetN = false) ∧ t.chip.dev.perstN = c.dev.perstN)) ∧
    (mode s = Md.OFF → Completes (.resetOrPwrokFall pw) s (fun t => t.chip.regs = c.regs ∧ t.chip.boot = c.boot ∧
      (if pw = true then t.chip.dev.pwrok else t.chip.dev.resetN) = false)) ∧
    (mode s = Md.HELD → c.dev.rails = true → c.dev.tripHeld = false ∨ cool = true →
      Completes (.bringupStart sel cool) s (fun t => mode t = Md.FUSE ∧ blank t ∧ t.chip.boot.phase = .fuse ∧
        t.chip.boot.bootsel = sel.val ∧ t.chip.boot.slot = (if sel.val = 1 then 1 else 0) ∧ t.chip.dev.pwrok = true ∧
        t.chip.dev.resetN = true)) ∧
    (mode s ≠ Md.HELD ∨ c.dev.rails = false ∨ (c.dev.tripHeld = true ∧ cool = false) →
      Completes (.bringupStart sel cool) s (fun t => t = s)) ∧
    (c.boot.phase = .fuse → Completes .fuseReadComplete s (fun t => mode t = Md.LOAD ∧ t.chip.boot.phase = .flash)) ∧
    (c.boot.phase ≠ .fuse → Completes .fuseReadComplete s (fun t => t = s)) ∧
    (c.boot.phase = .flash → sfdp = true → 256 ≤ mib →
      Completes (.flashSetupComplete sfdp mib) s (fun t => t.chip.boot.phase = .header ∧ t.chip.regs = c.regs)) ∧
    (c.boot.phase = .flash → sfdp = false ∨ mib < 256 →
      Completes (.flashSetupComplete sfdp mib) s (fun t => mode t = Md.HELD ∧ blank t)) ∧
    (c.boot.phase ≠ .flash → Completes (.flashSetupComplete sfdp mib) s (fun t => t = s))

/-- The image of a slot: its header, its records in order and its signature are checked before anything is applied; then
pass 1, the cross-field checks, training and pass 2; a failure resets the blocks for the next slot, or ends in HELD when
none is left; the scan of the fault-record area ends in TRAIN (R463 to R472, R488). -/
def Obligations.ImageChecks : Prop :=
  ∀ (octets : List Octet) (ok : Bool) (s : State),
    let c := s.chip
    let b := c.boot
    let boot (t : State) : BootSt := t.chip.boot
    let failed (st off : Nat) (t : State) : Prop := (boot t).phase = .reset ∧ t.chip.regs = c.regs ∧
      Cells.find? b.slot (boot t).tries = some ⟨st, off⟩
    let off := b.image.length
    let len := recordLen (leAt octets 4 4)
    let ty := leAt octets 0 2
    let good : Prop := octets.length = len ∧ off + len ≤ b.total ∧ leAt octets (len - 4) 4 = crc32c (octets.take (len - 4)) ∧
      (ty < 0x8000 → 1 ≤ ty ∧ ty ≤ 0xD) ∧ b.nread < b.nrec
    let be (a n : Nat) : Nat := ofBeOctets ((octets.drop a).take n)
    let signed : Prop := c.fuse 2520 = true ∧ ofLeOctets (sha384 (octets.take 97)) = c.fuses 2136 384 ∧ octets.headD 0 = 4 ∧
      ecdsa384 (be 1 48) (be 49 48) (be 97 48) (be 145 48) (sha384 b.image) = true
    (b.phase = .header → headerOk octets = false → Completes (.imageHeader octets) s (failed St.FORMAT 0)) ∧
    (b.phase = .header → headerOk octets = true → leAt octets 12 4 ≠ 64 →
      Completes (.imageHeader octets) s (fun t => (boot t).phase = .records ∧ (boot t).image = octets ∧
        (boot t).total = leAt octets 12 4 ∧ (boot t).rollback = leAt octets 16 8 ∧ (boot t).nrec = leAt octets 24 4 ∧
        (boot t).build = leAt octets 28 4 ∧ (boot t).nread = 0)) ∧
    (b.phase ≠ .header → Completes (.imageHeader octets) s (fun t => t = s)) ∧
    (b.phase = .records → ¬ good → Completes (.imageRecordRead octets) s (failed St.FORMAT off)) ∧
    (b.phase = .records → good → off + len ≠ b.total →
      Completes (.imageRecordRead octets) s (fun t => (boot t).phase = .records ∧ (boot t).image = b.image ++ octets ∧
        (boot t).nread = b.nread + 1 ∧
        (∀ r, r = { ty := ty, off := off, payload := (octets.drop 8).take (leAt octets 4 4) } →
          (boot t).pass1 = (if ty ≤ 9 then b.pass1 ++ [r] else b.pass1) ∧
          (boot t).pass2 = (if 0xA ≤ ty ∧ ty ≤ 0xD then b.pass2 ++ [r] else b.pass2)))) ∧
    (b.phase ≠ .records → Completes (.imageRecordRead octets) s (fun t => t = s)) ∧
    (b.phase = .signature → ¬ signed → Completes (.signatureBlock octets) s (failed St.AUTH b.total)) ∧
    (b.phase = .signature → signed → b.rollback < c.rollValue →
      Completes (.signatureBlock octets) s (failed St.ROLLBACK b.total)) ∧
    (b.phase = .signature → signed → c.rollValue ≤ b.rollback →
      Completes (.signatureBlock octets) s (fun t => (boot t).phase = .pass1 ∧ t.chip.regs = c.regs)) ∧
    (b.phase ≠ .signature → Completes (.signatureBlock octets) s (fun t => t = s)) ∧
    (b.phase = .pass1 → b.pass1 = [] → c.crossStatus = St.OK →
      Completes .pass1Complete s (fun t => (boot t).phase = .train ∧ t.chip.mode = Md.TRAIN)) ∧
    (b.phase = .pass1 → b.pass1 = [] → c.crossStatus ≠ St.OK →
      Completes .pass1Complete s (failed c.crossStatus 0xFFFFFFFF)) ∧
    (b.phase ≠ .pass1 ∨ b.pass1 ≠ [] → Completes .pass1Complete s (fun t => t = s)) ∧
    (b.phase = .train → ok = true →
      Completes (.trainingComplete ok) s (fun t => (boot t).phase = .pass2 ∧
        t.chip.fld F.mc_STATUS_TRAINED = (2 ^ (2 * 2 ^ (c.fld F.mc_CFG_CHANNELS + 1)) - 1) % 2 ^ 16)) ∧
    (b.phase = .train → ok = false →
      Completes (.trainingComplete ok) s (fun t => t.chip.mode = Md.HELD ∧ t.chip.count = 0 ∧ t.chip.dram = [])) ∧
    (b.phase ≠ .train → Completes (.trainingComplete ok) s (fun t => t = s)) ∧
    (∀ x rest, b.phase = .reset → b.left = x :: rest →
      Completes .slotResetComplete s (fun t => (boot t).phase = .header ∧ (boot t).slot = x ∧ (boot t).left = rest ∧
        (boot t).tries = b.tries ∧ (boot t).image = [] ∧ t.chip.mode = Md.LOAD ∧ t.chip.count = c.count ∧ t.chip.dram = c.dram)) ∧
    (b.phase = .reset → b.left = [] →
      Completes .slotResetComplete s (fun t => t.chip.mode = Md.HELD ∧ t.chip.count = 0 ∧ (boot t).burned = b.burned)) ∧
    (b.phase ≠ .reset → Completes .slotResetComplete s (fun t => t = s)) ∧
    (c.mode = Md.TRAIN → c.fault.scanned = false →
      Completes .faultAreaScanEnd s (fun t => t.chip.fault.scanned = true ∧ t.chip.mode = Md.TRAIN)) ∧
    (c.mode ≠ Md.TRAIN ∨ c.fault.scanned = true → Completes .faultAreaScanEnd s (fun t => t = s))

/-- The records of the image, each applied in its pass when it stands at the head of its list: one that passes its checks
has its effect and leaves the list; one that fails them fails the slot at its place with its status; with any other record
at the head, or in another phase, nothing happens (R175, R268, R269, R469 to R471, R501, R515). -/
def Obligations.ImageRecords : Prop :=
  ∀ (s : State) (r : BootRec) (rest : List BootRec),
    let c := s.chip
    let l := r.payload
    let two : Instr → Bool
      | .dramzeroRecord => true
      | .dramfillRecord => true
      | .v6addrRecord => true
      | .flowsRecord => true
      | _ => false
    let check : Instr → Option (Nat × Nat)
      | .regsRecord => some (1, (c.regsRecord l).1)
      | .programRecord => some (2, (c.programRecord l).1)
      | .patchRecord => some (3, (c.patchRecord l).1)
      | .customRecord => some (4, (c.customRecord l).1)
      | .tonesetRecord => some (5, (c.tonesetRecord l).1)
      | .kerfsetRecord => some (6, (c.kerfsetRecord l).1)
      | .mgmtkeyRecord => some (7, (c.mgmtkeyRecord l).1)
      | .bootRecord => some (8, (c.bootRecord l).1)
      | .rangerRecord => some (9, (c.rangerRecord l).1)
      | .dramzeroRecord => some (10, (c.dramzeroRecord l).1)
      | .dramfillRecord => some (11, (c.dramfillRecord l).1)
      | .v6addrRecord => some (12, (c.v6addrRecord l).1)
      | .flowsRecord => some (13, (c.flowsRecord l).1)
      | _ => none
    let phase (v : Instr) : BootPhase := if two v = true then .pass2 else .pass1
    let pass (v : Instr) (b : BootSt) : List BootRec := if two v = true then b.pass2 else b.pass1
    let es4 := (entriesOf 4 l).map (fun e => leAt e 0 4)
    let n8 := leAt l 8 4
    ∀ v ty st, check v = some (ty, st) →
      (c.boot.phase ≠ phase v → Completes v s (fun t => t = s)) ∧
      (c.boot.phase = phase v → pass v c.boot = r :: rest →
        (r.ty ≠ ty → Completes v s (fun t => t = s)) ∧
        (r.ty = ty → st ≠ St.OK →
          Completes v s (fun t => t.chip.boot.phase = .reset ∧ Cells.find? c.boot.slot t.chip.boot.tries = some ⟨st, r.off⟩)) ∧
        (r.ty = ty → st = St.OK →
          Completes v s (fun t => t.chip.boot.phase = phase v ∧ pass v t.chip.boot = rest ∧
            (v = .regsRecord → t.chip.regs = (Chip.inOrder Chip.regsEntry (entriesOf 12 l) c).2.regs) ∧
            (v = .programRecord → ∀ i m, i < n8 → (if leAt l 0 1 = 0 then m < 12 else m = 12) →
              Cells.find? (m * 2 ^ 18 + leAt l 4 4 + i) t.chip.boot.prog = some ((packIn n8 (l.drop 12)).getD i 0)) ∧
            (v = .patchRecord → t.chip.boot.patches = c.boot.patches ++ (entriesOf 8 l).map (fun e => (leAt e 0 4, leAt e 4 4))) ∧
            (v = .customRecord → ∃ x, Cells.find? (leAt l 0 1) t.chip.customs = some x ∧ x.entry = leAt l 8 4 ∧ x.load = leAt l 4 4 ∧
              x.mask = leAt l 1 1 ∧ x.cost = leAt l 12 4 ∧ x.state = leAt l 16 4 ∧ ∀ i m, i < leAt l 20 4 → m < 12 →
                Cells.find? (m * 2 ^ 18 + leAt l 4 4 + i) t.chip.boot.prog = some ((packIn (leAt l 20 4) (l.drop 24)).getD i 0)) ∧
            (v = .kerfsetRecord → c.setInUse (leAt l 0 1) (leAt l 1 1) = false →
              t.chip.setHdr (leAt l 0 1) (leAt l 1 1) = ⟨leAt l 4 8 % 2 ^ 7, leAt l 4 8 / 2 ^ 7 % 2 ^ 7, leAt l 4 8 / 2 ^ 14 % 2 ^ 12⟩ ∧
              ∀ i, i < leAt l 12 4 → Cells.get 0 ((leAt l 0 1 * 16 + leAt l 1 1) * 4096 + i) t.chip.kerf.coefs =
                wput ((packIn (leAt l 12 4) (l.drop 16)).getD i 0) 35 24 0) ∧
            (v = .tonesetRecord →
              Cells.find? (wbits ((packIn 33 l).getD 0 0) 35 30) t.chip.tonesets = some (packIn 33 l)) ∧
            (v = .mgmtkeyRecord → Cells.find? (leAt l 0 1) t.chip.host.keys = some (l.drop 4)) ∧
            (v = .bootRecord → t.chip.boot.entries = some es4) ∧
            (v = .rangerRecord → ∀ p ∈ polRegs.zip (packIn 16 l), t.chip.rd p.1 = p.2) ∧
            (v = .dramzeroRecord → ∀ x, leAt l 0 8 * 16 ≤ x → x < (leAt l 0 8 + leAt l 8 8) * 16 → t.chip.word x = 0) ∧
            (v = .dramfillRecord → ∀ i, i < n8 → t.chip.word (leAt l 0 8 * 16 + i) = (packIn n8 (l.drop 12)).getD i 0) ∧
            (v = .v6addrRecord → ∀ a e b, entriesOf 20 l = a ++ e :: b → (∀ x ∈ b, leAt x 0 4 ≠ leAt e 0 4) →
              Cells.find? (leAt e 0 4) t.chip.flume.v6 = some (ofBeOctets (e.drop 4))) ∧
            (v = .flowsRecord → ∀ a e, entriesOf 36 l = a ++ [e] →
              ∃ a ∈ c.entryAddrs ((packIn 8 e).take 5), t.chip.words a 8 = packIn 8 e))))

/-- RELEASE: with pass 2 done and the fault-record area scanned, the device is released into ACQUIRE with the time unit
armed, or into TEST; the boot epoch advances, never to 0; the control cores start at their BOOT entries in supervisor mode
and the channel cores in TAKE; a rollback value above the fused one is programmed into a free slot when the image asks for
it (R49, R261, R452, R462, R473, R516). -/
def Obligations.Release : Prop :=
  ∀ (s : State),
    let c := s.chip
    let b := c.boot
    (b.phase ≠ .pass2 ∨ b.pass2 ≠ [] ∨ c.fault.scanned = false → Completes .release s (fun t => t = s)) ∧
    (b.phase = .pass2 → b.pass2 = [] → c.fault.scanned = true →
      Completes .release s (fun t =>
        t.chip.dev.released = true ∧ t.chip.boot.phase = .done ∧ t.chip.count = c.count ∧
        t.chip.mode = (if b.bootsel = 3 then Md.TEST else Md.ACQUIRE) ∧ t.chip.base = t.chip.mode ∧
        t.chip.fld F.time_STATUS_ARMED = (if b.bootsel = 3 then 0 else 1) ∧
        t.chip.fault.epoch = nextEpoch c.fault.epoch ∧ t.chip.fault.epoch ≠ 0 ∧
        (∀ k, k < 4 → (t.chip.core (96 + k)).pc = (b.entries.getD []).getD k 0 ∧ (t.chip.core (96 + k)).sup = true ∧
          (t.chip.core (96 + k)).wait = .run) ∧
        (∀ k, k < 96 → (t.chip.core k).wait = .take ∧ (t.chip.core k).item = none) ∧
        (b.rollFwd = false ∨ b.rollback ≤ c.rollValue → t.chip.boot.burned = b.burned) ∧
        (∀ j, b.rollFwd = true → c.rollValue < b.rollback → (List.range 32).find? (fun j => !c.rollUsed j) = some j →
          t.chip.boot.burned = b.burned ++ rollBits j b.rollback)))

/-! ## The test port, and the state after reset (R461, R477, R508) -/

/-- The test port: JTAG_TRST_N low holds the TAP in Test-Logic-Reset with IDCODE; a rising edge of JTAG_TCK moves the TAP,
and captures IDCODE or shifts a register by one bit; a falling one drives JTAG_TDO in the shift states alone; provisioning
programs bits of KEYHASH, KEYSET and DBGLOCK while KEYSET is 0; and five edges with JTAG_TMS high reach Test-Logic-Reset
(R461, R508). -/
def Obligations.JtagTestPort : Prop :=
  ∀ (rise tms tdi : Bool) (s : State),
    let c := s.chip
    let j := c.jtag
    let tap (t : State) : JtagSt := t.chip.jtag
    let rest (t : State) : Prop := t.chip = { c with jtag := tap t, draws := t.chip.draws, out := t.chip.out
                                                     boot := { c.boot with burned := t.chip.boot.burned } }
    let idcode (i : Nat) : Bool :=
      if i = 0 then true else if i ≤ 11 then c.fuse (2047 + i) else if i ≤ 27 then (0x9612 : Nat).testBit (i - 12)
      else decide (i = 28)
    let reset (t : State) : Prop := t.chip = { c with jtag := { j with trstN := false, state := .logicReset, code := 1, tdo := none } }
    Completes .jtagTrstNFall s reset ∧
    (c.mode ≠ Md.OFF → Completes (.jtagTckEdge rise false tms tdi) s reset) ∧
    (c.mode = Md.OFF → ∀ n, Completes (.jtagTckEdge rise n tms tdi) s (fun t => t = s)) ∧
    (c.mode ≠ Md.OFF →
      Completes (.jtagTckEdge true true tms tdi) s (fun t =>
        rest t ∧ (tap t).trstN = true ∧ (tap t).state = j.state.next tms ∧ (tap t).code = j.code ∧ (tap t).latches = j.latches ∧
          (j.state = .captureDr → j.code = 1 →
            (tap t).dr.length = 32 ∧ ∀ i, i < 32 → (tap t).dr[i]? = some (idcode i)) ∧
          (j.state = .shiftDr → ∀ b r, j.dr = b :: r → (tap t).dr = r ++ [tdi]) ∧
          (j.state = .shiftIr → ∀ b r, j.ir = b :: r → (tap t).ir = r ++ [tdi]) ∧
          t.chip.boot.burned = c.boot.burned) ∧
      Completes (.jtagTckEdge false true tms tdi) s (fun t =>
        rest t ∧ (tap t).state = j.state ∧ (tap t).dr = j.dr ∧
          (j.state = .shiftDr → (tap t).tdo = some (j.dr.headD false) ∧ t.chip.out = .tdo (j.dr.headD false) :: c.out) ∧
          (j.state = .shiftIr → (tap t).tdo = some (j.ir.headD false) ∧ t.chip.out = .tdo (j.ir.headD false) :: c.out) ∧
          (j.state ≠ .shiftDr → j.state ≠ .shiftIr → (tap t).tdo = none) ∧
          (j.state = .logicReset → (tap t).code = 1) ∧
          (j.state = .updateDr → j.code = 2 ∨ j.code = 3 → (tap t).latches = j.dr) ∧
          (j.state = .updateDr → j.code = 5 → c.fuse 2520 = false →
            ∀ b, t.chip.fuse b = (c.fuse b || (decide (2136 ≤ b ∧ b ≤ 2521) && (Config.fuseRegBits j.dr).contains b))) ∧
          ((j.state ≠ .updateDr ∨ j.code ≠ 5 ∨ c.fuse 2520 = true) → t.chip.boot.burned = c.boot.burned)) ∧
      (∀ cell, j.trstN = true → j.code = 3 ∨ j.code = 4 → c.pinForced cell = j.latches[cell]?) ∧
      (j.trstN = false ∨ (j.code ≠ 3 ∧ j.code ≠ 4) → ∀ cell, c.pinForced cell = none)) ∧
    (∀ x : TapState, ((((x.next true).next true).next true).next true).next true = .logicReset)

/-- No fuse bit is programmed at reset beyond those of delivery. The state after reset: HELD entered from OFF, COUNT at 0,
nothing released, no fuse programmed, no channel, item, chute or buffer held, no pin driven (R505), and every register but
GLOBAL.MODE at the reset value of its table; the rails up and RESET_N low are the model's choice (log entry 1). -/
def Obligations.StateAfterReset : Prop :=
  (State.reset.fusesLawful = true) ∧
  (let c := State.reset.chip
  State.reset.pending = [] ∧ c.mode = Md.HELD ∧ c.fld F.global_MODE_PREV = Md.OFF ∧ c.count = 0 ∧ c.dev.released = false ∧ c.dev.resetN = false ∧
    c.dev.rails = true ∧ c.boot.burned = [] ∧ c.running = false ∧ c.dram = [] ∧ c.pool = [] ∧ c.mix = [] ∧ c.chans = [] ∧
    c.slots = [] ∧ c.chutes = [] ∧ c.flume.frames = [] ∧ c.arriving = [] ∧ c.upsets = [] ∧ (∀ g, c.drives g = false) ∧
    (∀ r i j, r ≠ .global_MODE → c.rd r i j = BitVec.ofNat 36 (r.resetVal i) ∧ ∀ q, c.rdq q r i j = BitVec.ofNat 36 (r.resetVal i)) ∧
    c.fld F.global_ID_PART = 0x9612 ∧ c.fld F.global_ID_REV = 1 ∧ c.rd .time_RATE = 0xCCCCCCCD ∧ c.rd .time_STEPLIMIT = 1000 ∧
    c.rd .chan_CFG = 32768 ∧ c.fld F.kerf_GANG_MEMBERS 5 = 1 ∧ c.fld F.flume_BUFFREE_CELLS = 393216 ∧ c.fld F.mac_CFG_MAXLEN 3 = 1522 ∧
    c.fld F.flume_HSEED_SEED 1 = 0x5A5A5A5A ∧ c.flag F.mc_FP_CFG_EN 0 = true ∧ c.flag F.mc_FP_CFG_EN 1 = false ∧
    c.fld F.fault_CFG_STORMWIN = 10 ∧ c.fld F.fault_CFG_STORMMAX = 8 ∧ (∀ i, i < 4 → c.flag F.baler_U_CTRL_EN i = true) ∧
    ∀ k, (c.core k).wait = .stopped ∧ (c.core k).pc = 0 ∧ (c.core k).g = [] ∧ (c.core k).item = none)
end

