-- ==== Sys2Proof/Laws/Cells.lean ====
section
/-! SUPPORT. The laws of the sparse tables: a read after a write to the same key gives the value written, a write leaves
every other key alone, and every operation keeps the canonical form. -/
namespace Sys2Proof.Machine

variable {β : Type}

theorem Cells.find?_insert_same (k : Nat) (v : β) (m : Cells β) : Cells.find? k (Cells.insert k v m) = some v := by
  induction m with
  | nil => simp [Cells.insert, Cells.find?]
  | cons p r ih =>
    obtain ⟨a, x⟩ := p
    by_cases h : a = k
    · simp [Cells.insert, Cells.find?, h]
    · by_cases h2 : k < a <;> simp [Cells.insert, Cells.find?, h, h2, ih]

theorem Cells.find?_insert_ne {k j : Nat} (h : j ≠ k) (v : β) (m : Cells β) :
    Cells.find? j (Cells.insert k v m) = Cells.find? j m := by
  induction m with
  | nil => simp [Cells.insert, Cells.find?, Ne.symm h]
  | cons p r ih =>
    obtain ⟨a, x⟩ := p
    by_cases h1 : a = k
    · subst h1; simp [Cells.insert, Cells.find?, Ne.symm h]
    · by_cases h2 : k < a
      · simp [Cells.insert, Cells.find?, h1, h2, Ne.symm h]
      · simp [Cells.insert, Cells.find?, h1, h2, ih]

theorem Cells.find?_erase_same (k : Nat) (m : Cells β) : Cells.find? k (Cells.erase k m) = none := by
  induction m with
  | nil => rfl
  | cons p r ih =>
    obtain ⟨a, x⟩ := p
    by_cases h1 : a = k <;> simp [Cells.erase, Cells.find?, h1, ih]

theorem Cells.find?_erase_ne {k j : Nat} (h : j ≠ k) (m : Cells β) :
    Cells.find? j (Cells.erase k m) = Cells.find? j m := by
  induction m with
  | nil => rfl
  | cons p r ih =>
    obtain ⟨a, x⟩ := p
    by_cases h1 : a = k
    · subst h1; simp [Cells.erase, Cells.find?, ih, Ne.symm h]
    · simp [Cells.erase, Cells.find?, h1, ih]

@[simp] theorem Cells.get_set_same [DecidableEq β] (d : β) (k : Nat) (v : β) (m : Cells β) :
    Cells.get d k (Cells.set d k v m) = v := by
  unfold Cells.set Cells.get
  split
  · rw [Cells.find?_erase_same]; simp_all
  · rw [Cells.find?_insert_same]; rfl

theorem Cells.find?_set_ne [DecidableEq β] (d : β) {k j : Nat} (h : j ≠ k) (v : β) (m : Cells β) :
    Cells.find? j (Cells.set d k v m) = Cells.find? j m := by
  unfold Cells.set
  split
  · exact Cells.find?_erase_ne h m
  · exact Cells.find?_insert_ne h v m

theorem Cells.get_set_ne [DecidableEq β] (d e : β) {k j : Nat} (h : j ≠ k) (v : β) (m : Cells β) :
    Cells.get e j (Cells.set d k v m) = Cells.get e j m := by
  unfold Cells.get; rw [Cells.find?_set_ne d h]

@[simp] theorem Cells.get_modify_same [DecidableEq β] (d : β) (k : Nat) (f : β → β) (m : Cells β) :
    Cells.get d k (Cells.modify d k f m) = f (Cells.get d k m) := Cells.get_set_same d k _ m

theorem Cells.get_modify_ne [DecidableEq β] (d : β) {k j : Nat} (h : j ≠ k) (f : β → β) (m : Cells β) :
    Cells.get d j (Cells.modify d k f m) = Cells.get d j m := Cells.get_set_ne d d h _ m

/-! ## The canonical form -/

/-- The least key that may be listed next. -/
def Cells.above (o : Option Nat) (k : Nat) : Prop := ∀ j, o = some j → j < k

theorem Cells.rising_cons (o : Option Nat) (a : Nat) (v : β) (r : Cells β) :
    Cells.rising o ((a, v) :: r) = true ↔ Cells.above o a ∧ Cells.rising (some a) r = true := by
  cases o <;> simp [Cells.rising, Cells.above]

theorem Cells.rising_insert (k : Nat) (v : β) (m : Cells β) (o : Option Nat) (h : Cells.rising o m = true)
    (hk : Cells.above o k) : Cells.rising o (Cells.insert k v m) = true := by
  induction m generalizing o with
  | nil => rw [Cells.insert, Cells.rising_cons]; exact ⟨hk, rfl⟩
  | cons p r ih =>
    obtain ⟨a, x⟩ := p
    rw [Cells.rising_cons] at h
    unfold Cells.insert
    split_ifs with h1 h2
    · subst h1; rw [Cells.rising_cons]; exact h
    · rw [Cells.rising_cons, Cells.rising_cons]
      exact ⟨hk, fun j hj => by cases hj; exact h2, h.2⟩
    · rw [Cells.rising_cons]
      exact ⟨h.1, ih (some a) h.2 (fun j hj => by cases hj; omega)⟩

theorem Cells.rising_weaken (m : Cells β) (a b : Nat) (hab : a ≤ b) (h : Cells.rising (some b) m = true) :
    Cells.rising (some a) m = true := by
  cases m with
  | nil => rfl
  | cons p r =>
    obtain ⟨c, x⟩ := p
    rw [Cells.rising_cons] at h ⊢
    exact ⟨fun j hj => by cases hj; have := h.1 b rfl; omega, h.2⟩

theorem Cells.rising_erase (k : Nat) (m : Cells β) (o : Option Nat) (h : Cells.rising o m = true) :
    Cells.rising o (Cells.erase k m) = true := by
  induction m generalizing o with
  | nil => exact h
  | cons p r ih =>
    obtain ⟨a, x⟩ := p
    rw [Cells.rising_cons] at h
    unfold Cells.erase
    split_ifs
    · cases o with
      | none =>
        apply ih none
        cases r with
        | nil => rfl
        | cons q s =>
          obtain ⟨b, y⟩ := q
          have h2 := (Cells.rising_cons _ _ _ _).1 h.2
          rw [Cells.rising_cons]
          exact ⟨fun j hj => by simp at hj, h2.2⟩
      | some b => exact ih (some b) (Cells.rising_weaken r b a (le_of_lt (h.1 b rfl)) h.2)
    · rw [Cells.rising_cons]; exact ⟨h.1, ih (some a) h.2⟩

theorem Cells.mem_insert {k : Nat} {v : β} {m : Cells β} {p : Nat × β} (h : p ∈ Cells.insert k v m) :
    p = (k, v) ∨ p ∈ m := by
  induction m with
  | nil => simpa [Cells.insert] using h
  | cons q r ih =>
    obtain ⟨a, x⟩ := q
    unfold Cells.insert at h
    split_ifs at h with h1 h2
    · rcases List.mem_cons.1 h with h | h
      · exact .inl h
      · exact .inr (List.mem_cons_of_mem _ h)
    · rcases List.mem_cons.1 h with h | h
      · exact .inl h
      · exact .inr h
    · rcases List.mem_cons.1 h with h | h
      · exact .inr (h ▸ List.mem_cons_self)
      · rcases ih h with h | h
        · exact .inl h
        · exact .inr (List.mem_cons_of_mem _ h)

theorem Cells.mem_erase {k : Nat} {m : Cells β} {p : Nat × β} (h : p ∈ Cells.erase k m) : p ∈ m := by
  induction m with
  | nil => exact h
  | cons q r ih =>
    obtain ⟨a, x⟩ := q
    unfold Cells.erase at h
    split_ifs at h
    · exact List.mem_cons_of_mem _ (ih h)
    · rcases List.mem_cons.1 h with h | h
      · exact h ▸ List.mem_cons_self
      · exact List.mem_cons_of_mem _ (ih h)

theorem Cells.wf_iff [DecidableEq β] (d : Nat → β) (m : Cells β) :
    Cells.wf d m = true ↔ Cells.rising none m = true ∧ ∀ p ∈ m, p.2 ≠ d p.1 := by
  simp [Cells.wf]

/-- A write keeps the canonical form. -/
theorem Cells.wf_set [DecidableEq β] (d : Nat → β) (k : Nat) (v : β) (m : Cells β) (h : Cells.wf d m = true) :
    Cells.wf d (Cells.set (d k) k v m) = true := by
  rw [Cells.wf_iff] at h ⊢
  unfold Cells.set
  split_ifs with hv
  · exact ⟨Cells.rising_erase k m none h.1, fun p hp => h.2 p (Cells.mem_erase hp)⟩
  · refine ⟨Cells.rising_insert k v m none h.1 (fun j hj => by cases hj), fun p hp => ?_⟩
    rcases Cells.mem_insert hp with rfl | hp
    · exact hv
    · exact h.2 p hp

/-- A change of one entry keeps the canonical form. -/
theorem Cells.wf_modify [DecidableEq β] (d : β) (k : Nat) (f : β → β) (m : Cells β) (h : Cells.wf (fun _ => d) m = true) :
    Cells.wf (fun _ => d) (Cells.modify d k f m) = true := Cells.wf_set (fun _ => d) k _ m h

theorem Cells.wf_write [DecidableEq β] (d : β) (ws : List β) (a : Nat) (m : Cells β) (h : Cells.wf (fun _ => d) m = true) :
    Cells.wf (fun _ => d) (Cells.write d a ws m) = true := by
  induction ws generalizing a m with
  | nil => exact h
  | cons v r ih => exact ih (a + 1) _ (Cells.wf_set (fun _ => d) a v m h)

theorem Cells.wf_nil [DecidableEq β] (d : Nat → β) : Cells.wf d ([] : Cells β) = true := rfl

end Sys2Proof.Machine
end

