-- ==== Sys2Proof/Laws/State.lean ====
section
/-! SUPPORT. What each update of the device leaves: one lemma per field per update, so that no proof unfolds a record
update. -/
namespace Sys2Proof.Machine
open Sys2Proof
variable (c : Chip)

/-! ### Chip.wr -/
@[simp] theorem Chip.wr_count (r : RegName) (v : Word) (i j : Nat) : (Chip.wr r v i j c).count = c.count := (rfl)
@[simp] theorem Chip.wr_draws (r : RegName) (v : Word) (i j : Nat) : (Chip.wr r v i j c).draws = c.draws := (rfl)
@[simp] theorem Chip.wr_regs (r : RegName) (v : Word) (i j : Nat) :
    (Chip.wr r v i j c).regs = Cells.set (wofNat (r.resetVal i)) (slotOf r i j) v c.regs := (rfl)
@[simp] theorem Chip.wr_preqs (r : RegName) (v : Word) (i j : Nat) : (Chip.wr r v i j c).preqs = c.preqs := (rfl)
@[simp] theorem Chip.wr_out (r : RegName) (v : Word) (i j : Nat) : (Chip.wr r v i j c).out = c.out := (rfl)
@[simp] theorem Chip.wr_dev (r : RegName) (v : Word) (i j : Nat) : (Chip.wr r v i j c).dev = c.dev := (rfl)
@[simp] theorem Chip.wr_time (r : RegName) (v : Word) (i j : Nat) : (Chip.wr r v i j c).time = c.time := (rfl)
@[simp] theorem Chip.wr_chutes (r : RegName) (v : Word) (i j : Nat) : (Chip.wr r v i j c).chutes = c.chutes := (rfl)
@[simp] theorem Chip.wr_arriving (r : RegName) (v : Word) (i j : Nat) : (Chip.wr r v i j c).arriving = c.arriving := (rfl)
@[simp] theorem Chip.wr_pool (r : RegName) (v : Word) (i j : Nat) : (Chip.wr r v i j c).pool = c.pool := (rfl)
@[simp] theorem Chip.wr_cores (r : RegName) (v : Word) (i j : Nat) : (Chip.wr r v i j c).cores = c.cores := (rfl)
@[simp] theorem Chip.wr_slots (r : RegName) (v : Word) (i j : Nat) : (Chip.wr r v i j c).slots = c.slots := (rfl)
@[simp] theorem Chip.wr_bufs (r : RegName) (v : Word) (i j : Nat) : (Chip.wr r v i j c).bufs = c.bufs := (rfl)
@[simp] theorem Chip.wr_sqs (r : RegName) (v : Word) (i j : Nat) : (Chip.wr r v i j c).sqs = c.sqs := (rfl)
@[simp] theorem Chip.wr_sqTurn (r : RegName) (v : Word) (i j : Nat) : (Chip.wr r v i j c).sqTurn = c.sqTurn := (rfl)
@[simp] theorem Chip.wr_chans (r : RegName) (v : Word) (i j : Nat) : (Chip.wr r v i j c).chans = c.chans := (rfl)
@[simp] theorem Chip.wr_jbs (r : RegName) (v : Word) (i j : Nat) : (Chip.wr r v i j c).jbs = c.jbs := (rfl)
@[simp] theorem Chip.wr_host (r : RegName) (v : Word) (i j : Nat) : (Chip.wr r v i j c).host = c.host := (rfl)
@[simp] theorem Chip.wr_fault (r : RegName) (v : Word) (i j : Nat) : (Chip.wr r v i j c).fault = c.fault := (rfl)
@[simp] theorem Chip.wr_ranger (r : RegName) (v : Word) (i j : Nat) : (Chip.wr r v i j c).ranger = c.ranger := (rfl)
@[simp] theorem Chip.wr_dram (r : RegName) (v : Word) (i j : Nat) : (Chip.wr r v i j c).dram = c.dram := (rfl)
@[simp] theorem Chip.wr_zeroed (r : RegName) (v : Word) (i j : Nat) : (Chip.wr r v i j c).zeroed = c.zeroed := (rfl)
@[simp] theorem Chip.wr_buses (r : RegName) (v : Word) (i j : Nat) : (Chip.wr r v i j c).buses = c.buses := (rfl)
@[simp] theorem Chip.wr_mix (r : RegName) (v : Word) (i j : Nat) : (Chip.wr r v i j c).mix = c.mix := (rfl)
@[simp] theorem Chip.wr_kerf (r : RegName) (v : Word) (i j : Nat) : (Chip.wr r v i j c).kerf = c.kerf := (rfl)
@[simp] theorem Chip.wr_upsets (r : RegName) (v : Word) (i j : Nat) : (Chip.wr r v i j c).upsets = c.upsets := (rfl)
@[simp] theorem Chip.wr_balers (r : RegName) (v : Word) (i j : Nat) : (Chip.wr r v i j c).balers = c.balers := (rfl)
@[simp] theorem Chip.wr_serial (r : RegName) (v : Word) (i j : Nat) : (Chip.wr r v i j c).serial = c.serial := (rfl)
@[simp] theorem Chip.wr_fns (r : RegName) (v : Word) (i j : Nat) : (Chip.wr r v i j c).fns = c.fns := (rfl)
@[simp] theorem Chip.wr_tonesets (r : RegName) (v : Word) (i j : Nat) : (Chip.wr r v i j c).tonesets = c.tonesets := (rfl)
@[simp] theorem Chip.wr_customs (r : RegName) (v : Word) (i j : Nat) : (Chip.wr r v i j c).customs = c.customs := (rfl)
@[simp] theorem Chip.wr_heads (r : RegName) (v : Word) (i j : Nat) : (Chip.wr r v i j c).heads = c.heads := (rfl)
@[simp] theorem Chip.wr_flume (r : RegName) (v : Word) (i j : Nat) : (Chip.wr r v i j c).flume = c.flume := (rfl)
@[simp] theorem Chip.wr_audio (r : RegName) (v : Word) (i j : Nat) : (Chip.wr r v i j c).audio = c.audio := (rfl)
@[simp] theorem Chip.wr_mc (r : RegName) (v : Word) (i j : Nat) : (Chip.wr r v i j c).mc = c.mc := (rfl)
@[simp] theorem Chip.wr_boot (r : RegName) (v : Word) (i j : Nat) : (Chip.wr r v i j c).boot = c.boot := (rfl)
@[simp] theorem Chip.wr_jtag (r : RegName) (v : Word) (i j : Nat) : (Chip.wr r v i j c).jtag = c.jtag := (rfl)

/-! ### Chip.wrq -/
@[simp] theorem Chip.wrq_count (q : Requester) (r : RegName) (v : Word) (i j : Nat) : (Chip.wrq q r v i j c).count = c.count := (rfl)
@[simp] theorem Chip.wrq_draws (q : Requester) (r : RegName) (v : Word) (i j : Nat) : (Chip.wrq q r v i j c).draws = c.draws := (rfl)
@[simp] theorem Chip.wrq_regs (q : Requester) (r : RegName) (v : Word) (i j : Nat) : (Chip.wrq q r v i j c).regs = c.regs := (rfl)
@[simp] theorem Chip.wrq_preqs (q : Requester) (r : RegName) (v : Word) (i j : Nat) :
    (Chip.wrq q r v i j c).preqs = Cells.set (wofNat (r.resetVal i)) (slotOf r i j * 8 + q.idx) v c.preqs := (rfl)
@[simp] theorem Chip.wrq_out (q : Requester) (r : RegName) (v : Word) (i j : Nat) : (Chip.wrq q r v i j c).out = c.out := (rfl)
@[simp] theorem Chip.wrq_dev (q : Requester) (r : RegName) (v : Word) (i j : Nat) : (Chip.wrq q r v i j c).dev = c.dev := (rfl)
@[simp] theorem Chip.wrq_time (q : Requester) (r : RegName) (v : Word) (i j : Nat) : (Chip.wrq q r v i j c).time = c.time := (rfl)
@[simp] theorem Chip.wrq_chutes (q : Requester) (r : RegName) (v : Word) (i j : Nat) : (Chip.wrq q r v i j c).chutes = c.chutes := (rfl)
@[simp] theorem Chip.wrq_arriving (q : Requester) (r : RegName) (v : Word) (i j : Nat) : (Chip.wrq q r v i j c).arriving = c.arriving := (rfl)
@[simp] theorem Chip.wrq_pool (q : Requester) (r : RegName) (v : Word) (i j : Nat) : (Chip.wrq q r v i j c).pool = c.pool := (rfl)
@[simp] theorem Chip.wrq_cores (q : Requester) (r : RegName) (v : Word) (i j : Nat) : (Chip.wrq q r v i j c).cores = c.cores := (rfl)
@[simp] theorem Chip.wrq_slots (q : Requester) (r : RegName) (v : Word) (i j : Nat) : (Chip.wrq q r v i j c).slots = c.slots := (rfl)
@[simp] theorem Chip.wrq_bufs (q : Requester) (r : RegName) (v : Word) (i j : Nat) : (Chip.wrq q r v i j c).bufs = c.bufs := (rfl)
@[simp] theorem Chip.wrq_sqs (q : Requester) (r : RegName) (v : Word) (i j : Nat) : (Chip.wrq q r v i j c).sqs = c.sqs := (rfl)
@[simp] theorem Chip.wrq_sqTurn (q : Requester) (r : RegName) (v : Word) (i j : Nat) : (Chip.wrq q r v i j c).sqTurn = c.sqTurn := (rfl)
@[simp] theorem Chip.wrq_chans (q : Requester) (r : RegName) (v : Word) (i j : Nat) : (Chip.wrq q r v i j c).chans = c.chans := (rfl)
@[simp] theorem Chip.wrq_jbs (q : Requester) (r : RegName) (v : Word) (i j : Nat) : (Chip.wrq q r v i j c).jbs = c.jbs := (rfl)
@[simp] theorem Chip.wrq_host (q : Requester) (r : RegName) (v : Word) (i j : Nat) : (Chip.wrq q r v i j c).host = c.host := (rfl)
@[simp] theorem Chip.wrq_fault (q : Requester) (r : RegName) (v : Word) (i j : Nat) : (Chip.wrq q r v i j c).fault = c.fault := (rfl)
@[simp] theorem Chip.wrq_ranger (q : Requester) (r : RegName) (v : Word) (i j : Nat) : (Chip.wrq q r v i j c).ranger = c.ranger := (rfl)
@[simp] theorem Chip.wrq_dram (q : Requester) (r : RegName) (v : Word) (i j : Nat) : (Chip.wrq q r v i j c).dram = c.dram := (rfl)
@[simp] theorem Chip.wrq_zeroed (q : Requester) (r : RegName) (v : Word) (i j : Nat) : (Chip.wrq q r v i j c).zeroed = c.zeroed := (rfl)
@[simp] theorem Chip.wrq_buses (q : Requester) (r : RegName) (v : Word) (i j : Nat) : (Chip.wrq q r v i j c).buses = c.buses := (rfl)
@[simp] theorem Chip.wrq_mix (q : Requester) (r : RegName) (v : Word) (i j : Nat) : (Chip.wrq q r v i j c).mix = c.mix := (rfl)
@[simp] theorem Chip.wrq_kerf (q : Requester) (r : RegName) (v : Word) (i j : Nat) : (Chip.wrq q r v i j c).kerf = c.kerf := (rfl)
@[simp] theorem Chip.wrq_upsets (q : Requester) (r : RegName) (v : Word) (i j : Nat) : (Chip.wrq q r v i j c).upsets = c.upsets := (rfl)
@[simp] theorem Chip.wrq_balers (q : Requester) (r : RegName) (v : Word) (i j : Nat) : (Chip.wrq q r v i j c).balers = c.balers := (rfl)
@[simp] theorem Chip.wrq_serial (q : Requester) (r : RegName) (v : Word) (i j : Nat) : (Chip.wrq q r v i j c).serial = c.serial := (rfl)
@[simp] theorem Chip.wrq_fns (q : Requester) (r : RegName) (v : Word) (i j : Nat) : (Chip.wrq q r v i j c).fns = c.fns := (rfl)
@[simp] theorem Chip.wrq_tonesets (q : Requester) (r : RegName) (v : Word) (i j : Nat) : (Chip.wrq q r v i j c).tonesets = c.tonesets := (rfl)
@[simp] theorem Chip.wrq_customs (q : Requester) (r : RegName) (v : Word) (i j : Nat) : (Chip.wrq q r v i j c).customs = c.customs := (rfl)
@[simp] theorem Chip.wrq_heads (q : Requester) (r : RegName) (v : Word) (i j : Nat) : (Chip.wrq q r v i j c).heads = c.heads := (rfl)
@[simp] theorem Chip.wrq_flume (q : Requester) (r : RegName) (v : Word) (i j : Nat) : (Chip.wrq q r v i j c).flume = c.flume := (rfl)
@[simp] theorem Chip.wrq_audio (q : Requester) (r : RegName) (v : Word) (i j : Nat) : (Chip.wrq q r v i j c).audio = c.audio := (rfl)
@[simp] theorem Chip.wrq_mc (q : Requester) (r : RegName) (v : Word) (i j : Nat) : (Chip.wrq q r v i j c).mc = c.mc := (rfl)
@[simp] theorem Chip.wrq_boot (q : Requester) (r : RegName) (v : Word) (i j : Nat) : (Chip.wrq q r v i j c).boot = c.boot := (rfl)
@[simp] theorem Chip.wrq_jtag (q : Requester) (r : RegName) (v : Word) (i j : Nat) : (Chip.wrq q r v i j c).jtag = c.jtag := (rfl)

/-! ### Chip.put -/
@[simp] theorem Chip.put_count (f : Fld) (v i j : Nat) : (Chip.put f v i j c).count = c.count := (rfl)
@[simp] theorem Chip.put_draws (f : Fld) (v i j : Nat) : (Chip.put f v i j c).draws = c.draws := (rfl)
@[simp] theorem Chip.put_regs (f : Fld) (v i j : Nat) :
    (Chip.put f v i j c).regs = Cells.set (wofNat (f.reg.resetVal i)) (slotOf f.reg i j) (wput (c.rd f.reg i j) f.hi f.lo v) c.regs := (rfl)
@[simp] theorem Chip.put_preqs (f : Fld) (v i j : Nat) : (Chip.put f v i j c).preqs = c.preqs := (rfl)
@[simp] theorem Chip.put_out (f : Fld) (v i j : Nat) : (Chip.put f v i j c).out = c.out := (rfl)
@[simp] theorem Chip.put_dev (f : Fld) (v i j : Nat) : (Chip.put f v i j c).dev = c.dev := (rfl)
@[simp] theorem Chip.put_time (f : Fld) (v i j : Nat) : (Chip.put f v i j c).time = c.time := (rfl)
@[simp] theorem Chip.put_chutes (f : Fld) (v i j : Nat) : (Chip.put f v i j c).chutes = c.chutes := (rfl)
@[simp] theorem Chip.put_arriving (f : Fld) (v i j : Nat) : (Chip.put f v i j c).arriving = c.arriving := (rfl)
@[simp] theorem Chip.put_pool (f : Fld) (v i j : Nat) : (Chip.put f v i j c).pool = c.pool := (rfl)
@[simp] theorem Chip.put_cores (f : Fld) (v i j : Nat) : (Chip.put f v i j c).cores = c.cores := (rfl)
@[simp] theorem Chip.put_slots (f : Fld) (v i j : Nat) : (Chip.put f v i j c).slots = c.slots := (rfl)
@[simp] theorem Chip.put_bufs (f : Fld) (v i j : Nat) : (Chip.put f v i j c).bufs = c.bufs := (rfl)
@[simp] theorem Chip.put_sqs (f : Fld) (v i j : Nat) : (Chip.put f v i j c).sqs = c.sqs := (rfl)
@[simp] theorem Chip.put_sqTurn (f : Fld) (v i j : Nat) : (Chip.put f v i j c).sqTurn = c.sqTurn := (rfl)
@[simp] theorem Chip.put_chans (f : Fld) (v i j : Nat) : (Chip.put f v i j c).chans = c.chans := (rfl)
@[simp] theorem Chip.put_jbs (f : Fld) (v i j : Nat) : (Chip.put f v i j c).jbs = c.jbs := (rfl)
@[simp] theorem Chip.put_host (f : Fld) (v i j : Nat) : (Chip.put f v i j c).host = c.host := (rfl)
@[simp] theorem Chip.put_fault (f : Fld) (v i j : Nat) : (Chip.put f v i j c).fault = c.fault := (rfl)
@[simp] theorem Chip.put_ranger (f : Fld) (v i j : Nat) : (Chip.put f v i j c).ranger = c.ranger := (rfl)
@[simp] theorem Chip.put_dram (f : Fld) (v i j : Nat) : (Chip.put f v i j c).dram = c.dram := (rfl)
@[simp] theorem Chip.put_zeroed (f : Fld) (v i j : Nat) : (Chip.put f v i j c).zeroed = c.zeroed := (rfl)
@[simp] theorem Chip.put_buses (f : Fld) (v i j : Nat) : (Chip.put f v i j c).buses = c.buses := (rfl)
@[simp] theorem Chip.put_mix (f : Fld) (v i j : Nat) : (Chip.put f v i j c).mix = c.mix := (rfl)
@[simp] theorem Chip.put_kerf (f : Fld) (v i j : Nat) : (Chip.put f v i j c).kerf = c.kerf := (rfl)
@[simp] theorem Chip.put_upsets (f : Fld) (v i j : Nat) : (Chip.put f v i j c).upsets = c.upsets := (rfl)
@[simp] theorem Chip.put_balers (f : Fld) (v i j : Nat) : (Chip.put f v i j c).balers = c.balers := (rfl)
@[simp] theorem Chip.put_serial (f : Fld) (v i j : Nat) : (Chip.put f v i j c).serial = c.serial := (rfl)
@[simp] theorem Chip.put_fns (f : Fld) (v i j : Nat) : (Chip.put f v i j c).fns = c.fns := (rfl)
@[simp] theorem Chip.put_tonesets (f : Fld) (v i j : Nat) : (Chip.put f v i j c).tonesets = c.tonesets := (rfl)
@[simp] theorem Chip.put_customs (f : Fld) (v i j : Nat) : (Chip.put f v i j c).customs = c.customs := (rfl)
@[simp] theorem Chip.put_heads (f : Fld) (v i j : Nat) : (Chip.put f v i j c).heads = c.heads := (rfl)
@[simp] theorem Chip.put_flume (f : Fld) (v i j : Nat) : (Chip.put f v i j c).flume = c.flume := (rfl)
@[simp] theorem Chip.put_audio (f : Fld) (v i j : Nat) : (Chip.put f v i j c).audio = c.audio := (rfl)
@[simp] theorem Chip.put_mc (f : Fld) (v i j : Nat) : (Chip.put f v i j c).mc = c.mc := (rfl)
@[simp] theorem Chip.put_boot (f : Fld) (v i j : Nat) : (Chip.put f v i j c).boot = c.boot := (rfl)
@[simp] theorem Chip.put_jtag (f : Fld) (v i j : Nat) : (Chip.put f v i j c).jtag = c.jtag := (rfl)

/-! ### Chip.putq -/
@[simp] theorem Chip.putq_count (q : Requester) (f : Fld) (v i j : Nat) : (Chip.putq q f v i j c).count = c.count := (rfl)
@[simp] theorem Chip.putq_draws (q : Requester) (f : Fld) (v i j : Nat) : (Chip.putq q f v i j c).draws = c.draws := (rfl)
@[simp] theorem Chip.putq_regs (q : Requester) (f : Fld) (v i j : Nat) : (Chip.putq q f v i j c).regs = c.regs := (rfl)
@[simp] theorem Chip.putq_preqs (q : Requester) (f : Fld) (v i j : Nat) :
    (Chip.putq q f v i j c).preqs = Cells.set (wofNat (f.reg.resetVal i)) (slotOf f.reg i j * 8 + q.idx) (wput (c.rdq q f.reg i j) f.hi f.lo v) c.preqs := (rfl)
@[simp] theorem Chip.putq_out (q : Requester) (f : Fld) (v i j : Nat) : (Chip.putq q f v i j c).out = c.out := (rfl)
@[simp] theorem Chip.putq_dev (q : Requester) (f : Fld) (v i j : Nat) : (Chip.putq q f v i j c).dev = c.dev := (rfl)
@[simp] theorem Chip.putq_time (q : Requester) (f : Fld) (v i j : Nat) : (Chip.putq q f v i j c).time = c.time := (rfl)
@[simp] theorem Chip.putq_chutes (q : Requester) (f : Fld) (v i j : Nat) : (Chip.putq q f v i j c).chutes = c.chutes := (rfl)
@[simp] theorem Chip.putq_arriving (q : Requester) (f : Fld) (v i j : Nat) : (Chip.putq q f v i j c).arriving = c.arriving := (rfl)
@[simp] theorem Chip.putq_pool (q : Requester) (f : Fld) (v i j : Nat) : (Chip.putq q f v i j c).pool = c.pool := (rfl)
@[simp] theorem Chip.putq_cores (q : Requester) (f : Fld) (v i j : Nat) : (Chip.putq q f v i j c).cores = c.cores := (rfl)
@[simp] theorem Chip.putq_slots (q : Requester) (f : Fld) (v i j : Nat) : (Chip.putq q f v i j c).slots = c.slots := (rfl)
@[simp] theorem Chip.putq_bufs (q : Requester) (f : Fld) (v i j : Nat) : (Chip.putq q f v i j c).bufs = c.bufs := (rfl)
@[simp] theorem Chip.putq_sqs (q : Requester) (f : Fld) (v i j : Nat) : (Chip.putq q f v i j c).sqs = c.sqs := (rfl)
@[simp] theorem Chip.putq_sqTurn (q : Requester) (f : Fld) (v i j : Nat) : (Chip.putq q f v i j c).sqTurn = c.sqTurn := (rfl)
@[simp] theorem Chip.putq_chans (q : Requester) (f : Fld) (v i j : Nat) : (Chip.putq q f v i j c).chans = c.chans := (rfl)
@[simp] theorem Chip.putq_jbs (q : Requester) (f : Fld) (v i j : Nat) : (Chip.putq q f v i j c).jbs = c.jbs := (rfl)
@[simp] theorem Chip.putq_host (q : Requester) (f : Fld) (v i j : Nat) : (Chip.putq q f v i j c).host = c.host := (rfl)
@[simp] theorem Chip.putq_fault (q : Requester) (f : Fld) (v i j : Nat) : (Chip.putq q f v i j c).fault = c.fault := (rfl)
@[simp] theorem Chip.putq_ranger (q : Requester) (f : Fld) (v i j : Nat) : (Chip.putq q f v i j c).ranger = c.ranger := (rfl)
@[simp] theorem Chip.putq_dram (q : Requester) (f : Fld) (v i j : Nat) : (Chip.putq q f v i j c).dram = c.dram := (rfl)
@[simp] theorem Chip.putq_zeroed (q : Requester) (f : Fld) (v i j : Nat) : (Chip.putq q f v i j c).zeroed = c.zeroed := (rfl)
@[simp] theorem Chip.putq_buses (q : Requester) (f : Fld) (v i j : Nat) : (Chip.putq q f v i j c).buses = c.buses := (rfl)
@[simp] theorem Chip.putq_mix (q : Requester) (f : Fld) (v i j : Nat) : (Chip.putq q f v i j c).mix = c.mix := (rfl)
@[simp] theorem Chip.putq_kerf (q : Requester) (f : Fld) (v i j : Nat) : (Chip.putq q f v i j c).kerf = c.kerf := (rfl)
@[simp] theorem Chip.putq_upsets (q : Requester) (f : Fld) (v i j : Nat) : (Chip.putq q f v i j c).upsets = c.upsets := (rfl)
@[simp] theorem Chip.putq_balers (q : Requester) (f : Fld) (v i j : Nat) : (Chip.putq q f v i j c).balers = c.balers := (rfl)
@[simp] theorem Chip.putq_serial (q : Requester) (f : Fld) (v i j : Nat) : (Chip.putq q f v i j c).serial = c.serial := (rfl)
@[simp] theorem Chip.putq_fns (q : Requester) (f : Fld) (v i j : Nat) : (Chip.putq q f v i j c).fns = c.fns := (rfl)
@[simp] theorem Chip.putq_tonesets (q : Requester) (f : Fld) (v i j : Nat) : (Chip.putq q f v i j c).tonesets = c.tonesets := (rfl)
@[simp] theorem Chip.putq_customs (q : Requester) (f : Fld) (v i j : Nat) : (Chip.putq q f v i j c).customs = c.customs := (rfl)
@[simp] theorem Chip.putq_heads (q : Requester) (f : Fld) (v i j : Nat) : (Chip.putq q f v i j c).heads = c.heads := (rfl)
@[simp] theorem Chip.putq_flume (q : Requester) (f : Fld) (v i j : Nat) : (Chip.putq q f v i j c).flume = c.flume := (rfl)
@[simp] theorem Chip.putq_audio (q : Requester) (f : Fld) (v i j : Nat) : (Chip.putq q f v i j c).audio = c.audio := (rfl)
@[simp] theorem Chip.putq_mc (q : Requester) (f : Fld) (v i j : Nat) : (Chip.putq q f v i j c).mc = c.mc := (rfl)
@[simp] theorem Chip.putq_boot (q : Requester) (f : Fld) (v i j : Nat) : (Chip.putq q f v i j c).boot = c.boot := (rfl)
@[simp] theorem Chip.putq_jtag (q : Requester) (f : Fld) (v i j : Nat) : (Chip.putq q f v i j c).jtag = c.jtag := (rfl)

/-! ### Chip.bump -/
@[simp] theorem Chip.bump_count (f : Fld) (n i j : Nat) : (Chip.bump f n i j c).count = c.count := (rfl)
@[simp] theorem Chip.bump_draws (f : Fld) (n i j : Nat) : (Chip.bump f n i j c).draws = c.draws := (rfl)
@[simp] theorem Chip.bump_preqs (f : Fld) (n i j : Nat) : (Chip.bump f n i j c).preqs = c.preqs := (rfl)
@[simp] theorem Chip.bump_out (f : Fld) (n i j : Nat) : (Chip.bump f n i j c).out = c.out := (rfl)
@[simp] theorem Chip.bump_dev (f : Fld) (n i j : Nat) : (Chip.bump f n i j c).dev = c.dev := (rfl)
@[simp] theorem Chip.bump_time (f : Fld) (n i j : Nat) : (Chip.bump f n i j c).time = c.time := (rfl)
@[simp] theorem Chip.bump_chutes (f : Fld) (n i j : Nat) : (Chip.bump f n i j c).chutes = c.chutes := (rfl)
@[simp] theorem Chip.bump_arriving (f : Fld) (n i j : Nat) : (Chip.bump f n i j c).arriving = c.arriving := (rfl)
@[simp] theorem Chip.bump_pool (f : Fld) (n i j : Nat) : (Chip.bump f n i j c).pool = c.pool := (rfl)
@[simp] theorem Chip.bump_cores (f : Fld) (n i j : Nat) : (Chip.bump f n i j c).cores = c.cores := (rfl)
@[simp] theorem Chip.bump_slots (f : Fld) (n i j : Nat) : (Chip.bump f n i j c).slots = c.slots := (rfl)
@[simp] theorem Chip.bump_bufs (f : Fld) (n i j : Nat) : (Chip.bump f n i j c).bufs = c.bufs := (rfl)
@[simp] theorem Chip.bump_sqs (f : Fld) (n i j : Nat) : (Chip.bump f n i j c).sqs = c.sqs := (rfl)
@[simp] theorem Chip.bump_sqTurn (f : Fld) (n i j : Nat) : (Chip.bump f n i j c).sqTurn = c.sqTurn := (rfl)
@[simp] theorem Chip.bump_chans (f : Fld) (n i j : Nat) : (Chip.bump f n i j c).chans = c.chans := (rfl)
@[simp] theorem Chip.bump_jbs (f : Fld) (n i j : Nat) : (Chip.bump f n i j c).jbs = c.jbs := (rfl)
@[simp] theorem Chip.bump_host (f : Fld) (n i j : Nat) : (Chip.bump f n i j c).host = c.host := (rfl)
@[simp] theorem Chip.bump_fault (f : Fld) (n i j : Nat) : (Chip.bump f n i j c).fault = c.fault := (rfl)
@[simp] theorem Chip.bump_ranger (f : Fld) (n i j : Nat) : (Chip.bump f n i j c).ranger = c.ranger := (rfl)
@[simp] theorem Chip.bump_dram (f : Fld) (n i j : Nat) : (Chip.bump f n i j c).dram = c.dram := (rfl)
@[simp] theorem Chip.bump_zeroed (f : Fld) (n i j : Nat) : (Chip.bump f n i j c).zeroed = c.zeroed := (rfl)
@[simp] theorem Chip.bump_buses (f : Fld) (n i j : Nat) : (Chip.bump f n i j c).buses = c.buses := (rfl)
@[simp] theorem Chip.bump_mix (f : Fld) (n i j : Nat) : (Chip.bump f n i j c).mix = c.mix := (rfl)
@[simp] theorem Chip.bump_kerf (f : Fld) (n i j : Nat) : (Chip.bump f n i j c).kerf = c.kerf := (rfl)
@[simp] theorem Chip.bump_upsets (f : Fld) (n i j : Nat) : (Chip.bump f n i j c).upsets = c.upsets := (rfl)
@[simp] theorem Chip.bump_balers (f : Fld) (n i j : Nat) : (Chip.bump f n i j c).balers = c.balers := (rfl)
@[simp] theorem Chip.bump_serial (f : Fld) (n i j : Nat) : (Chip.bump f n i j c).serial = c.serial := (rfl)
@[simp] theorem Chip.bump_fns (f : Fld) (n i j : Nat) : (Chip.bump f n i j c).fns = c.fns := (rfl)
@[simp] theorem Chip.bump_tonesets (f : Fld) (n i j : Nat) : (Chip.bump f n i j c).tonesets = c.tonesets := (rfl)
@[simp] theorem Chip.bump_customs (f : Fld) (n i j : Nat) : (Chip.bump f n i j c).customs = c.customs := (rfl)
@[simp] theorem Chip.bump_heads (f : Fld) (n i j : Nat) : (Chip.bump f n i j c).heads = c.heads := (rfl)
@[simp] theorem Chip.bump_flume (f : Fld) (n i j : Nat) : (Chip.bump f n i j c).flume = c.flume := (rfl)
@[simp] theorem Chip.bump_audio (f : Fld) (n i j : Nat) : (Chip.bump f n i j c).audio = c.audio := (rfl)
@[simp] theorem Chip.bump_mc (f : Fld) (n i j : Nat) : (Chip.bump f n i j c).mc = c.mc := (rfl)
@[simp] theorem Chip.bump_boot (f : Fld) (n i j : Nat) : (Chip.bump f n i j c).boot = c.boot := (rfl)
@[simp] theorem Chip.bump_jtag (f : Fld) (n i j : Nat) : (Chip.bump f n i j c).jtag = c.jtag := (rfl)

/-! ### Chip.addTo -/
@[simp] theorem Chip.addTo_count (f : Fld) (n i j : Nat) : (Chip.addTo f n i j c).count = c.count := (rfl)
@[simp] theorem Chip.addTo_draws (f : Fld) (n i j : Nat) : (Chip.addTo f n i j c).draws = c.draws := (rfl)
@[simp] theorem Chip.addTo_preqs (f : Fld) (n i j : Nat) : (Chip.addTo f n i j c).preqs = c.preqs := (rfl)
@[simp] theorem Chip.addTo_out (f : Fld) (n i j : Nat) : (Chip.addTo f n i j c).out = c.out := (rfl)
@[simp] theorem Chip.addTo_dev (f : Fld) (n i j : Nat) : (Chip.addTo f n i j c).dev = c.dev := (rfl)
@[simp] theorem Chip.addTo_time (f : Fld) (n i j : Nat) : (Chip.addTo f n i j c).time = c.time := (rfl)
@[simp] theorem Chip.addTo_chutes (f : Fld) (n i j : Nat) : (Chip.addTo f n i j c).chutes = c.chutes := (rfl)
@[simp] theorem Chip.addTo_arriving (f : Fld) (n i j : Nat) : (Chip.addTo f n i j c).arriving = c.arriving := (rfl)
@[simp] theorem Chip.addTo_pool (f : Fld) (n i j : Nat) : (Chip.addTo f n i j c).pool = c.pool := (rfl)
@[simp] theorem Chip.addTo_cores (f : Fld) (n i j : Nat) : (Chip.addTo f n i j c).cores = c.cores := (rfl)
@[simp] theorem Chip.addTo_slots (f : Fld) (n i j : Nat) : (Chip.addTo f n i j c).slots = c.slots := (rfl)
@[simp] theorem Chip.addTo_bufs (f : Fld) (n i j : Nat) : (Chip.addTo f n i j c).bufs = c.bufs := (rfl)
@[simp] theorem Chip.addTo_sqs (f : Fld) (n i j : Nat) : (Chip.addTo f n i j c).sqs = c.sqs := (rfl)
@[simp] theorem Chip.addTo_sqTurn (f : Fld) (n i j : Nat) : (Chip.addTo f n i j c).sqTurn = c.sqTurn := (rfl)
@[simp] theorem Chip.addTo_chans (f : Fld) (n i j : Nat) : (Chip.addTo f n i j c).chans = c.chans := (rfl)
@[simp] theorem Chip.addTo_jbs (f : Fld) (n i j : Nat) : (Chip.addTo f n i j c).jbs = c.jbs := (rfl)
@[simp] theorem Chip.addTo_host (f : Fld) (n i j : Nat) : (Chip.addTo f n i j c).host = c.host := (rfl)
@[simp] theorem Chip.addTo_fault (f : Fld) (n i j : Nat) : (Chip.addTo f n i j c).fault = c.fault := (rfl)
@[simp] theorem Chip.addTo_ranger (f : Fld) (n i j : Nat) : (Chip.addTo f n i j c).ranger = c.ranger := (rfl)
@[simp] theorem Chip.addTo_dram (f : Fld) (n i j : Nat) : (Chip.addTo f n i j c).dram = c.dram := (rfl)
@[simp] theorem Chip.addTo_zeroed (f : Fld) (n i j : Nat) : (Chip.addTo f n i j c).zeroed = c.zeroed := (rfl)
@[simp] theorem Chip.addTo_buses (f : Fld) (n i j : Nat) : (Chip.addTo f n i j c).buses = c.buses := (rfl)
@[simp] theorem Chip.addTo_mix (f : Fld) (n i j : Nat) : (Chip.addTo f n i j c).mix = c.mix := (rfl)
@[simp] theorem Chip.addTo_kerf (f : Fld) (n i j : Nat) : (Chip.addTo f n i j c).kerf = c.kerf := (rfl)
@[simp] theorem Chip.addTo_upsets (f : Fld) (n i j : Nat) : (Chip.addTo f n i j c).upsets = c.upsets := (rfl)
@[simp] theorem Chip.addTo_balers (f : Fld) (n i j : Nat) : (Chip.addTo f n i j c).balers = c.balers := (rfl)
@[simp] theorem Chip.addTo_serial (f : Fld) (n i j : Nat) : (Chip.addTo f n i j c).serial = c.serial := (rfl)
@[simp] theorem Chip.addTo_fns (f : Fld) (n i j : Nat) : (Chip.addTo f n i j c).fns = c.fns := (rfl)
@[simp] theorem Chip.addTo_tonesets (f : Fld) (n i j : Nat) : (Chip.addTo f n i j c).tonesets = c.tonesets := (rfl)
@[simp] theorem Chip.addTo_customs (f : Fld) (n i j : Nat) : (Chip.addTo f n i j c).customs = c.customs := (rfl)
@[simp] theorem Chip.addTo_heads (f : Fld) (n i j : Nat) : (Chip.addTo f n i j c).heads = c.heads := (rfl)
@[simp] theorem Chip.addTo_flume (f : Fld) (n i j : Nat) : (Chip.addTo f n i j c).flume = c.flume := (rfl)
@[simp] theorem Chip.addTo_audio (f : Fld) (n i j : Nat) : (Chip.addTo f n i j c).audio = c.audio := (rfl)
@[simp] theorem Chip.addTo_mc (f : Fld) (n i j : Nat) : (Chip.addTo f n i j c).mc = c.mc := (rfl)
@[simp] theorem Chip.addTo_boot (f : Fld) (n i j : Nat) : (Chip.addTo f n i j c).boot = c.boot := (rfl)
@[simp] theorem Chip.addTo_jtag (f : Fld) (n i j : Nat) : (Chip.addTo f n i j c).jtag = c.jtag := (rfl)

/-! ### Chip.subFrom -/
@[simp] theorem Chip.subFrom_count (f : Fld) (n i j : Nat) : (Chip.subFrom f n i j c).count = c.count := (rfl)
@[simp] theorem Chip.subFrom_draws (f : Fld) (n i j : Nat) : (Chip.subFrom f n i j c).draws = c.draws := (rfl)
@[simp] theorem Chip.subFrom_preqs (f : Fld) (n i j : Nat) : (Chip.subFrom f n i j c).preqs = c.preqs := (rfl)
@[simp] theorem Chip.subFrom_out (f : Fld) (n i j : Nat) : (Chip.subFrom f n i j c).out = c.out := (rfl)
@[simp] theorem Chip.subFrom_dev (f : Fld) (n i j : Nat) : (Chip.subFrom f n i j c).dev = c.dev := (rfl)
@[simp] theorem Chip.subFrom_time (f : Fld) (n i j : Nat) : (Chip.subFrom f n i j c).time = c.time := (rfl)
@[simp] theorem Chip.subFrom_chutes (f : Fld) (n i j : Nat) : (Chip.subFrom f n i j c).chutes = c.chutes := (rfl)
@[simp] theorem Chip.subFrom_arriving (f : Fld) (n i j : Nat) : (Chip.subFrom f n i j c).arriving = c.arriving := (rfl)
@[simp] theorem Chip.subFrom_pool (f : Fld) (n i j : Nat) : (Chip.subFrom f n i j c).pool = c.pool := (rfl)
@[simp] theorem Chip.subFrom_cores (f : Fld) (n i j : Nat) : (Chip.subFrom f n i j c).cores = c.cores := (rfl)
@[simp] theorem Chip.subFrom_slots (f : Fld) (n i j : Nat) : (Chip.subFrom f n i j c).slots = c.slots := (rfl)
@[simp] theorem Chip.subFrom_bufs (f : Fld) (n i j : Nat) : (Chip.subFrom f n i j c).bufs = c.bufs := (rfl)
@[simp] theorem Chip.subFrom_sqs (f : Fld) (n i j : Nat) : (Chip.subFrom f n i j c).sqs = c.sqs := (rfl)
@[simp] theorem Chip.subFrom_sqTurn (f : Fld) (n i j : Nat) : (Chip.subFrom f n i j c).sqTurn = c.sqTurn := (rfl)
@[simp] theorem Chip.subFrom_chans (f : Fld) (n i j : Nat) : (Chip.subFrom f n i j c).chans = c.chans := (rfl)
@[simp] theorem Chip.subFrom_jbs (f : Fld) (n i j : Nat) : (Chip.subFrom f n i j c).jbs = c.jbs := (rfl)
@[simp] theorem Chip.subFrom_host (f : Fld) (n i j : Nat) : (Chip.subFrom f n i j c).host = c.host := (rfl)
@[simp] theorem Chip.subFrom_fault (f : Fld) (n i j : Nat) : (Chip.subFrom f n i j c).fault = c.fault := (rfl)
@[simp] theorem Chip.subFrom_ranger (f : Fld) (n i j : Nat) : (Chip.subFrom f n i j c).ranger = c.ranger := (rfl)
@[simp] theorem Chip.subFrom_dram (f : Fld) (n i j : Nat) : (Chip.subFrom f n i j c).dram = c.dram := (rfl)
@[simp] theorem Chip.subFrom_zeroed (f : Fld) (n i j : Nat) : (Chip.subFrom f n i j c).zeroed = c.zeroed := (rfl)
@[simp] theorem Chip.subFrom_buses (f : Fld) (n i j : Nat) : (Chip.subFrom f n i j c).buses = c.buses := (rfl)
@[simp] theorem Chip.subFrom_mix (f : Fld) (n i j : Nat) : (Chip.subFrom f n i j c).mix = c.mix := (rfl)
@[simp] theorem Chip.subFrom_kerf (f : Fld) (n i j : Nat) : (Chip.subFrom f n i j c).kerf = c.kerf := (rfl)
@[simp] theorem Chip.subFrom_upsets (f : Fld) (n i j : Nat) : (Chip.subFrom f n i j c).upsets = c.upsets := (rfl)
@[simp] theorem Chip.subFrom_balers (f : Fld) (n i j : Nat) : (Chip.subFrom f n i j c).balers = c.balers := (rfl)
@[simp] theorem Chip.subFrom_serial (f : Fld) (n i j : Nat) : (Chip.subFrom f n i j c).serial = c.serial := (rfl)
@[simp] theorem Chip.subFrom_fns (f : Fld) (n i j : Nat) : (Chip.subFrom f n i j c).fns = c.fns := (rfl)
@[simp] theorem Chip.subFrom_tonesets (f : Fld) (n i j : Nat) : (Chip.subFrom f n i j c).tonesets = c.tonesets := (rfl)
@[simp] theorem Chip.subFrom_customs (f : Fld) (n i j : Nat) : (Chip.subFrom f n i j c).customs = c.customs := (rfl)
@[simp] theorem Chip.subFrom_heads (f : Fld) (n i j : Nat) : (Chip.subFrom f n i j c).heads = c.heads := (rfl)
@[simp] theorem Chip.subFrom_flume (f : Fld) (n i j : Nat) : (Chip.subFrom f n i j c).flume = c.flume := (rfl)
@[simp] theorem Chip.subFrom_audio (f : Fld) (n i j : Nat) : (Chip.subFrom f n i j c).audio = c.audio := (rfl)
@[simp] theorem Chip.subFrom_mc (f : Fld) (n i j : Nat) : (Chip.subFrom f n i j c).mc = c.mc := (rfl)
@[simp] theorem Chip.subFrom_boot (f : Fld) (n i j : Nat) : (Chip.subFrom f n i j c).boot = c.boot := (rfl)
@[simp] theorem Chip.subFrom_jtag (f : Fld) (n i j : Nat) : (Chip.subFrom f n i j c).jtag = c.jtag := (rfl)

/-! ### Chip.emit -/
@[simp] theorem Chip.emit_count (o : Output) : (Chip.emit o c).count = c.count := (rfl)
@[simp] theorem Chip.emit_draws (o : Output) : (Chip.emit o c).draws = c.draws := (rfl)
@[simp] theorem Chip.emit_regs (o : Output) : (Chip.emit o c).regs = c.regs := (rfl)
@[simp] theorem Chip.emit_preqs (o : Output) : (Chip.emit o c).preqs = c.preqs := (rfl)
@[simp] theorem Chip.emit_out (o : Output) :
    (Chip.emit o c).out = o :: c.out := (rfl)
@[simp] theorem Chip.emit_dev (o : Output) : (Chip.emit o c).dev = c.dev := (rfl)
@[simp] theorem Chip.emit_time (o : Output) : (Chip.emit o c).time = c.time := (rfl)
@[simp] theorem Chip.emit_chutes (o : Output) : (Chip.emit o c).chutes = c.chutes := (rfl)
@[simp] theorem Chip.emit_arriving (o : Output) : (Chip.emit o c).arriving = c.arriving := (rfl)
@[simp] theorem Chip.emit_pool (o : Output) : (Chip.emit o c).pool = c.pool := (rfl)
@[simp] theorem Chip.emit_cores (o : Output) : (Chip.emit o c).cores = c.cores := (rfl)
@[simp] theorem Chip.emit_slots (o : Output) : (Chip.emit o c).slots = c.slots := (rfl)
@[simp] theorem Chip.emit_bufs (o : Output) : (Chip.emit o c).bufs = c.bufs := (rfl)
@[simp] theorem Chip.emit_sqs (o : Output) : (Chip.emit o c).sqs = c.sqs := (rfl)
@[simp] theorem Chip.emit_sqTurn (o : Output) : (Chip.emit o c).sqTurn = c.sqTurn := (rfl)
@[simp] theorem Chip.emit_chans (o : Output) : (Chip.emit o c).chans = c.chans := (rfl)
@[simp] theorem Chip.emit_jbs (o : Output) : (Chip.emit o c).jbs = c.jbs := (rfl)
@[simp] theorem Chip.emit_host (o : Output) : (Chip.emit o c).host = c.host := (rfl)
@[simp] theorem Chip.emit_fault (o : Output) : (Chip.emit o c).fault = c.fault := (rfl)
@[simp] theorem Chip.emit_ranger (o : Output) : (Chip.emit o c).ranger = c.ranger := (rfl)
@[simp] theorem Chip.emit_dram (o : Output) : (Chip.emit o c).dram = c.dram := (rfl)
@[simp] theorem Chip.emit_zeroed (o : Output) : (Chip.emit o c).zeroed = c.zeroed := (rfl)
@[simp] theorem Chip.emit_buses (o : Output) : (Chip.emit o c).buses = c.buses := (rfl)
@[simp] theorem Chip.emit_mix (o : Output) : (Chip.emit o c).mix = c.mix := (rfl)
@[simp] theorem Chip.emit_kerf (o : Output) : (Chip.emit o c).kerf = c.kerf := (rfl)
@[simp] theorem Chip.emit_upsets (o : Output) : (Chip.emit o c).upsets = c.upsets := (rfl)
@[simp] theorem Chip.emit_balers (o : Output) : (Chip.emit o c).balers = c.balers := (rfl)
@[simp] theorem Chip.emit_serial (o : Output) : (Chip.emit o c).serial = c.serial := (rfl)
@[simp] theorem Chip.emit_fns (o : Output) : (Chip.emit o c).fns = c.fns := (rfl)
@[simp] theorem Chip.emit_tonesets (o : Output) : (Chip.emit o c).tonesets = c.tonesets := (rfl)
@[simp] theorem Chip.emit_customs (o : Output) : (Chip.emit o c).customs = c.customs := (rfl)
@[simp] theorem Chip.emit_heads (o : Output) : (Chip.emit o c).heads = c.heads := (rfl)
@[simp] theorem Chip.emit_flume (o : Output) : (Chip.emit o c).flume = c.flume := (rfl)
@[simp] theorem Chip.emit_audio (o : Output) : (Chip.emit o c).audio = c.audio := (rfl)
@[simp] theorem Chip.emit_mc (o : Output) : (Chip.emit o c).mc = c.mc := (rfl)
@[simp] theorem Chip.emit_boot (o : Output) : (Chip.emit o c).boot = c.boot := (rfl)
@[simp] theorem Chip.emit_jtag (o : Output) : (Chip.emit o c).jtag = c.jtag := (rfl)

/-! ### Chip.modTime -/
@[simp] theorem Chip.modTime_count (f : TimeSt → TimeSt) : (Chip.modTime f c).count = c.count := (rfl)
@[simp] theorem Chip.modTime_draws (f : TimeSt → TimeSt) : (Chip.modTime f c).draws = c.draws := (rfl)
@[simp] theorem Chip.modTime_regs (f : TimeSt → TimeSt) : (Chip.modTime f c).regs = c.regs := (rfl)
@[simp] theorem Chip.modTime_preqs (f : TimeSt → TimeSt) : (Chip.modTime f c).preqs = c.preqs := (rfl)
@[simp] theorem Chip.modTime_out (f : TimeSt → TimeSt) : (Chip.modTime f c).out = c.out := (rfl)
@[simp] theorem Chip.modTime_dev (f : TimeSt → TimeSt) : (Chip.modTime f c).dev = c.dev := (rfl)
@[simp] theorem Chip.modTime_time (f : TimeSt → TimeSt) :
    (Chip.modTime f c).time = f c.time := (rfl)
@[simp] theorem Chip.modTime_chutes (f : TimeSt → TimeSt) : (Chip.modTime f c).chutes = c.chutes := (rfl)
@[simp] theorem Chip.modTime_arriving (f : TimeSt → TimeSt) : (Chip.modTime f c).arriving = c.arriving := (rfl)
@[simp] theorem Chip.modTime_pool (f : TimeSt → TimeSt) : (Chip.modTime f c).pool = c.pool := (rfl)
@[simp] theorem Chip.modTime_cores (f : TimeSt → TimeSt) : (Chip.modTime f c).cores = c.cores := (rfl)
@[simp] theorem Chip.modTime_slots (f : TimeSt → TimeSt) : (Chip.modTime f c).slots = c.slots := (rfl)
@[simp] theorem Chip.modTime_bufs (f : TimeSt → TimeSt) : (Chip.modTime f c).bufs = c.bufs := (rfl)
@[simp] theorem Chip.modTime_sqs (f : TimeSt → TimeSt) : (Chip.modTime f c).sqs = c.sqs := (rfl)
@[simp] theorem Chip.modTime_sqTurn (f : TimeSt → TimeSt) : (Chip.modTime f c).sqTurn = c.sqTurn := (rfl)
@[simp] theorem Chip.modTime_chans (f : TimeSt → TimeSt) : (Chip.modTime f c).chans = c.chans := (rfl)
@[simp] theorem Chip.modTime_jbs (f : TimeSt → TimeSt) : (Chip.modTime f c).jbs = c.jbs := (rfl)
@[simp] theorem Chip.modTime_host (f : TimeSt → TimeSt) : (Chip.modTime f c).host = c.host := (rfl)
@[simp] theorem Chip.modTime_fault (f : TimeSt → TimeSt) : (Chip.modTime f c).fault = c.fault := (rfl)
@[simp] theorem Chip.modTime_ranger (f : TimeSt → TimeSt) : (Chip.modTime f c).ranger = c.ranger := (rfl)
@[simp] theorem Chip.modTime_dram (f : TimeSt → TimeSt) : (Chip.modTime f c).dram = c.dram := (rfl)
@[simp] theorem Chip.modTime_zeroed (f : TimeSt → TimeSt) : (Chip.modTime f c).zeroed = c.zeroed := (rfl)
@[simp] theorem Chip.modTime_buses (f : TimeSt → TimeSt) : (Chip.modTime f c).buses = c.buses := (rfl)
@[simp] theorem Chip.modTime_mix (f : TimeSt → TimeSt) : (Chip.modTime f c).mix = c.mix := (rfl)
@[simp] theorem Chip.modTime_kerf (f : TimeSt → TimeSt) : (Chip.modTime f c).kerf = c.kerf := (rfl)
@[simp] theorem Chip.modTime_upsets (f : TimeSt → TimeSt) : (Chip.modTime f c).upsets = c.upsets := (rfl)
@[simp] theorem Chip.modTime_balers (f : TimeSt → TimeSt) : (Chip.modTime f c).balers = c.balers := (rfl)
@[simp] theorem Chip.modTime_serial (f : TimeSt → TimeSt) : (Chip.modTime f c).serial = c.serial := (rfl)
@[simp] theorem Chip.modTime_fns (f : TimeSt → TimeSt) : (Chip.modTime f c).fns = c.fns := (rfl)
@[simp] theorem Chip.modTime_tonesets (f : TimeSt → TimeSt) : (Chip.modTime f c).tonesets = c.tonesets := (rfl)
@[simp] theorem Chip.modTime_customs (f : TimeSt → TimeSt) : (Chip.modTime f c).customs = c.customs := (rfl)
@[simp] theorem Chip.modTime_heads (f : TimeSt → TimeSt) : (Chip.modTime f c).heads = c.heads := (rfl)
@[simp] theorem Chip.modTime_flume (f : TimeSt → TimeSt) : (Chip.modTime f c).flume = c.flume := (rfl)
@[simp] theorem Chip.modTime_audio (f : TimeSt → TimeSt) : (Chip.modTime f c).audio = c.audio := (rfl)
@[simp] theorem Chip.modTime_mc (f : TimeSt → TimeSt) : (Chip.modTime f c).mc = c.mc := (rfl)
@[simp] theorem Chip.modTime_boot (f : TimeSt → TimeSt) : (Chip.modTime f c).boot = c.boot := (rfl)
@[simp] theorem Chip.modTime_jtag (f : TimeSt → TimeSt) : (Chip.modTime f c).jtag = c.jtag := (rfl)

/-! ### Chip.modHost -/
@[simp] theorem Chip.modHost_count (f : HostSt → HostSt) : (Chip.modHost f c).count = c.count := (rfl)
@[simp] theorem Chip.modHost_draws (f : HostSt → HostSt) : (Chip.modHost f c).draws = c.draws := (rfl)
@[simp] theorem Chip.modHost_regs (f : HostSt → HostSt) : (Chip.modHost f c).regs = c.regs := (rfl)
@[simp] theorem Chip.modHost_preqs (f : HostSt → HostSt) : (Chip.modHost f c).preqs = c.preqs := (rfl)
@[simp] theorem Chip.modHost_out (f : HostSt → HostSt) : (Chip.modHost f c).out = c.out := (rfl)
@[simp] theorem Chip.modHost_dev (f : HostSt → HostSt) : (Chip.modHost f c).dev = c.dev := (rfl)
@[simp] theorem Chip.modHost_time (f : HostSt → HostSt) : (Chip.modHost f c).time = c.time := (rfl)
@[simp] theorem Chip.modHost_chutes (f : HostSt → HostSt) : (Chip.modHost f c).chutes = c.chutes := (rfl)
@[simp] theorem Chip.modHost_arriving (f : HostSt → HostSt) : (Chip.modHost f c).arriving = c.arriving := (rfl)
@[simp] theorem Chip.modHost_pool (f : HostSt → HostSt) : (Chip.modHost f c).pool = c.pool := (rfl)
@[simp] theorem Chip.modHost_cores (f : HostSt → HostSt) : (Chip.modHost f c).cores = c.cores := (rfl)
@[simp] theorem Chip.modHost_slots (f : HostSt → HostSt) : (Chip.modHost f c).slots = c.slots := (rfl)
@[simp] theorem Chip.modHost_bufs (f : HostSt → HostSt) : (Chip.modHost f c).bufs = c.bufs := (rfl)
@[simp] theorem Chip.modHost_sqs (f : HostSt → HostSt) : (Chip.modHost f c).sqs = c.sqs := (rfl)
@[simp] theorem Chip.modHost_sqTurn (f : HostSt → HostSt) : (Chip.modHost f c).sqTurn = c.sqTurn := (rfl)
@[simp] theorem Chip.modHost_chans (f : HostSt → HostSt) : (Chip.modHost f c).chans = c.chans := (rfl)
@[simp] theorem Chip.modHost_jbs (f : HostSt → HostSt) : (Chip.modHost f c).jbs = c.jbs := (rfl)
@[simp] theorem Chip.modHost_host (f : HostSt → HostSt) :
    (Chip.modHost f c).host = f c.host := (rfl)
@[simp] theorem Chip.modHost_fault (f : HostSt → HostSt) : (Chip.modHost f c).fault = c.fault := (rfl)
@[simp] theorem Chip.modHost_ranger (f : HostSt → HostSt) : (Chip.modHost f c).ranger = c.ranger := (rfl)
@[simp] theorem Chip.modHost_dram (f : HostSt → HostSt) : (Chip.modHost f c).dram = c.dram := (rfl)
@[simp] theorem Chip.modHost_zeroed (f : HostSt → HostSt) : (Chip.modHost f c).zeroed = c.zeroed := (rfl)
@[simp] theorem Chip.modHost_buses (f : HostSt → HostSt) : (Chip.modHost f c).buses = c.buses := (rfl)
@[simp] theorem Chip.modHost_mix (f : HostSt → HostSt) : (Chip.modHost f c).mix = c.mix := (rfl)
@[simp] theorem Chip.modHost_kerf (f : HostSt → HostSt) : (Chip.modHost f c).kerf = c.kerf := (rfl)
@[simp] theorem Chip.modHost_upsets (f : HostSt → HostSt) : (Chip.modHost f c).upsets = c.upsets := (rfl)
@[simp] theorem Chip.modHost_balers (f : HostSt → HostSt) : (Chip.modHost f c).balers = c.balers := (rfl)
@[simp] theorem Chip.modHost_serial (f : HostSt → HostSt) : (Chip.modHost f c).serial = c.serial := (rfl)
@[simp] theorem Chip.modHost_fns (f : HostSt → HostSt) : (Chip.modHost f c).fns = c.fns := (rfl)
@[simp] theorem Chip.modHost_tonesets (f : HostSt → HostSt) : (Chip.modHost f c).tonesets = c.tonesets := (rfl)
@[simp] theorem Chip.modHost_customs (f : HostSt → HostSt) : (Chip.modHost f c).customs = c.customs := (rfl)
@[simp] theorem Chip.modHost_heads (f : HostSt → HostSt) : (Chip.modHost f c).heads = c.heads := (rfl)
@[simp] theorem Chip.modHost_flume (f : HostSt → HostSt) : (Chip.modHost f c).flume = c.flume := (rfl)
@[simp] theorem Chip.modHost_audio (f : HostSt → HostSt) : (Chip.modHost f c).audio = c.audio := (rfl)
@[simp] theorem Chip.modHost_mc (f : HostSt → HostSt) : (Chip.modHost f c).mc = c.mc := (rfl)
@[simp] theorem Chip.modHost_boot (f : HostSt → HostSt) : (Chip.modHost f c).boot = c.boot := (rfl)
@[simp] theorem Chip.modHost_jtag (f : HostSt → HostSt) : (Chip.modHost f c).jtag = c.jtag := (rfl)

/-! ### Chip.modFault -/
@[simp] theorem Chip.modFault_count (f : FaultSt → FaultSt) : (Chip.modFault f c).count = c.count := (rfl)
@[simp] theorem Chip.modFault_draws (f : FaultSt → FaultSt) : (Chip.modFault f c).draws = c.draws := (rfl)
@[simp] theorem Chip.modFault_regs (f : FaultSt → FaultSt) : (Chip.modFault f c).regs = c.regs := (rfl)
@[simp] theorem Chip.modFault_preqs (f : FaultSt → FaultSt) : (Chip.modFault f c).preqs = c.preqs := (rfl)
@[simp] theorem Chip.modFault_out (f : FaultSt → FaultSt) : (Chip.modFault f c).out = c.out := (rfl)
@[simp] theorem Chip.modFault_dev (f : FaultSt → FaultSt) : (Chip.modFault f c).dev = c.dev := (rfl)
@[simp] theorem Chip.modFault_time (f : FaultSt → FaultSt) : (Chip.modFault f c).time = c.time := (rfl)
@[simp] theorem Chip.modFault_chutes (f : FaultSt → FaultSt) : (Chip.modFault f c).chutes = c.chutes := (rfl)
@[simp] theorem Chip.modFault_arriving (f : FaultSt → FaultSt) : (Chip.modFault f c).arriving = c.arriving := (rfl)
@[simp] theorem Chip.modFault_pool (f : FaultSt → FaultSt) : (Chip.modFault f c).pool = c.pool := (rfl)
@[simp] theorem Chip.modFault_cores (f : FaultSt → FaultSt) : (Chip.modFault f c).cores = c.cores := (rfl)
@[simp] theorem Chip.modFault_slots (f : FaultSt → FaultSt) : (Chip.modFault f c).slots = c.slots := (rfl)
@[simp] theorem Chip.modFault_bufs (f : FaultSt → FaultSt) : (Chip.modFault f c).bufs = c.bufs := (rfl)
@[simp] theorem Chip.modFault_sqs (f : FaultSt → FaultSt) : (Chip.modFault f c).sqs = c.sqs := (rfl)
@[simp] theorem Chip.modFault_sqTurn (f : FaultSt → FaultSt) : (Chip.modFault f c).sqTurn = c.sqTurn := (rfl)
@[simp] theorem Chip.modFault_chans (f : FaultSt → FaultSt) : (Chip.modFault f c).chans = c.chans := (rfl)
@[simp] theorem Chip.modFault_jbs (f : FaultSt → FaultSt) : (Chip.modFault f c).jbs = c.jbs := (rfl)
@[simp] theorem Chip.modFault_host (f : FaultSt → FaultSt) : (Chip.modFault f c).host = c.host := (rfl)
@[simp] theorem Chip.modFault_fault (f : FaultSt → FaultSt) :
    (Chip.modFault f c).fault = f c.fault := (rfl)
@[simp] theorem Chip.modFault_ranger (f : FaultSt → FaultSt) : (Chip.modFault f c).ranger = c.ranger := (rfl)
@[simp] theorem Chip.modFault_dram (f : FaultSt → FaultSt) : (Chip.modFault f c).dram = c.dram := (rfl)
@[simp] theorem Chip.modFault_zeroed (f : FaultSt → FaultSt) : (Chip.modFault f c).zeroed = c.zeroed := (rfl)
@[simp] theorem Chip.modFault_buses (f : FaultSt → FaultSt) : (Chip.modFault f c).buses = c.buses := (rfl)
@[simp] theorem Chip.modFault_mix (f : FaultSt → FaultSt) : (Chip.modFault f c).mix = c.mix := (rfl)
@[simp] theorem Chip.modFault_kerf (f : FaultSt → FaultSt) : (Chip.modFault f c).kerf = c.kerf := (rfl)
@[simp] theorem Chip.modFault_upsets (f : FaultSt → FaultSt) : (Chip.modFault f c).upsets = c.upsets := (rfl)
@[simp] theorem Chip.modFault_balers (f : FaultSt → FaultSt) : (Chip.modFault f c).balers = c.balers := (rfl)
@[simp] theorem Chip.modFault_serial (f : FaultSt → FaultSt) : (Chip.modFault f c).serial = c.serial := (rfl)
@[simp] theorem Chip.modFault_fns (f : FaultSt → FaultSt) : (Chip.modFault f c).fns = c.fns := (rfl)
@[simp] theorem Chip.modFault_tonesets (f : FaultSt → FaultSt) : (Chip.modFault f c).tonesets = c.tonesets := (rfl)
@[simp] theorem Chip.modFault_customs (f : FaultSt → FaultSt) : (Chip.modFault f c).customs = c.customs := (rfl)
@[simp] theorem Chip.modFault_heads (f : FaultSt → FaultSt) : (Chip.modFault f c).heads = c.heads := (rfl)
@[simp] theorem Chip.modFault_flume (f : FaultSt → FaultSt) : (Chip.modFault f c).flume = c.flume := (rfl)
@[simp] theorem Chip.modFault_audio (f : FaultSt → FaultSt) : (Chip.modFault f c).audio = c.audio := (rfl)
@[simp] theorem Chip.modFault_mc (f : FaultSt → FaultSt) : (Chip.modFault f c).mc = c.mc := (rfl)
@[simp] theorem Chip.modFault_boot (f : FaultSt → FaultSt) : (Chip.modFault f c).boot = c.boot := (rfl)
@[simp] theorem Chip.modFault_jtag (f : FaultSt → FaultSt) : (Chip.modFault f c).jtag = c.jtag := (rfl)

/-! ### Chip.modRanger -/
@[simp] theorem Chip.modRanger_count (f : RangerSt → RangerSt) : (Chip.modRanger f c).count = c.count := (rfl)
@[simp] theorem Chip.modRanger_draws (f : RangerSt → RangerSt) : (Chip.modRanger f c).draws = c.draws := (rfl)
@[simp] theorem Chip.modRanger_regs (f : RangerSt → RangerSt) : (Chip.modRanger f c).regs = c.regs := (rfl)
@[simp] theorem Chip.modRanger_preqs (f : RangerSt → RangerSt) : (Chip.modRanger f c).preqs = c.preqs := (rfl)
@[simp] theorem Chip.modRanger_out (f : RangerSt → RangerSt) : (Chip.modRanger f c).out = c.out := (rfl)
@[simp] theorem Chip.modRanger_dev (f : RangerSt → RangerSt) : (Chip.modRanger f c).dev = c.dev := (rfl)
@[simp] theorem Chip.modRanger_time (f : RangerSt → RangerSt) : (Chip.modRanger f c).time = c.time := (rfl)
@[simp] theorem Chip.modRanger_chutes (f : RangerSt → RangerSt) : (Chip.modRanger f c).chutes = c.chutes := (rfl)
@[simp] theorem Chip.modRanger_arriving (f : RangerSt → RangerSt) : (Chip.modRanger f c).arriving = c.arriving := (rfl)
@[simp] theorem Chip.modRanger_pool (f : RangerSt → RangerSt) : (Chip.modRanger f c).pool = c.pool := (rfl)
@[simp] theorem Chip.modRanger_cores (f : RangerSt → RangerSt) : (Chip.modRanger f c).cores = c.cores := (rfl)
@[simp] theorem Chip.modRanger_slots (f : RangerSt → RangerSt) : (Chip.modRanger f c).slots = c.slots := (rfl)
@[simp] theorem Chip.modRanger_bufs (f : RangerSt → RangerSt) : (Chip.modRanger f c).bufs = c.bufs := (rfl)
@[simp] theorem Chip.modRanger_sqs (f : RangerSt → RangerSt) : (Chip.modRanger f c).sqs = c.sqs := (rfl)
@[simp] theorem Chip.modRanger_sqTurn (f : RangerSt → RangerSt) : (Chip.modRanger f c).sqTurn = c.sqTurn := (rfl)
@[simp] theorem Chip.modRanger_chans (f : RangerSt → RangerSt) : (Chip.modRanger f c).chans = c.chans := (rfl)
@[simp] theorem Chip.modRanger_jbs (f : RangerSt → RangerSt) : (Chip.modRanger f c).jbs = c.jbs := (rfl)
@[simp] theorem Chip.modRanger_host (f : RangerSt → RangerSt) : (Chip.modRanger f c).host = c.host := (rfl)
@[simp] theorem Chip.modRanger_fault (f : RangerSt → RangerSt) : (Chip.modRanger f c).fault = c.fault := (rfl)
@[simp] theorem Chip.modRanger_ranger (f : RangerSt → RangerSt) :
    (Chip.modRanger f c).ranger = f c.ranger := (rfl)
@[simp] theorem Chip.modRanger_dram (f : RangerSt → RangerSt) : (Chip.modRanger f c).dram = c.dram := (rfl)
@[simp] theorem Chip.modRanger_zeroed (f : RangerSt → RangerSt) : (Chip.modRanger f c).zeroed = c.zeroed := (rfl)
@[simp] theorem Chip.modRanger_buses (f : RangerSt → RangerSt) : (Chip.modRanger f c).buses = c.buses := (rfl)
@[simp] theorem Chip.modRanger_mix (f : RangerSt → RangerSt) : (Chip.modRanger f c).mix = c.mix := (rfl)
@[simp] theorem Chip.modRanger_kerf (f : RangerSt → RangerSt) : (Chip.modRanger f c).kerf = c.kerf := (rfl)
@[simp] theorem Chip.modRanger_upsets (f : RangerSt → RangerSt) : (Chip.modRanger f c).upsets = c.upsets := (rfl)
@[simp] theorem Chip.modRanger_balers (f : RangerSt → RangerSt) : (Chip.modRanger f c).balers = c.balers := (rfl)
@[simp] theorem Chip.modRanger_serial (f : RangerSt → RangerSt) : (Chip.modRanger f c).serial = c.serial := (rfl)
@[simp] theorem Chip.modRanger_fns (f : RangerSt → RangerSt) : (Chip.modRanger f c).fns = c.fns := (rfl)
@[simp] theorem Chip.modRanger_tonesets (f : RangerSt → RangerSt) : (Chip.modRanger f c).tonesets = c.tonesets := (rfl)
@[simp] theorem Chip.modRanger_customs (f : RangerSt → RangerSt) : (Chip.modRanger f c).customs = c.customs := (rfl)
@[simp] theorem Chip.modRanger_heads (f : RangerSt → RangerSt) : (Chip.modRanger f c).heads = c.heads := (rfl)
@[simp] theorem Chip.modRanger_flume (f : RangerSt → RangerSt) : (Chip.modRanger f c).flume = c.flume := (rfl)
@[simp] theorem Chip.modRanger_audio (f : RangerSt → RangerSt) : (Chip.modRanger f c).audio = c.audio := (rfl)
@[simp] theorem Chip.modRanger_mc (f : RangerSt → RangerSt) : (Chip.modRanger f c).mc = c.mc := (rfl)
@[simp] theorem Chip.modRanger_boot (f : RangerSt → RangerSt) : (Chip.modRanger f c).boot = c.boot := (rfl)
@[simp] theorem Chip.modRanger_jtag (f : RangerSt → RangerSt) : (Chip.modRanger f c).jtag = c.jtag := (rfl)

/-! ### Chip.modDev -/
@[simp] theorem Chip.modDev_count (f : DevSt → DevSt) : (Chip.modDev f c).count = c.count := (rfl)
@[simp] theorem Chip.modDev_draws (f : DevSt → DevSt) : (Chip.modDev f c).draws = c.draws := (rfl)
@[simp] theorem Chip.modDev_regs (f : DevSt → DevSt) : (Chip.modDev f c).regs = c.regs := (rfl)
@[simp] theorem Chip.modDev_preqs (f : DevSt → DevSt) : (Chip.modDev f c).preqs = c.preqs := (rfl)
@[simp] theorem Chip.modDev_out (f : DevSt → DevSt) : (Chip.modDev f c).out = c.out := (rfl)
@[simp] theorem Chip.modDev_dev (f : DevSt → DevSt) :
    (Chip.modDev f c).dev = f c.dev := (rfl)
@[simp] theorem Chip.modDev_time (f : DevSt → DevSt) : (Chip.modDev f c).time = c.time := (rfl)
@[simp] theorem Chip.modDev_chutes (f : DevSt → DevSt) : (Chip.modDev f c).chutes = c.chutes := (rfl)
@[simp] theorem Chip.modDev_arriving (f : DevSt → DevSt) : (Chip.modDev f c).arriving = c.arriving := (rfl)
@[simp] theorem Chip.modDev_pool (f : DevSt → DevSt) : (Chip.modDev f c).pool = c.pool := (rfl)
@[simp] theorem Chip.modDev_cores (f : DevSt → DevSt) : (Chip.modDev f c).cores = c.cores := (rfl)
@[simp] theorem Chip.modDev_slots (f : DevSt → DevSt) : (Chip.modDev f c).slots = c.slots := (rfl)
@[simp] theorem Chip.modDev_bufs (f : DevSt → DevSt) : (Chip.modDev f c).bufs = c.bufs := (rfl)
@[simp] theorem Chip.modDev_sqs (f : DevSt → DevSt) : (Chip.modDev f c).sqs = c.sqs := (rfl)
@[simp] theorem Chip.modDev_sqTurn (f : DevSt → DevSt) : (Chip.modDev f c).sqTurn = c.sqTurn := (rfl)
@[simp] theorem Chip.modDev_chans (f : DevSt → DevSt) : (Chip.modDev f c).chans = c.chans := (rfl)
@[simp] theorem Chip.modDev_jbs (f : DevSt → DevSt) : (Chip.modDev f c).jbs = c.jbs := (rfl)
@[simp] theorem Chip.modDev_host (f : DevSt → DevSt) : (Chip.modDev f c).host = c.host := (rfl)
@[simp] theorem Chip.modDev_fault (f : DevSt → DevSt) : (Chip.modDev f c).fault = c.fault := (rfl)
@[simp] theorem Chip.modDev_ranger (f : DevSt → DevSt) : (Chip.modDev f c).ranger = c.ranger := (rfl)
@[simp] theorem Chip.modDev_dram (f : DevSt → DevSt) : (Chip.modDev f c).dram = c.dram := (rfl)
@[simp] theorem Chip.modDev_zeroed (f : DevSt → DevSt) : (Chip.modDev f c).zeroed = c.zeroed := (rfl)
@[simp] theorem Chip.modDev_buses (f : DevSt → DevSt) : (Chip.modDev f c).buses = c.buses := (rfl)
@[simp] theorem Chip.modDev_mix (f : DevSt → DevSt) : (Chip.modDev f c).mix = c.mix := (rfl)
@[simp] theorem Chip.modDev_kerf (f : DevSt → DevSt) : (Chip.modDev f c).kerf = c.kerf := (rfl)
@[simp] theorem Chip.modDev_upsets (f : DevSt → DevSt) : (Chip.modDev f c).upsets = c.upsets := (rfl)
@[simp] theorem Chip.modDev_balers (f : DevSt → DevSt) : (Chip.modDev f c).balers = c.balers := (rfl)
@[simp] theorem Chip.modDev_serial (f : DevSt → DevSt) : (Chip.modDev f c).serial = c.serial := (rfl)
@[simp] theorem Chip.modDev_fns (f : DevSt → DevSt) : (Chip.modDev f c).fns = c.fns := (rfl)
@[simp] theorem Chip.modDev_tonesets (f : DevSt → DevSt) : (Chip.modDev f c).tonesets = c.tonesets := (rfl)
@[simp] theorem Chip.modDev_customs (f : DevSt → DevSt) : (Chip.modDev f c).customs = c.customs := (rfl)
@[simp] theorem Chip.modDev_heads (f : DevSt → DevSt) : (Chip.modDev f c).heads = c.heads := (rfl)
@[simp] theorem Chip.modDev_flume (f : DevSt → DevSt) : (Chip.modDev f c).flume = c.flume := (rfl)
@[simp] theorem Chip.modDev_audio (f : DevSt → DevSt) : (Chip.modDev f c).audio = c.audio := (rfl)
@[simp] theorem Chip.modDev_mc (f : DevSt → DevSt) : (Chip.modDev f c).mc = c.mc := (rfl)
@[simp] theorem Chip.modDev_boot (f : DevSt → DevSt) : (Chip.modDev f c).boot = c.boot := (rfl)
@[simp] theorem Chip.modDev_jtag (f : DevSt → DevSt) : (Chip.modDev f c).jtag = c.jtag := (rfl)

/-! ### Chip.modCore -/
@[simp] theorem Chip.modCore_count (k : Nat) (f : CoreSt → CoreSt) : (Chip.modCore k f c).count = c.count := (rfl)
@[simp] theorem Chip.modCore_draws (k : Nat) (f : CoreSt → CoreSt) : (Chip.modCore k f c).draws = c.draws := (rfl)
@[simp] theorem Chip.modCore_regs (k : Nat) (f : CoreSt → CoreSt) : (Chip.modCore k f c).regs = c.regs := (rfl)
@[simp] theorem Chip.modCore_preqs (k : Nat) (f : CoreSt → CoreSt) : (Chip.modCore k f c).preqs = c.preqs := (rfl)
@[simp] theorem Chip.modCore_out (k : Nat) (f : CoreSt → CoreSt) : (Chip.modCore k f c).out = c.out := (rfl)
@[simp] theorem Chip.modCore_dev (k : Nat) (f : CoreSt → CoreSt) : (Chip.modCore k f c).dev = c.dev := (rfl)
@[simp] theorem Chip.modCore_time (k : Nat) (f : CoreSt → CoreSt) : (Chip.modCore k f c).time = c.time := (rfl)
@[simp] theorem Chip.modCore_chutes (k : Nat) (f : CoreSt → CoreSt) : (Chip.modCore k f c).chutes = c.chutes := (rfl)
@[simp] theorem Chip.modCore_arriving (k : Nat) (f : CoreSt → CoreSt) : (Chip.modCore k f c).arriving = c.arriving := (rfl)
@[simp] theorem Chip.modCore_pool (k : Nat) (f : CoreSt → CoreSt) : (Chip.modCore k f c).pool = c.pool := (rfl)
@[simp] theorem Chip.modCore_cores (k : Nat) (f : CoreSt → CoreSt) :
    (Chip.modCore k f c).cores = Cells.modify {} k f c.cores := (rfl)
@[simp] theorem Chip.modCore_slots (k : Nat) (f : CoreSt → CoreSt) : (Chip.modCore k f c).slots = c.slots := (rfl)
@[simp] theorem Chip.modCore_bufs (k : Nat) (f : CoreSt → CoreSt) : (Chip.modCore k f c).bufs = c.bufs := (rfl)
@[simp] theorem Chip.modCore_sqs (k : Nat) (f : CoreSt → CoreSt) : (Chip.modCore k f c).sqs = c.sqs := (rfl)
@[simp] theorem Chip.modCore_sqTurn (k : Nat) (f : CoreSt → CoreSt) : (Chip.modCore k f c).sqTurn = c.sqTurn := (rfl)
@[simp] theorem Chip.modCore_chans (k : Nat) (f : CoreSt → CoreSt) : (Chip.modCore k f c).chans = c.chans := (rfl)
@[simp] theorem Chip.modCore_jbs (k : Nat) (f : CoreSt → CoreSt) : (Chip.modCore k f c).jbs = c.jbs := (rfl)
@[simp] theorem Chip.modCore_host (k : Nat) (f : CoreSt → CoreSt) : (Chip.modCore k f c).host = c.host := (rfl)
@[simp] theorem Chip.modCore_fault (k : Nat) (f : CoreSt → CoreSt) : (Chip.modCore k f c).fault = c.fault := (rfl)
@[simp] theorem Chip.modCore_ranger (k : Nat) (f : CoreSt → CoreSt) : (Chip.modCore k f c).ranger = c.ranger := (rfl)
@[simp] theorem Chip.modCore_dram (k : Nat) (f : CoreSt → CoreSt) : (Chip.modCore k f c).dram = c.dram := (rfl)
@[simp] theorem Chip.modCore_zeroed (k : Nat) (f : CoreSt → CoreSt) : (Chip.modCore k f c).zeroed = c.zeroed := (rfl)
@[simp] theorem Chip.modCore_buses (k : Nat) (f : CoreSt → CoreSt) : (Chip.modCore k f c).buses = c.buses := (rfl)
@[simp] theorem Chip.modCore_mix (k : Nat) (f : CoreSt → CoreSt) : (Chip.modCore k f c).mix = c.mix := (rfl)
@[simp] theorem Chip.modCore_kerf (k : Nat) (f : CoreSt → CoreSt) : (Chip.modCore k f c).kerf = c.kerf := (rfl)
@[simp] theorem Chip.modCore_upsets (k : Nat) (f : CoreSt → CoreSt) : (Chip.modCore k f c).upsets = c.upsets := (rfl)
@[simp] theorem Chip.modCore_balers (k : Nat) (f : CoreSt → CoreSt) : (Chip.modCore k f c).balers = c.balers := (rfl)
@[simp] theorem Chip.modCore_serial (k : Nat) (f : CoreSt → CoreSt) : (Chip.modCore k f c).serial = c.serial := (rfl)
@[simp] theorem Chip.modCore_fns (k : Nat) (f : CoreSt → CoreSt) : (Chip.modCore k f c).fns = c.fns := (rfl)
@[simp] theorem Chip.modCore_tonesets (k : Nat) (f : CoreSt → CoreSt) : (Chip.modCore k f c).tonesets = c.tonesets := (rfl)
@[simp] theorem Chip.modCore_customs (k : Nat) (f : CoreSt → CoreSt) : (Chip.modCore k f c).customs = c.customs := (rfl)
@[simp] theorem Chip.modCore_heads (k : Nat) (f : CoreSt → CoreSt) : (Chip.modCore k f c).heads = c.heads := (rfl)
@[simp] theorem Chip.modCore_flume (k : Nat) (f : CoreSt → CoreSt) : (Chip.modCore k f c).flume = c.flume := (rfl)
@[simp] theorem Chip.modCore_audio (k : Nat) (f : CoreSt → CoreSt) : (Chip.modCore k f c).audio = c.audio := (rfl)
@[simp] theorem Chip.modCore_mc (k : Nat) (f : CoreSt → CoreSt) : (Chip.modCore k f c).mc = c.mc := (rfl)
@[simp] theorem Chip.modCore_boot (k : Nat) (f : CoreSt → CoreSt) : (Chip.modCore k f c).boot = c.boot := (rfl)
@[simp] theorem Chip.modCore_jtag (k : Nat) (f : CoreSt → CoreSt) : (Chip.modCore k f c).jtag = c.jtag := (rfl)

/-! ### Chip.setReg -/
@[simp] theorem Chip.setReg_count (k : Nat) (r : GReg) (w : Word) : (Chip.setReg k r w c).count = c.count := (rfl)
@[simp] theorem Chip.setReg_draws (k : Nat) (r : GReg) (w : Word) : (Chip.setReg k r w c).draws = c.draws := (rfl)
@[simp] theorem Chip.setReg_regs (k : Nat) (r : GReg) (w : Word) : (Chip.setReg k r w c).regs = c.regs := (rfl)
@[simp] theorem Chip.setReg_preqs (k : Nat) (r : GReg) (w : Word) : (Chip.setReg k r w c).preqs = c.preqs := (rfl)
@[simp] theorem Chip.setReg_out (k : Nat) (r : GReg) (w : Word) : (Chip.setReg k r w c).out = c.out := (rfl)
@[simp] theorem Chip.setReg_dev (k : Nat) (r : GReg) (w : Word) : (Chip.setReg k r w c).dev = c.dev := (rfl)
@[simp] theorem Chip.setReg_time (k : Nat) (r : GReg) (w : Word) : (Chip.setReg k r w c).time = c.time := (rfl)
@[simp] theorem Chip.setReg_chutes (k : Nat) (r : GReg) (w : Word) : (Chip.setReg k r w c).chutes = c.chutes := (rfl)
@[simp] theorem Chip.setReg_arriving (k : Nat) (r : GReg) (w : Word) : (Chip.setReg k r w c).arriving = c.arriving := (rfl)
@[simp] theorem Chip.setReg_pool (k : Nat) (r : GReg) (w : Word) : (Chip.setReg k r w c).pool = c.pool := (rfl)
@[simp] theorem Chip.setReg_slots (k : Nat) (r : GReg) (w : Word) : (Chip.setReg k r w c).slots = c.slots := (rfl)
@[simp] theorem Chip.setReg_bufs (k : Nat) (r : GReg) (w : Word) : (Chip.setReg k r w c).bufs = c.bufs := (rfl)
@[simp] theorem Chip.setReg_sqs (k : Nat) (r : GReg) (w : Word) : (Chip.setReg k r w c).sqs = c.sqs := (rfl)
@[simp] theorem Chip.setReg_sqTurn (k : Nat) (r : GReg) (w : Word) : (Chip.setReg k r w c).sqTurn = c.sqTurn := (rfl)
@[simp] theorem Chip.setReg_chans (k : Nat) (r : GReg) (w : Word) : (Chip.setReg k r w c).chans = c.chans := (rfl)
@[simp] theorem Chip.setReg_jbs (k : Nat) (r : GReg) (w : Word) : (Chip.setReg k r w c).jbs = c.jbs := (rfl)
@[simp] theorem Chip.setReg_host (k : Nat) (r : GReg) (w : Word) : (Chip.setReg k r w c).host = c.host := (rfl)
@[simp] theorem Chip.setReg_fault (k : Nat) (r : GReg) (w : Word) : (Chip.setReg k r w c).fault = c.fault := (rfl)
@[simp] theorem Chip.setReg_ranger (k : Nat) (r : GReg) (w : Word) : (Chip.setReg k r w c).ranger = c.ranger := (rfl)
@[simp] theorem Chip.setReg_dram (k : Nat) (r : GReg) (w : Word) : (Chip.setReg k r w c).dram = c.dram := (rfl)
@[simp] theorem Chip.setReg_zeroed (k : Nat) (r : GReg) (w : Word) : (Chip.setReg k r w c).zeroed = c.zeroed := (rfl)
@[simp] theorem Chip.setReg_buses (k : Nat) (r : GReg) (w : Word) : (Chip.setReg k r w c).buses = c.buses := (rfl)
@[simp] theorem Chip.setReg_mix (k : Nat) (r : GReg) (w : Word) : (Chip.setReg k r w c).mix = c.mix := (rfl)
@[simp] theorem Chip.setReg_kerf (k : Nat) (r : GReg) (w : Word) : (Chip.setReg k r w c).kerf = c.kerf := (rfl)
@[simp] theorem Chip.setReg_upsets (k : Nat) (r : GReg) (w : Word) : (Chip.setReg k r w c).upsets = c.upsets := (rfl)
@[simp] theorem Chip.setReg_balers (k : Nat) (r : GReg) (w : Word) : (Chip.setReg k r w c).balers = c.balers := (rfl)
@[simp] theorem Chip.setReg_serial (k : Nat) (r : GReg) (w : Word) : (Chip.setReg k r w c).serial = c.serial := (rfl)
@[simp] theorem Chip.setReg_fns (k : Nat) (r : GReg) (w : Word) : (Chip.setReg k r w c).fns = c.fns := (rfl)
@[simp] theorem Chip.setReg_tonesets (k : Nat) (r : GReg) (w : Word) : (Chip.setReg k r w c).tonesets = c.tonesets := (rfl)
@[simp] theorem Chip.setReg_customs (k : Nat) (r : GReg) (w : Word) : (Chip.setReg k r w c).customs = c.customs := (rfl)
@[simp] theorem Chip.setReg_heads (k : Nat) (r : GReg) (w : Word) : (Chip.setReg k r w c).heads = c.heads := (rfl)
@[simp] theorem Chip.setReg_flume (k : Nat) (r : GReg) (w : Word) : (Chip.setReg k r w c).flume = c.flume := (rfl)
@[simp] theorem Chip.setReg_audio (k : Nat) (r : GReg) (w : Word) : (Chip.setReg k r w c).audio = c.audio := (rfl)
@[simp] theorem Chip.setReg_mc (k : Nat) (r : GReg) (w : Word) : (Chip.setReg k r w c).mc = c.mc := (rfl)
@[simp] theorem Chip.setReg_boot (k : Nat) (r : GReg) (w : Word) : (Chip.setReg k r w c).boot = c.boot := (rfl)
@[simp] theorem Chip.setReg_jtag (k : Nat) (r : GReg) (w : Word) : (Chip.setReg k r w c).jtag = c.jtag := (rfl)

/-! ### Chip.setFlags -/
@[simp] theorem Chip.setFlags_count (k : Nat) (l : List (Nat × Bool)) : (Chip.setFlags k l c).count = c.count := (rfl)
@[simp] theorem Chip.setFlags_draws (k : Nat) (l : List (Nat × Bool)) : (Chip.setFlags k l c).draws = c.draws := (rfl)
@[simp] theorem Chip.setFlags_regs (k : Nat) (l : List (Nat × Bool)) : (Chip.setFlags k l c).regs = c.regs := (rfl)
@[simp] theorem Chip.setFlags_preqs (k : Nat) (l : List (Nat × Bool)) : (Chip.setFlags k l c).preqs = c.preqs := (rfl)
@[simp] theorem Chip.setFlags_out (k : Nat) (l : List (Nat × Bool)) : (Chip.setFlags k l c).out = c.out := (rfl)
@[simp] theorem Chip.setFlags_dev (k : Nat) (l : List (Nat × Bool)) : (Chip.setFlags k l c).dev = c.dev := (rfl)
@[simp] theorem Chip.setFlags_time (k : Nat) (l : List (Nat × Bool)) : (Chip.setFlags k l c).time = c.time := (rfl)
@[simp] theorem Chip.setFlags_chutes (k : Nat) (l : List (Nat × Bool)) : (Chip.setFlags k l c).chutes = c.chutes := (rfl)
@[simp] theorem Chip.setFlags_arriving (k : Nat) (l : List (Nat × Bool)) : (Chip.setFlags k l c).arriving = c.arriving := (rfl)
@[simp] theorem Chip.setFlags_pool (k : Nat) (l : List (Nat × Bool)) : (Chip.setFlags k l c).pool = c.pool := (rfl)
@[simp] theorem Chip.setFlags_slots (k : Nat) (l : List (Nat × Bool)) : (Chip.setFlags k l c).slots = c.slots := (rfl)
@[simp] theorem Chip.setFlags_bufs (k : Nat) (l : List (Nat × Bool)) : (Chip.setFlags k l c).bufs = c.bufs := (rfl)
@[simp] theorem Chip.setFlags_sqs (k : Nat) (l : List (Nat × Bool)) : (Chip.setFlags k l c).sqs = c.sqs := (rfl)
@[simp] theorem Chip.setFlags_sqTurn (k : Nat) (l : List (Nat × Bool)) : (Chip.setFlags k l c).sqTurn = c.sqTurn := (rfl)
@[simp] theorem Chip.setFlags_chans (k : Nat) (l : List (Nat × Bool)) : (Chip.setFlags k l c).chans = c.chans := (rfl)
@[simp] theorem Chip.setFlags_jbs (k : Nat) (l : List (Nat × Bool)) : (Chip.setFlags k l c).jbs = c.jbs := (rfl)
@[simp] theorem Chip.setFlags_host (k : Nat) (l : List (Nat × Bool)) : (Chip.setFlags k l c).host = c.host := (rfl)
@[simp] theorem Chip.setFlags_fault (k : Nat) (l : List (Nat × Bool)) : (Chip.setFlags k l c).fault = c.fault := (rfl)
@[simp] theorem Chip.setFlags_ranger (k : Nat) (l : List (Nat × Bool)) : (Chip.setFlags k l c).ranger = c.ranger := (rfl)
@[simp] theorem Chip.setFlags_dram (k : Nat) (l : List (Nat × Bool)) : (Chip.setFlags k l c).dram = c.dram := (rfl)
@[simp] theorem Chip.setFlags_zeroed (k : Nat) (l : List (Nat × Bool)) : (Chip.setFlags k l c).zeroed = c.zeroed := (rfl)
@[simp] theorem Chip.setFlags_buses (k : Nat) (l : List (Nat × Bool)) : (Chip.setFlags k l c).buses = c.buses := (rfl)
@[simp] theorem Chip.setFlags_mix (k : Nat) (l : List (Nat × Bool)) : (Chip.setFlags k l c).mix = c.mix := (rfl)
@[simp] theorem Chip.setFlags_kerf (k : Nat) (l : List (Nat × Bool)) : (Chip.setFlags k l c).kerf = c.kerf := (rfl)
@[simp] theorem Chip.setFlags_upsets (k : Nat) (l : List (Nat × Bool)) : (Chip.setFlags k l c).upsets = c.upsets := (rfl)
@[simp] theorem Chip.setFlags_balers (k : Nat) (l : List (Nat × Bool)) : (Chip.setFlags k l c).balers = c.balers := (rfl)
@[simp] theorem Chip.setFlags_serial (k : Nat) (l : List (Nat × Bool)) : (Chip.setFlags k l c).serial = c.serial := (rfl)
@[simp] theorem Chip.setFlags_fns (k : Nat) (l : List (Nat × Bool)) : (Chip.setFlags k l c).fns = c.fns := (rfl)
@[simp] theorem Chip.setFlags_tonesets (k : Nat) (l : List (Nat × Bool)) : (Chip.setFlags k l c).tonesets = c.tonesets := (rfl)
@[simp] theorem Chip.setFlags_customs (k : Nat) (l : List (Nat × Bool)) : (Chip.setFlags k l c).customs = c.customs := (rfl)
@[simp] theorem Chip.setFlags_heads (k : Nat) (l : List (Nat × Bool)) : (Chip.setFlags k l c).heads = c.heads := (rfl)
@[simp] theorem Chip.setFlags_flume (k : Nat) (l : List (Nat × Bool)) : (Chip.setFlags k l c).flume = c.flume := (rfl)
@[simp] theorem Chip.setFlags_audio (k : Nat) (l : List (Nat × Bool)) : (Chip.setFlags k l c).audio = c.audio := (rfl)
@[simp] theorem Chip.setFlags_mc (k : Nat) (l : List (Nat × Bool)) : (Chip.setFlags k l c).mc = c.mc := (rfl)
@[simp] theorem Chip.setFlags_boot (k : Nat) (l : List (Nat × Bool)) : (Chip.setFlags k l c).boot = c.boot := (rfl)
@[simp] theorem Chip.setFlags_jtag (k : Nat) (l : List (Nat × Bool)) : (Chip.setFlags k l c).jtag = c.jtag := (rfl)

/-! ### Chip.modJb -/
@[simp] theorem Chip.modJb_count (ch : Nat) (f : JbSt → JbSt) : (Chip.modJb ch f c).count = c.count := (rfl)
@[simp] theorem Chip.modJb_draws (ch : Nat) (f : JbSt → JbSt) : (Chip.modJb ch f c).draws = c.draws := (rfl)
@[simp] theorem Chip.modJb_regs (ch : Nat) (f : JbSt → JbSt) : (Chip.modJb ch f c).regs = c.regs := (rfl)
@[simp] theorem Chip.modJb_preqs (ch : Nat) (f : JbSt → JbSt) : (Chip.modJb ch f c).preqs = c.preqs := (rfl)
@[simp] theorem Chip.modJb_out (ch : Nat) (f : JbSt → JbSt) : (Chip.modJb ch f c).out = c.out := (rfl)
@[simp] theorem Chip.modJb_dev (ch : Nat) (f : JbSt → JbSt) : (Chip.modJb ch f c).dev = c.dev := (rfl)
@[simp] theorem Chip.modJb_time (ch : Nat) (f : JbSt → JbSt) : (Chip.modJb ch f c).time = c.time := (rfl)
@[simp] theorem Chip.modJb_chutes (ch : Nat) (f : JbSt → JbSt) : (Chip.modJb ch f c).chutes = c.chutes := (rfl)
@[simp] theorem Chip.modJb_arriving (ch : Nat) (f : JbSt → JbSt) : (Chip.modJb ch f c).arriving = c.arriving := (rfl)
@[simp] theorem Chip.modJb_pool (ch : Nat) (f : JbSt → JbSt) : (Chip.modJb ch f c).pool = c.pool := (rfl)
@[simp] theorem Chip.modJb_cores (ch : Nat) (f : JbSt → JbSt) : (Chip.modJb ch f c).cores = c.cores := (rfl)
@[simp] theorem Chip.modJb_slots (ch : Nat) (f : JbSt → JbSt) : (Chip.modJb ch f c).slots = c.slots := (rfl)
@[simp] theorem Chip.modJb_bufs (ch : Nat) (f : JbSt → JbSt) : (Chip.modJb ch f c).bufs = c.bufs := (rfl)
@[simp] theorem Chip.modJb_sqs (ch : Nat) (f : JbSt → JbSt) : (Chip.modJb ch f c).sqs = c.sqs := (rfl)
@[simp] theorem Chip.modJb_sqTurn (ch : Nat) (f : JbSt → JbSt) : (Chip.modJb ch f c).sqTurn = c.sqTurn := (rfl)
@[simp] theorem Chip.modJb_chans (ch : Nat) (f : JbSt → JbSt) : (Chip.modJb ch f c).chans = c.chans := (rfl)
@[simp] theorem Chip.modJb_jbs (ch : Nat) (f : JbSt → JbSt) :
    (Chip.modJb ch f c).jbs = Cells.modify {} ch f c.jbs := (rfl)
@[simp] theorem Chip.modJb_host (ch : Nat) (f : JbSt → JbSt) : (Chip.modJb ch f c).host = c.host := (rfl)
@[simp] theorem Chip.modJb_fault (ch : Nat) (f : JbSt → JbSt) : (Chip.modJb ch f c).fault = c.fault := (rfl)
@[simp] theorem Chip.modJb_ranger (ch : Nat) (f : JbSt → JbSt) : (Chip.modJb ch f c).ranger = c.ranger := (rfl)
@[simp] theorem Chip.modJb_dram (ch : Nat) (f : JbSt → JbSt) : (Chip.modJb ch f c).dram = c.dram := (rfl)
@[simp] theorem Chip.modJb_zeroed (ch : Nat) (f : JbSt → JbSt) : (Chip.modJb ch f c).zeroed = c.zeroed := (rfl)
@[simp] theorem Chip.modJb_buses (ch : Nat) (f : JbSt → JbSt) : (Chip.modJb ch f c).buses = c.buses := (rfl)
@[simp] theorem Chip.modJb_mix (ch : Nat) (f : JbSt → JbSt) : (Chip.modJb ch f c).mix = c.mix := (rfl)
@[simp] theorem Chip.modJb_kerf (ch : Nat) (f : JbSt → JbSt) : (Chip.modJb ch f c).kerf = c.kerf := (rfl)
@[simp] theorem Chip.modJb_upsets (ch : Nat) (f : JbSt → JbSt) : (Chip.modJb ch f c).upsets = c.upsets := (rfl)
@[simp] theorem Chip.modJb_balers (ch : Nat) (f : JbSt → JbSt) : (Chip.modJb ch f c).balers = c.balers := (rfl)
@[simp] theorem Chip.modJb_serial (ch : Nat) (f : JbSt → JbSt) : (Chip.modJb ch f c).serial = c.serial := (rfl)
@[simp] theorem Chip.modJb_fns (ch : Nat) (f : JbSt → JbSt) : (Chip.modJb ch f c).fns = c.fns := (rfl)
@[simp] theorem Chip.modJb_tonesets (ch : Nat) (f : JbSt → JbSt) : (Chip.modJb ch f c).tonesets = c.tonesets := (rfl)
@[simp] theorem Chip.modJb_customs (ch : Nat) (f : JbSt → JbSt) : (Chip.modJb ch f c).customs = c.customs := (rfl)
@[simp] theorem Chip.modJb_heads (ch : Nat) (f : JbSt → JbSt) : (Chip.modJb ch f c).heads = c.heads := (rfl)
@[simp] theorem Chip.modJb_flume (ch : Nat) (f : JbSt → JbSt) : (Chip.modJb ch f c).flume = c.flume := (rfl)
@[simp] theorem Chip.modJb_audio (ch : Nat) (f : JbSt → JbSt) : (Chip.modJb ch f c).audio = c.audio := (rfl)
@[simp] theorem Chip.modJb_mc (ch : Nat) (f : JbSt → JbSt) : (Chip.modJb ch f c).mc = c.mc := (rfl)
@[simp] theorem Chip.modJb_boot (ch : Nat) (f : JbSt → JbSt) : (Chip.modJb ch f c).boot = c.boot := (rfl)
@[simp] theorem Chip.modJb_jtag (ch : Nat) (f : JbSt → JbSt) : (Chip.modJb ch f c).jtag = c.jtag := (rfl)

/-! ### Chip.modFn -/
@[simp] theorem Chip.modFn_count (ch : Nat) (f : FnSt → FnSt) : (Chip.modFn ch f c).count = c.count := (rfl)
@[simp] theorem Chip.modFn_draws (ch : Nat) (f : FnSt → FnSt) : (Chip.modFn ch f c).draws = c.draws := (rfl)
@[simp] theorem Chip.modFn_regs (ch : Nat) (f : FnSt → FnSt) : (Chip.modFn ch f c).regs = c.regs := (rfl)
@[simp] theorem Chip.modFn_preqs (ch : Nat) (f : FnSt → FnSt) : (Chip.modFn ch f c).preqs = c.preqs := (rfl)
@[simp] theorem Chip.modFn_out (ch : Nat) (f : FnSt → FnSt) : (Chip.modFn ch f c).out = c.out := (rfl)
@[simp] theorem Chip.modFn_dev (ch : Nat) (f : FnSt → FnSt) : (Chip.modFn ch f c).dev = c.dev := (rfl)
@[simp] theorem Chip.modFn_time (ch : Nat) (f : FnSt → FnSt) : (Chip.modFn ch f c).time = c.time := (rfl)
@[simp] theorem Chip.modFn_chutes (ch : Nat) (f : FnSt → FnSt) : (Chip.modFn ch f c).chutes = c.chutes := (rfl)
@[simp] theorem Chip.modFn_arriving (ch : Nat) (f : FnSt → FnSt) : (Chip.modFn ch f c).arriving = c.arriving := (rfl)
@[simp] theorem Chip.modFn_pool (ch : Nat) (f : FnSt → FnSt) : (Chip.modFn ch f c).pool = c.pool := (rfl)
@[simp] theorem Chip.modFn_cores (ch : Nat) (f : FnSt → FnSt) : (Chip.modFn ch f c).cores = c.cores := (rfl)
@[simp] theorem Chip.modFn_slots (ch : Nat) (f : FnSt → FnSt) : (Chip.modFn ch f c).slots = c.slots := (rfl)
@[simp] theorem Chip.modFn_bufs (ch : Nat) (f : FnSt → FnSt) : (Chip.modFn ch f c).bufs = c.bufs := (rfl)
@[simp] theorem Chip.modFn_sqs (ch : Nat) (f : FnSt → FnSt) : (Chip.modFn ch f c).sqs = c.sqs := (rfl)
@[simp] theorem Chip.modFn_sqTurn (ch : Nat) (f : FnSt → FnSt) : (Chip.modFn ch f c).sqTurn = c.sqTurn := (rfl)
@[simp] theorem Chip.modFn_chans (ch : Nat) (f : FnSt → FnSt) : (Chip.modFn ch f c).chans = c.chans := (rfl)
@[simp] theorem Chip.modFn_jbs (ch : Nat) (f : FnSt → FnSt) : (Chip.modFn ch f c).jbs = c.jbs := (rfl)
@[simp] theorem Chip.modFn_host (ch : Nat) (f : FnSt → FnSt) : (Chip.modFn ch f c).host = c.host := (rfl)
@[simp] theorem Chip.modFn_fault (ch : Nat) (f : FnSt → FnSt) : (Chip.modFn ch f c).fault = c.fault := (rfl)
@[simp] theorem Chip.modFn_ranger (ch : Nat) (f : FnSt → FnSt) : (Chip.modFn ch f c).ranger = c.ranger := (rfl)
@[simp] theorem Chip.modFn_dram (ch : Nat) (f : FnSt → FnSt) : (Chip.modFn ch f c).dram = c.dram := (rfl)
@[simp] theorem Chip.modFn_zeroed (ch : Nat) (f : FnSt → FnSt) : (Chip.modFn ch f c).zeroed = c.zeroed := (rfl)
@[simp] theorem Chip.modFn_buses (ch : Nat) (f : FnSt → FnSt) : (Chip.modFn ch f c).buses = c.buses := (rfl)
@[simp] theorem Chip.modFn_mix (ch : Nat) (f : FnSt → FnSt) : (Chip.modFn ch f c).mix = c.mix := (rfl)
@[simp] theorem Chip.modFn_kerf (ch : Nat) (f : FnSt → FnSt) : (Chip.modFn ch f c).kerf = c.kerf := (rfl)
@[simp] theorem Chip.modFn_upsets (ch : Nat) (f : FnSt → FnSt) : (Chip.modFn ch f c).upsets = c.upsets := (rfl)
@[simp] theorem Chip.modFn_balers (ch : Nat) (f : FnSt → FnSt) : (Chip.modFn ch f c).balers = c.balers := (rfl)
@[simp] theorem Chip.modFn_serial (ch : Nat) (f : FnSt → FnSt) : (Chip.modFn ch f c).serial = c.serial := (rfl)
@[simp] theorem Chip.modFn_fns (ch : Nat) (f : FnSt → FnSt) :
    (Chip.modFn ch f c).fns = Cells.modify {} ch f c.fns := (rfl)
@[simp] theorem Chip.modFn_tonesets (ch : Nat) (f : FnSt → FnSt) : (Chip.modFn ch f c).tonesets = c.tonesets := (rfl)
@[simp] theorem Chip.modFn_customs (ch : Nat) (f : FnSt → FnSt) : (Chip.modFn ch f c).customs = c.customs := (rfl)
@[simp] theorem Chip.modFn_heads (ch : Nat) (f : FnSt → FnSt) : (Chip.modFn ch f c).heads = c.heads := (rfl)
@[simp] theorem Chip.modFn_flume (ch : Nat) (f : FnSt → FnSt) : (Chip.modFn ch f c).flume = c.flume := (rfl)
@[simp] theorem Chip.modFn_audio (ch : Nat) (f : FnSt → FnSt) : (Chip.modFn ch f c).audio = c.audio := (rfl)
@[simp] theorem Chip.modFn_mc (ch : Nat) (f : FnSt → FnSt) : (Chip.modFn ch f c).mc = c.mc := (rfl)
@[simp] theorem Chip.modFn_boot (ch : Nat) (f : FnSt → FnSt) : (Chip.modFn ch f c).boot = c.boot := (rfl)
@[simp] theorem Chip.modFn_jtag (ch : Nat) (f : FnSt → FnSt) : (Chip.modFn ch f c).jtag = c.jtag := (rfl)

/-! ### Chip.modRing -/
@[simp] theorem Chip.modRing_count (r : Nat) (f : RingSt → RingSt) : (Chip.modRing r f c).count = c.count := (rfl)
@[simp] theorem Chip.modRing_draws (r : Nat) (f : RingSt → RingSt) : (Chip.modRing r f c).draws = c.draws := (rfl)
@[simp] theorem Chip.modRing_regs (r : Nat) (f : RingSt → RingSt) : (Chip.modRing r f c).regs = c.regs := (rfl)
@[simp] theorem Chip.modRing_preqs (r : Nat) (f : RingSt → RingSt) : (Chip.modRing r f c).preqs = c.preqs := (rfl)
@[simp] theorem Chip.modRing_out (r : Nat) (f : RingSt → RingSt) : (Chip.modRing r f c).out = c.out := (rfl)
@[simp] theorem Chip.modRing_dev (r : Nat) (f : RingSt → RingSt) : (Chip.modRing r f c).dev = c.dev := (rfl)
@[simp] theorem Chip.modRing_time (r : Nat) (f : RingSt → RingSt) : (Chip.modRing r f c).time = c.time := (rfl)
@[simp] theorem Chip.modRing_chutes (r : Nat) (f : RingSt → RingSt) : (Chip.modRing r f c).chutes = c.chutes := (rfl)
@[simp] theorem Chip.modRing_arriving (r : Nat) (f : RingSt → RingSt) : (Chip.modRing r f c).arriving = c.arriving := (rfl)
@[simp] theorem Chip.modRing_pool (r : Nat) (f : RingSt → RingSt) : (Chip.modRing r f c).pool = c.pool := (rfl)
@[simp] theorem Chip.modRing_cores (r : Nat) (f : RingSt → RingSt) : (Chip.modRing r f c).cores = c.cores := (rfl)
@[simp] theorem Chip.modRing_slots (r : Nat) (f : RingSt → RingSt) : (Chip.modRing r f c).slots = c.slots := (rfl)
@[simp] theorem Chip.modRing_bufs (r : Nat) (f : RingSt → RingSt) : (Chip.modRing r f c).bufs = c.bufs := (rfl)
@[simp] theorem Chip.modRing_sqs (r : Nat) (f : RingSt → RingSt) : (Chip.modRing r f c).sqs = c.sqs := (rfl)
@[simp] theorem Chip.modRing_sqTurn (r : Nat) (f : RingSt → RingSt) : (Chip.modRing r f c).sqTurn = c.sqTurn := (rfl)
@[simp] theorem Chip.modRing_chans (r : Nat) (f : RingSt → RingSt) : (Chip.modRing r f c).chans = c.chans := (rfl)
@[simp] theorem Chip.modRing_jbs (r : Nat) (f : RingSt → RingSt) : (Chip.modRing r f c).jbs = c.jbs := (rfl)
@[simp] theorem Chip.modRing_fault (r : Nat) (f : RingSt → RingSt) : (Chip.modRing r f c).fault = c.fault := (rfl)
@[simp] theorem Chip.modRing_ranger (r : Nat) (f : RingSt → RingSt) : (Chip.modRing r f c).ranger = c.ranger := (rfl)
@[simp] theorem Chip.modRing_dram (r : Nat) (f : RingSt → RingSt) : (Chip.modRing r f c).dram = c.dram := (rfl)
@[simp] theorem Chip.modRing_zeroed (r : Nat) (f : RingSt → RingSt) : (Chip.modRing r f c).zeroed = c.zeroed := (rfl)
@[simp] theorem Chip.modRing_buses (r : Nat) (f : RingSt → RingSt) : (Chip.modRing r f c).buses = c.buses := (rfl)
@[simp] theorem Chip.modRing_mix (r : Nat) (f : RingSt → RingSt) : (Chip.modRing r f c).mix = c.mix := (rfl)
@[simp] theorem Chip.modRing_kerf (r : Nat) (f : RingSt → RingSt) : (Chip.modRing r f c).kerf = c.kerf := (rfl)
@[simp] theorem Chip.modRing_upsets (r : Nat) (f : RingSt → RingSt) : (Chip.modRing r f c).upsets = c.upsets := (rfl)
@[simp] theorem Chip.modRing_balers (r : Nat) (f : RingSt → RingSt) : (Chip.modRing r f c).balers = c.balers := (rfl)
@[simp] theorem Chip.modRing_serial (r : Nat) (f : RingSt → RingSt) : (Chip.modRing r f c).serial = c.serial := (rfl)
@[simp] theorem Chip.modRing_fns (r : Nat) (f : RingSt → RingSt) : (Chip.modRing r f c).fns = c.fns := (rfl)
@[simp] theorem Chip.modRing_tonesets (r : Nat) (f : RingSt → RingSt) : (Chip.modRing r f c).tonesets = c.tonesets := (rfl)
@[simp] theorem Chip.modRing_customs (r : Nat) (f : RingSt → RingSt) : (Chip.modRing r f c).customs = c.customs := (rfl)
@[simp] theorem Chip.modRing_heads (r : Nat) (f : RingSt → RingSt) : (Chip.modRing r f c).heads = c.heads := (rfl)
@[simp] theorem Chip.modRing_flume (r : Nat) (f : RingSt → RingSt) : (Chip.modRing r f c).flume = c.flume := (rfl)
@[simp] theorem Chip.modRing_audio (r : Nat) (f : RingSt → RingSt) : (Chip.modRing r f c).audio = c.audio := (rfl)
@[simp] theorem Chip.modRing_mc (r : Nat) (f : RingSt → RingSt) : (Chip.modRing r f c).mc = c.mc := (rfl)
@[simp] theorem Chip.modRing_boot (r : Nat) (f : RingSt → RingSt) : (Chip.modRing r f c).boot = c.boot := (rfl)
@[simp] theorem Chip.modRing_jtag (r : Nat) (f : RingSt → RingSt) : (Chip.modRing r f c).jtag = c.jtag := (rfl)

/-! ### Chip.modBoot -/
@[simp] theorem Chip.modBoot_count (f : BootSt → BootSt) : (Chip.modBoot f c).count = c.count := (rfl)
@[simp] theorem Chip.modBoot_draws (f : BootSt → BootSt) : (Chip.modBoot f c).draws = c.draws := (rfl)
@[simp] theorem Chip.modBoot_regs (f : BootSt → BootSt) : (Chip.modBoot f c).regs = c.regs := (rfl)
@[simp] theorem Chip.modBoot_preqs (f : BootSt → BootSt) : (Chip.modBoot f c).preqs = c.preqs := (rfl)
@[simp] theorem Chip.modBoot_out (f : BootSt → BootSt) : (Chip.modBoot f c).out = c.out := (rfl)
@[simp] theorem Chip.modBoot_dev (f : BootSt → BootSt) : (Chip.modBoot f c).dev = c.dev := (rfl)
@[simp] theorem Chip.modBoot_time (f : BootSt → BootSt) : (Chip.modBoot f c).time = c.time := (rfl)
@[simp] theorem Chip.modBoot_chutes (f : BootSt → BootSt) : (Chip.modBoot f c).chutes = c.chutes := (rfl)
@[simp] theorem Chip.modBoot_arriving (f : BootSt → BootSt) : (Chip.modBoot f c).arriving = c.arriving := (rfl)
@[simp] theorem Chip.modBoot_pool (f : BootSt → BootSt) : (Chip.modBoot f c).pool = c.pool := (rfl)
@[simp] theorem Chip.modBoot_cores (f : BootSt → BootSt) : (Chip.modBoot f c).cores = c.cores := (rfl)
@[simp] theorem Chip.modBoot_slots (f : BootSt → BootSt) : (Chip.modBoot f c).slots = c.slots := (rfl)
@[simp] theorem Chip.modBoot_bufs (f : BootSt → BootSt) : (Chip.modBoot f c).bufs = c.bufs := (rfl)
@[simp] theorem Chip.modBoot_sqs (f : BootSt → BootSt) : (Chip.modBoot f c).sqs = c.sqs := (rfl)
@[simp] theorem Chip.modBoot_sqTurn (f : BootSt → BootSt) : (Chip.modBoot f c).sqTurn = c.sqTurn := (rfl)
@[simp] theorem Chip.modBoot_chans (f : BootSt → BootSt) : (Chip.modBoot f c).chans = c.chans := (rfl)
@[simp] theorem Chip.modBoot_jbs (f : BootSt → BootSt) : (Chip.modBoot f c).jbs = c.jbs := (rfl)
@[simp] theorem Chip.modBoot_host (f : BootSt → BootSt) : (Chip.modBoot f c).host = c.host := (rfl)
@[simp] theorem Chip.modBoot_fault (f : BootSt → BootSt) : (Chip.modBoot f c).fault = c.fault := (rfl)
@[simp] theorem Chip.modBoot_ranger (f : BootSt → BootSt) : (Chip.modBoot f c).ranger = c.ranger := (rfl)
@[simp] theorem Chip.modBoot_dram (f : BootSt → BootSt) : (Chip.modBoot f c).dram = c.dram := (rfl)
@[simp] theorem Chip.modBoot_zeroed (f : BootSt → BootSt) : (Chip.modBoot f c).zeroed = c.zeroed := (rfl)
@[simp] theorem Chip.modBoot_buses (f : BootSt → BootSt) : (Chip.modBoot f c).buses = c.buses := (rfl)
@[simp] theorem Chip.modBoot_mix (f : BootSt → BootSt) : (Chip.modBoot f c).mix = c.mix := (rfl)
@[simp] theorem Chip.modBoot_kerf (f : BootSt → BootSt) : (Chip.modBoot f c).kerf = c.kerf := (rfl)
@[simp] theorem Chip.modBoot_upsets (f : BootSt → BootSt) : (Chip.modBoot f c).upsets = c.upsets := (rfl)
@[simp] theorem Chip.modBoot_balers (f : BootSt → BootSt) : (Chip.modBoot f c).balers = c.balers := (rfl)
@[simp] theorem Chip.modBoot_serial (f : BootSt → BootSt) : (Chip.modBoot f c).serial = c.serial := (rfl)
@[simp] theorem Chip.modBoot_fns (f : BootSt → BootSt) : (Chip.modBoot f c).fns = c.fns := (rfl)
@[simp] theorem Chip.modBoot_tonesets (f : BootSt → BootSt) : (Chip.modBoot f c).tonesets = c.tonesets := (rfl)
@[simp] theorem Chip.modBoot_customs (f : BootSt → BootSt) : (Chip.modBoot f c).customs = c.customs := (rfl)
@[simp] theorem Chip.modBoot_heads (f : BootSt → BootSt) : (Chip.modBoot f c).heads = c.heads := (rfl)
@[simp] theorem Chip.modBoot_flume (f : BootSt → BootSt) : (Chip.modBoot f c).flume = c.flume := (rfl)
@[simp] theorem Chip.modBoot_audio (f : BootSt → BootSt) : (Chip.modBoot f c).audio = c.audio := (rfl)
@[simp] theorem Chip.modBoot_mc (f : BootSt → BootSt) : (Chip.modBoot f c).mc = c.mc := (rfl)
@[simp] theorem Chip.modBoot_boot (f : BootSt → BootSt) :
    (Chip.modBoot f c).boot = f c.boot := (rfl)
@[simp] theorem Chip.modBoot_jtag (f : BootSt → BootSt) : (Chip.modBoot f c).jtag = c.jtag := (rfl)

/-! ### Chip.modJtag -/
@[simp] theorem Chip.modJtag_count (f : JtagSt → JtagSt) : (Chip.modJtag f c).count = c.count := (rfl)
@[simp] theorem Chip.modJtag_draws (f : JtagSt → JtagSt) : (Chip.modJtag f c).draws = c.draws := (rfl)
@[simp] theorem Chip.modJtag_regs (f : JtagSt → JtagSt) : (Chip.modJtag f c).regs = c.regs := (rfl)
@[simp] theorem Chip.modJtag_preqs (f : JtagSt → JtagSt) : (Chip.modJtag f c).preqs = c.preqs := (rfl)
@[simp] theorem Chip.modJtag_out (f : JtagSt → JtagSt) : (Chip.modJtag f c).out = c.out := (rfl)
@[simp] theorem Chip.modJtag_dev (f : JtagSt → JtagSt) : (Chip.modJtag f c).dev = c.dev := (rfl)
@[simp] theorem Chip.modJtag_time (f : JtagSt → JtagSt) : (Chip.modJtag f c).time = c.time := (rfl)
@[simp] theorem Chip.modJtag_chutes (f : JtagSt → JtagSt) : (Chip.modJtag f c).chutes = c.chutes := (rfl)
@[simp] theorem Chip.modJtag_arriving (f : JtagSt → JtagSt) : (Chip.modJtag f c).arriving = c.arriving := (rfl)
@[simp] theorem Chip.modJtag_pool (f : JtagSt → JtagSt) : (Chip.modJtag f c).pool = c.pool := (rfl)
@[simp] theorem Chip.modJtag_cores (f : JtagSt → JtagSt) : (Chip.modJtag f c).cores = c.cores := (rfl)
@[simp] theorem Chip.modJtag_slots (f : JtagSt → JtagSt) : (Chip.modJtag f c).slots = c.slots := (rfl)
@[simp] theorem Chip.modJtag_bufs (f : JtagSt → JtagSt) : (Chip.modJtag f c).bufs = c.bufs := (rfl)
@[simp] theorem Chip.modJtag_sqs (f : JtagSt → JtagSt) : (Chip.modJtag f c).sqs = c.sqs := (rfl)
@[simp] theorem Chip.modJtag_sqTurn (f : JtagSt → JtagSt) : (Chip.modJtag f c).sqTurn = c.sqTurn := (rfl)
@[simp] theorem Chip.modJtag_chans (f : JtagSt → JtagSt) : (Chip.modJtag f c).chans = c.chans := (rfl)
@[simp] theorem Chip.modJtag_jbs (f : JtagSt → JtagSt) : (Chip.modJtag f c).jbs = c.jbs := (rfl)
@[simp] theorem Chip.modJtag_host (f : JtagSt → JtagSt) : (Chip.modJtag f c).host = c.host := (rfl)
@[simp] theorem Chip.modJtag_fault (f : JtagSt → JtagSt) : (Chip.modJtag f c).fault = c.fault := (rfl)
@[simp] theorem Chip.modJtag_ranger (f : JtagSt → JtagSt) : (Chip.modJtag f c).ranger = c.ranger := (rfl)
@[simp] theorem Chip.modJtag_dram (f : JtagSt → JtagSt) : (Chip.modJtag f c).dram = c.dram := (rfl)
@[simp] theorem Chip.modJtag_zeroed (f : JtagSt → JtagSt) : (Chip.modJtag f c).zeroed = c.zeroed := (rfl)
@[simp] theorem Chip.modJtag_buses (f : JtagSt → JtagSt) : (Chip.modJtag f c).buses = c.buses := (rfl)
@[simp] theorem Chip.modJtag_mix (f : JtagSt → JtagSt) : (Chip.modJtag f c).mix = c.mix := (rfl)
@[simp] theorem Chip.modJtag_kerf (f : JtagSt → JtagSt) : (Chip.modJtag f c).kerf = c.kerf := (rfl)
@[simp] theorem Chip.modJtag_upsets (f : JtagSt → JtagSt) : (Chip.modJtag f c).upsets = c.upsets := (rfl)
@[simp] theorem Chip.modJtag_balers (f : JtagSt → JtagSt) : (Chip.modJtag f c).balers = c.balers := (rfl)
@[simp] theorem Chip.modJtag_serial (f : JtagSt → JtagSt) : (Chip.modJtag f c).serial = c.serial := (rfl)
@[simp] theorem Chip.modJtag_fns (f : JtagSt → JtagSt) : (Chip.modJtag f c).fns = c.fns := (rfl)
@[simp] theorem Chip.modJtag_tonesets (f : JtagSt → JtagSt) : (Chip.modJtag f c).tonesets = c.tonesets := (rfl)
@[simp] theorem Chip.modJtag_customs (f : JtagSt → JtagSt) : (Chip.modJtag f c).customs = c.customs := (rfl)
@[simp] theorem Chip.modJtag_heads (f : JtagSt → JtagSt) : (Chip.modJtag f c).heads = c.heads := (rfl)
@[simp] theorem Chip.modJtag_flume (f : JtagSt → JtagSt) : (Chip.modJtag f c).flume = c.flume := (rfl)
@[simp] theorem Chip.modJtag_audio (f : JtagSt → JtagSt) : (Chip.modJtag f c).audio = c.audio := (rfl)
@[simp] theorem Chip.modJtag_mc (f : JtagSt → JtagSt) : (Chip.modJtag f c).mc = c.mc := (rfl)
@[simp] theorem Chip.modJtag_boot (f : JtagSt → JtagSt) : (Chip.modJtag f c).boot = c.boot := (rfl)
@[simp] theorem Chip.modJtag_jtag (f : JtagSt → JtagSt) :
    (Chip.modJtag f c).jtag = f c.jtag := (rfl)

/-! ### Chip.modFlume -/
@[simp] theorem Chip.modFlume_count (f : FlumeSt → FlumeSt) : (Chip.modFlume f c).count = c.count := (rfl)
@[simp] theorem Chip.modFlume_draws (f : FlumeSt → FlumeSt) : (Chip.modFlume f c).draws = c.draws := (rfl)
@[simp] theorem Chip.modFlume_regs (f : FlumeSt → FlumeSt) : (Chip.modFlume f c).regs = c.regs := (rfl)
@[simp] theorem Chip.modFlume_preqs (f : FlumeSt → FlumeSt) : (Chip.modFlume f c).preqs = c.preqs := (rfl)
@[simp] theorem Chip.modFlume_out (f : FlumeSt → FlumeSt) : (Chip.modFlume f c).out = c.out := (rfl)
@[simp] theorem Chip.modFlume_dev (f : FlumeSt → FlumeSt) : (Chip.modFlume f c).dev = c.dev := (rfl)
@[simp] theorem Chip.modFlume_time (f : FlumeSt → FlumeSt) : (Chip.modFlume f c).time = c.time := (rfl)
@[simp] theorem Chip.modFlume_chutes (f : FlumeSt → FlumeSt) : (Chip.modFlume f c).chutes = c.chutes := (rfl)
@[simp] theorem Chip.modFlume_arriving (f : FlumeSt → FlumeSt) : (Chip.modFlume f c).arriving = c.arriving := (rfl)
@[simp] theorem Chip.modFlume_pool (f : FlumeSt → FlumeSt) : (Chip.modFlume f c).pool = c.pool := (rfl)
@[simp] theorem Chip.modFlume_cores (f : FlumeSt → FlumeSt) : (Chip.modFlume f c).cores = c.cores := (rfl)
@[simp] theorem Chip.modFlume_slots (f : FlumeSt → FlumeSt) : (Chip.modFlume f c).slots = c.slots := (rfl)
@[simp] theorem Chip.modFlume_bufs (f : FlumeSt → FlumeSt) : (Chip.modFlume f c).bufs = c.bufs := (rfl)
@[simp] theorem Chip.modFlume_sqs (f : FlumeSt → FlumeSt) : (Chip.modFlume f c).sqs = c.sqs := (rfl)
@[simp] theorem Chip.modFlume_sqTurn (f : FlumeSt → FlumeSt) : (Chip.modFlume f c).sqTurn = c.sqTurn := (rfl)
@[simp] theorem Chip.modFlume_chans (f : FlumeSt → FlumeSt) : (Chip.modFlume f c).chans = c.chans := (rfl)
@[simp] theorem Chip.modFlume_jbs (f : FlumeSt → FlumeSt) : (Chip.modFlume f c).jbs = c.jbs := (rfl)
@[simp] theorem Chip.modFlume_host (f : FlumeSt → FlumeSt) : (Chip.modFlume f c).host = c.host := (rfl)
@[simp] theorem Chip.modFlume_fault (f : FlumeSt → FlumeSt) : (Chip.modFlume f c).fault = c.fault := (rfl)
@[simp] theorem Chip.modFlume_ranger (f : FlumeSt → FlumeSt) : (Chip.modFlume f c).ranger = c.ranger := (rfl)
@[simp] theorem Chip.modFlume_dram (f : FlumeSt → FlumeSt) : (Chip.modFlume f c).dram = c.dram := (rfl)
@[simp] theorem Chip.modFlume_zeroed (f : FlumeSt → FlumeSt) : (Chip.modFlume f c).zeroed = c.zeroed := (rfl)
@[simp] theorem Chip.modFlume_buses (f : FlumeSt → FlumeSt) : (Chip.modFlume f c).buses = c.buses := (rfl)
@[simp] theorem Chip.modFlume_mix (f : FlumeSt → FlumeSt) : (Chip.modFlume f c).mix = c.mix := (rfl)
@[simp] theorem Chip.modFlume_kerf (f : FlumeSt → FlumeSt) : (Chip.modFlume f c).kerf = c.kerf := (rfl)
@[simp] theorem Chip.modFlume_upsets (f : FlumeSt → FlumeSt) : (Chip.modFlume f c).upsets = c.upsets := (rfl)
@[simp] theorem Chip.modFlume_balers (f : FlumeSt → FlumeSt) : (Chip.modFlume f c).balers = c.balers := (rfl)
@[simp] theorem Chip.modFlume_serial (f : FlumeSt → FlumeSt) : (Chip.modFlume f c).serial = c.serial := (rfl)
@[simp] theorem Chip.modFlume_fns (f : FlumeSt → FlumeSt) : (Chip.modFlume f c).fns = c.fns := (rfl)
@[simp] theorem Chip.modFlume_tonesets (f : FlumeSt → FlumeSt) : (Chip.modFlume f c).tonesets = c.tonesets := (rfl)
@[simp] theorem Chip.modFlume_customs (f : FlumeSt → FlumeSt) : (Chip.modFlume f c).customs = c.customs := (rfl)
@[simp] theorem Chip.modFlume_heads (f : FlumeSt → FlumeSt) : (Chip.modFlume f c).heads = c.heads := (rfl)
@[simp] theorem Chip.modFlume_flume (f : FlumeSt → FlumeSt) :
    (Chip.modFlume f c).flume = f c.flume := (rfl)
@[simp] theorem Chip.modFlume_audio (f : FlumeSt → FlumeSt) : (Chip.modFlume f c).audio = c.audio := (rfl)
@[simp] theorem Chip.modFlume_mc (f : FlumeSt → FlumeSt) : (Chip.modFlume f c).mc = c.mc := (rfl)
@[simp] theorem Chip.modFlume_boot (f : FlumeSt → FlumeSt) : (Chip.modFlume f c).boot = c.boot := (rfl)
@[simp] theorem Chip.modFlume_jtag (f : FlumeSt → FlumeSt) : (Chip.modFlume f c).jtag = c.jtag := (rfl)

/-! ### Chip.modAudio -/
@[simp] theorem Chip.modAudio_count (f : AudioSt → AudioSt) : (Chip.modAudio f c).count = c.count := (rfl)
@[simp] theorem Chip.modAudio_draws (f : AudioSt → AudioSt) : (Chip.modAudio f c).draws = c.draws := (rfl)
@[simp] theorem Chip.modAudio_regs (f : AudioSt → AudioSt) : (Chip.modAudio f c).regs = c.regs := (rfl)
@[simp] theorem Chip.modAudio_preqs (f : AudioSt → AudioSt) : (Chip.modAudio f c).preqs = c.preqs := (rfl)
@[simp] theorem Chip.modAudio_out (f : AudioSt → AudioSt) : (Chip.modAudio f c).out = c.out := (rfl)
@[simp] theorem Chip.modAudio_dev (f : AudioSt → AudioSt) : (Chip.modAudio f c).dev = c.dev := (rfl)
@[simp] theorem Chip.modAudio_time (f : AudioSt → AudioSt) : (Chip.modAudio f c).time = c.time := (rfl)
@[simp] theorem Chip.modAudio_chutes (f : AudioSt → AudioSt) : (Chip.modAudio f c).chutes = c.chutes := (rfl)
@[simp] theorem Chip.modAudio_arriving (f : AudioSt → AudioSt) : (Chip.modAudio f c).arriving = c.arriving := (rfl)
@[simp] theorem Chip.modAudio_pool (f : AudioSt → AudioSt) : (Chip.modAudio f c).pool = c.pool := (rfl)
@[simp] theorem Chip.modAudio_cores (f : AudioSt → AudioSt) : (Chip.modAudio f c).cores = c.cores := (rfl)
@[simp] theorem Chip.modAudio_slots (f : AudioSt → AudioSt) : (Chip.modAudio f c).slots = c.slots := (rfl)
@[simp] theorem Chip.modAudio_bufs (f : AudioSt → AudioSt) : (Chip.modAudio f c).bufs = c.bufs := (rfl)
@[simp] theorem Chip.modAudio_sqs (f : AudioSt → AudioSt) : (Chip.modAudio f c).sqs = c.sqs := (rfl)
@[simp] theorem Chip.modAudio_sqTurn (f : AudioSt → AudioSt) : (Chip.modAudio f c).sqTurn = c.sqTurn := (rfl)
@[simp] theorem Chip.modAudio_chans (f : AudioSt → AudioSt) : (Chip.modAudio f c).chans = c.chans := (rfl)
@[simp] theorem Chip.modAudio_jbs (f : AudioSt → AudioSt) : (Chip.modAudio f c).jbs = c.jbs := (rfl)
@[simp] theorem Chip.modAudio_host (f : AudioSt → AudioSt) : (Chip.modAudio f c).host = c.host := (rfl)
@[simp] theorem Chip.modAudio_fault (f : AudioSt → AudioSt) : (Chip.modAudio f c).fault = c.fault := (rfl)
@[simp] theorem Chip.modAudio_ranger (f : AudioSt → AudioSt) : (Chip.modAudio f c).ranger = c.ranger := (rfl)
@[simp] theorem Chip.modAudio_dram (f : AudioSt → AudioSt) : (Chip.modAudio f c).dram = c.dram := (rfl)
@[simp] theorem Chip.modAudio_zeroed (f : AudioSt → AudioSt) : (Chip.modAudio f c).zeroed = c.zeroed := (rfl)
@[simp] theorem Chip.modAudio_buses (f : AudioSt → AudioSt) : (Chip.modAudio f c).buses = c.buses := (rfl)
@[simp] theorem Chip.modAudio_mix (f : AudioSt → AudioSt) : (Chip.modAudio f c).mix = c.mix := (rfl)
@[simp] theorem Chip.modAudio_kerf (f : AudioSt → AudioSt) : (Chip.modAudio f c).kerf = c.kerf := (rfl)
@[simp] theorem Chip.modAudio_upsets (f : AudioSt → AudioSt) : (Chip.modAudio f c).upsets = c.upsets := (rfl)
@[simp] theorem Chip.modAudio_balers (f : AudioSt → AudioSt) : (Chip.modAudio f c).balers = c.balers := (rfl)
@[simp] theorem Chip.modAudio_serial (f : AudioSt → AudioSt) : (Chip.modAudio f c).serial = c.serial := (rfl)
@[simp] theorem Chip.modAudio_fns (f : AudioSt → AudioSt) : (Chip.modAudio f c).fns = c.fns := (rfl)
@[simp] theorem Chip.modAudio_tonesets (f : AudioSt → AudioSt) : (Chip.modAudio f c).tonesets = c.tonesets := (rfl)
@[simp] theorem Chip.modAudio_customs (f : AudioSt → AudioSt) : (Chip.modAudio f c).customs = c.customs := (rfl)
@[simp] theorem Chip.modAudio_heads (f : AudioSt → AudioSt) : (Chip.modAudio f c).heads = c.heads := (rfl)
@[simp] theorem Chip.modAudio_flume (f : AudioSt → AudioSt) : (Chip.modAudio f c).flume = c.flume := (rfl)
@[simp] theorem Chip.modAudio_audio (f : AudioSt → AudioSt) :
    (Chip.modAudio f c).audio = f c.audio := (rfl)
@[simp] theorem Chip.modAudio_mc (f : AudioSt → AudioSt) : (Chip.modAudio f c).mc = c.mc := (rfl)
@[simp] theorem Chip.modAudio_boot (f : AudioSt → AudioSt) : (Chip.modAudio f c).boot = c.boot := (rfl)
@[simp] theorem Chip.modAudio_jtag (f : AudioSt → AudioSt) : (Chip.modAudio f c).jtag = c.jtag := (rfl)

/-! ### Chip.modMc -/
@[simp] theorem Chip.modMc_count (f : McSt → McSt) : (Chip.modMc f c).count = c.count := (rfl)
@[simp] theorem Chip.modMc_draws (f : McSt → McSt) : (Chip.modMc f c).draws = c.draws := (rfl)
@[simp] theorem Chip.modMc_regs (f : McSt → McSt) : (Chip.modMc f c).regs = c.regs := (rfl)
@[simp] theorem Chip.modMc_preqs (f : McSt → McSt) : (Chip.modMc f c).preqs = c.preqs := (rfl)
@[simp] theorem Chip.modMc_out (f : McSt → McSt) : (Chip.modMc f c).out = c.out := (rfl)
@[simp] theorem Chip.modMc_dev (f : McSt → McSt) : (Chip.modMc f c).dev = c.dev := (rfl)
@[simp] theorem Chip.modMc_time (f : McSt → McSt) : (Chip.modMc f c).time = c.time := (rfl)
@[simp] theorem Chip.modMc_chutes (f : McSt → McSt) : (Chip.modMc f c).chutes = c.chutes := (rfl)
@[simp] theorem Chip.modMc_arriving (f : McSt → McSt) : (Chip.modMc f c).arriving = c.arriving := (rfl)
@[simp] theorem Chip.modMc_pool (f : McSt → McSt) : (Chip.modMc f c).pool = c.pool := (rfl)
@[simp] theorem Chip.modMc_cores (f : McSt → McSt) : (Chip.modMc f c).cores = c.cores := (rfl)
@[simp] theorem Chip.modMc_slots (f : McSt → McSt) : (Chip.modMc f c).slots = c.slots := (rfl)
@[simp] theorem Chip.modMc_bufs (f : McSt → McSt) : (Chip.modMc f c).bufs = c.bufs := (rfl)
@[simp] theorem Chip.modMc_sqs (f : McSt → McSt) : (Chip.modMc f c).sqs = c.sqs := (rfl)
@[simp] theorem Chip.modMc_sqTurn (f : McSt → McSt) : (Chip.modMc f c).sqTurn = c.sqTurn := (rfl)
@[simp] theorem Chip.modMc_chans (f : McSt → McSt) : (Chip.modMc f c).chans = c.chans := (rfl)
@[simp] theorem Chip.modMc_jbs (f : McSt → McSt) : (Chip.modMc f c).jbs = c.jbs := (rfl)
@[simp] theorem Chip.modMc_host (f : McSt → McSt) : (Chip.modMc f c).host = c.host := (rfl)
@[simp] theorem Chip.modMc_fault (f : McSt → McSt) : (Chip.modMc f c).fault = c.fault := (rfl)
@[simp] theorem Chip.modMc_ranger (f : McSt → McSt) : (Chip.modMc f c).ranger = c.ranger := (rfl)
@[simp] theorem Chip.modMc_dram (f : McSt → McSt) : (Chip.modMc f c).dram = c.dram := (rfl)
@[simp] theorem Chip.modMc_zeroed (f : McSt → McSt) : (Chip.modMc f c).zeroed = c.zeroed := (rfl)
@[simp] theorem Chip.modMc_buses (f : McSt → McSt) : (Chip.modMc f c).buses = c.buses := (rfl)
@[simp] theorem Chip.modMc_mix (f : McSt → McSt) : (Chip.modMc f c).mix = c.mix := (rfl)
@[simp] theorem Chip.modMc_kerf (f : McSt → McSt) : (Chip.modMc f c).kerf = c.kerf := (rfl)
@[simp] theorem Chip.modMc_upsets (f : McSt → McSt) : (Chip.modMc f c).upsets = c.upsets := (rfl)
@[simp] theorem Chip.modMc_balers (f : McSt → McSt) : (Chip.modMc f c).balers = c.balers := (rfl)
@[simp] theorem Chip.modMc_serial (f : McSt → McSt) : (Chip.modMc f c).serial = c.serial := (rfl)
@[simp] theorem Chip.modMc_fns (f : McSt → McSt) : (Chip.modMc f c).fns = c.fns := (rfl)
@[simp] theorem Chip.modMc_tonesets (f : McSt → McSt) : (Chip.modMc f c).tonesets = c.tonesets := (rfl)
@[simp] theorem Chip.modMc_customs (f : McSt → McSt) : (Chip.modMc f c).customs = c.customs := (rfl)
@[simp] theorem Chip.modMc_heads (f : McSt → McSt) : (Chip.modMc f c).heads = c.heads := (rfl)
@[simp] theorem Chip.modMc_flume (f : McSt → McSt) : (Chip.modMc f c).flume = c.flume := (rfl)
@[simp] theorem Chip.modMc_audio (f : McSt → McSt) : (Chip.modMc f c).audio = c.audio := (rfl)
@[simp] theorem Chip.modMc_mc (f : McSt → McSt) :
    (Chip.modMc f c).mc = f c.mc := (rfl)
@[simp] theorem Chip.modMc_boot (f : McSt → McSt) : (Chip.modMc f c).boot = c.boot := (rfl)
@[simp] theorem Chip.modMc_jtag (f : McSt → McSt) : (Chip.modMc f c).jtag = c.jtag := (rfl)

/-! ### Chip.modSub -/
@[simp] theorem Chip.modSub_count (n : Nat) (f : SubSt → SubSt) : (Chip.modSub n f c).count = c.count := (rfl)
@[simp] theorem Chip.modSub_draws (n : Nat) (f : SubSt → SubSt) : (Chip.modSub n f c).draws = c.draws := (rfl)
@[simp] theorem Chip.modSub_regs (n : Nat) (f : SubSt → SubSt) : (Chip.modSub n f c).regs = c.regs := (rfl)
@[simp] theorem Chip.modSub_preqs (n : Nat) (f : SubSt → SubSt) : (Chip.modSub n f c).preqs = c.preqs := (rfl)
@[simp] theorem Chip.modSub_out (n : Nat) (f : SubSt → SubSt) : (Chip.modSub n f c).out = c.out := (rfl)
@[simp] theorem Chip.modSub_dev (n : Nat) (f : SubSt → SubSt) : (Chip.modSub n f c).dev = c.dev := (rfl)
@[simp] theorem Chip.modSub_time (n : Nat) (f : SubSt → SubSt) : (Chip.modSub n f c).time = c.time := (rfl)
@[simp] theorem Chip.modSub_chutes (n : Nat) (f : SubSt → SubSt) : (Chip.modSub n f c).chutes = c.chutes := (rfl)
@[simp] theorem Chip.modSub_arriving (n : Nat) (f : SubSt → SubSt) : (Chip.modSub n f c).arriving = c.arriving := (rfl)
@[simp] theorem Chip.modSub_pool (n : Nat) (f : SubSt → SubSt) : (Chip.modSub n f c).pool = c.pool := (rfl)
@[simp] theorem Chip.modSub_cores (n : Nat) (f : SubSt → SubSt) : (Chip.modSub n f c).cores = c.cores := (rfl)
@[simp] theorem Chip.modSub_slots (n : Nat) (f : SubSt → SubSt) : (Chip.modSub n f c).slots = c.slots := (rfl)
@[simp] theorem Chip.modSub_bufs (n : Nat) (f : SubSt → SubSt) : (Chip.modSub n f c).bufs = c.bufs := (rfl)
@[simp] theorem Chip.modSub_sqs (n : Nat) (f : SubSt → SubSt) : (Chip.modSub n f c).sqs = c.sqs := (rfl)
@[simp] theorem Chip.modSub_sqTurn (n : Nat) (f : SubSt → SubSt) : (Chip.modSub n f c).sqTurn = c.sqTurn := (rfl)
@[simp] theorem Chip.modSub_chans (n : Nat) (f : SubSt → SubSt) : (Chip.modSub n f c).chans = c.chans := (rfl)
@[simp] theorem Chip.modSub_jbs (n : Nat) (f : SubSt → SubSt) : (Chip.modSub n f c).jbs = c.jbs := (rfl)
@[simp] theorem Chip.modSub_host (n : Nat) (f : SubSt → SubSt) : (Chip.modSub n f c).host = c.host := (rfl)
@[simp] theorem Chip.modSub_fault (n : Nat) (f : SubSt → SubSt) : (Chip.modSub n f c).fault = c.fault := (rfl)
@[simp] theorem Chip.modSub_ranger (n : Nat) (f : SubSt → SubSt) : (Chip.modSub n f c).ranger = c.ranger := (rfl)
@[simp] theorem Chip.modSub_dram (n : Nat) (f : SubSt → SubSt) : (Chip.modSub n f c).dram = c.dram := (rfl)
@[simp] theorem Chip.modSub_zeroed (n : Nat) (f : SubSt → SubSt) : (Chip.modSub n f c).zeroed = c.zeroed := (rfl)
@[simp] theorem Chip.modSub_buses (n : Nat) (f : SubSt → SubSt) : (Chip.modSub n f c).buses = c.buses := (rfl)
@[simp] theorem Chip.modSub_mix (n : Nat) (f : SubSt → SubSt) : (Chip.modSub n f c).mix = c.mix := (rfl)
@[simp] theorem Chip.modSub_kerf (n : Nat) (f : SubSt → SubSt) : (Chip.modSub n f c).kerf = c.kerf := (rfl)
@[simp] theorem Chip.modSub_upsets (n : Nat) (f : SubSt → SubSt) : (Chip.modSub n f c).upsets = c.upsets := (rfl)
@[simp] theorem Chip.modSub_balers (n : Nat) (f : SubSt → SubSt) : (Chip.modSub n f c).balers = c.balers := (rfl)
@[simp] theorem Chip.modSub_serial (n : Nat) (f : SubSt → SubSt) : (Chip.modSub n f c).serial = c.serial := (rfl)
@[simp] theorem Chip.modSub_fns (n : Nat) (f : SubSt → SubSt) : (Chip.modSub n f c).fns = c.fns := (rfl)
@[simp] theorem Chip.modSub_tonesets (n : Nat) (f : SubSt → SubSt) : (Chip.modSub n f c).tonesets = c.tonesets := (rfl)
@[simp] theorem Chip.modSub_customs (n : Nat) (f : SubSt → SubSt) : (Chip.modSub n f c).customs = c.customs := (rfl)
@[simp] theorem Chip.modSub_heads (n : Nat) (f : SubSt → SubSt) : (Chip.modSub n f c).heads = c.heads := (rfl)
@[simp] theorem Chip.modSub_flume (n : Nat) (f : SubSt → SubSt) : (Chip.modSub n f c).flume = c.flume := (rfl)
@[simp] theorem Chip.modSub_audio (n : Nat) (f : SubSt → SubSt) : (Chip.modSub n f c).audio = c.audio := (rfl)
@[simp] theorem Chip.modSub_boot (n : Nat) (f : SubSt → SubSt) : (Chip.modSub n f c).boot = c.boot := (rfl)
@[simp] theorem Chip.modSub_jtag (n : Nat) (f : SubSt → SubSt) : (Chip.modSub n f c).jtag = c.jtag := (rfl)

/-! ### Chip.modBank -/
@[simp] theorem Chip.modBank_count (n : Nat) (f : BankSt → BankSt) : (Chip.modBank n f c).count = c.count := (rfl)
@[simp] theorem Chip.modBank_draws (n : Nat) (f : BankSt → BankSt) : (Chip.modBank n f c).draws = c.draws := (rfl)
@[simp] theorem Chip.modBank_regs (n : Nat) (f : BankSt → BankSt) : (Chip.modBank n f c).regs = c.regs := (rfl)
@[simp] theorem Chip.modBank_preqs (n : Nat) (f : BankSt → BankSt) : (Chip.modBank n f c).preqs = c.preqs := (rfl)
@[simp] theorem Chip.modBank_out (n : Nat) (f : BankSt → BankSt) : (Chip.modBank n f c).out = c.out := (rfl)
@[simp] theorem Chip.modBank_dev (n : Nat) (f : BankSt → BankSt) : (Chip.modBank n f c).dev = c.dev := (rfl)
@[simp] theorem Chip.modBank_time (n : Nat) (f : BankSt → BankSt) : (Chip.modBank n f c).time = c.time := (rfl)
@[simp] theorem Chip.modBank_chutes (n : Nat) (f : BankSt → BankSt) : (Chip.modBank n f c).chutes = c.chutes := (rfl)
@[simp] theorem Chip.modBank_arriving (n : Nat) (f : BankSt → BankSt) : (Chip.modBank n f c).arriving = c.arriving := (rfl)
@[simp] theorem Chip.modBank_pool (n : Nat) (f : BankSt → BankSt) : (Chip.modBank n f c).pool = c.pool := (rfl)
@[simp] theorem Chip.modBank_cores (n : Nat) (f : BankSt → BankSt) : (Chip.modBank n f c).cores = c.cores := (rfl)
@[simp] theorem Chip.modBank_slots (n : Nat) (f : BankSt → BankSt) : (Chip.modBank n f c).slots = c.slots := (rfl)
@[simp] theorem Chip.modBank_bufs (n : Nat) (f : BankSt → BankSt) : (Chip.modBank n f c).bufs = c.bufs := (rfl)
@[simp] theorem Chip.modBank_sqs (n : Nat) (f : BankSt → BankSt) : (Chip.modBank n f c).sqs = c.sqs := (rfl)
@[simp] theorem Chip.modBank_sqTurn (n : Nat) (f : BankSt → BankSt) : (Chip.modBank n f c).sqTurn = c.sqTurn := (rfl)
@[simp] theorem Chip.modBank_chans (n : Nat) (f : BankSt → BankSt) : (Chip.modBank n f c).chans = c.chans := (rfl)
@[simp] theorem Chip.modBank_jbs (n : Nat) (f : BankSt → BankSt) : (Chip.modBank n f c).jbs = c.jbs := (rfl)
@[simp] theorem Chip.modBank_host (n : Nat) (f : BankSt → BankSt) : (Chip.modBank n f c).host = c.host := (rfl)
@[simp] theorem Chip.modBank_fault (n : Nat) (f : BankSt → BankSt) : (Chip.modBank n f c).fault = c.fault := (rfl)
@[simp] theorem Chip.modBank_ranger (n : Nat) (f : BankSt → BankSt) : (Chip.modBank n f c).ranger = c.ranger := (rfl)
@[simp] theorem Chip.modBank_dram (n : Nat) (f : BankSt → BankSt) : (Chip.modBank n f c).dram = c.dram := (rfl)
@[simp] theorem Chip.modBank_zeroed (n : Nat) (f : BankSt → BankSt) : (Chip.modBank n f c).zeroed = c.zeroed := (rfl)
@[simp] theorem Chip.modBank_buses (n : Nat) (f : BankSt → BankSt) : (Chip.modBank n f c).buses = c.buses := (rfl)
@[simp] theorem Chip.modBank_mix (n : Nat) (f : BankSt → BankSt) : (Chip.modBank n f c).mix = c.mix := (rfl)
@[simp] theorem Chip.modBank_kerf (n : Nat) (f : BankSt → BankSt) : (Chip.modBank n f c).kerf = c.kerf := (rfl)
@[simp] theorem Chip.modBank_upsets (n : Nat) (f : BankSt → BankSt) : (Chip.modBank n f c).upsets = c.upsets := (rfl)
@[simp] theorem Chip.modBank_balers (n : Nat) (f : BankSt → BankSt) : (Chip.modBank n f c).balers = c.balers := (rfl)
@[simp] theorem Chip.modBank_serial (n : Nat) (f : BankSt → BankSt) : (Chip.modBank n f c).serial = c.serial := (rfl)
@[simp] theorem Chip.modBank_fns (n : Nat) (f : BankSt → BankSt) : (Chip.modBank n f c).fns = c.fns := (rfl)
@[simp] theorem Chip.modBank_tonesets (n : Nat) (f : BankSt → BankSt) : (Chip.modBank n f c).tonesets = c.tonesets := (rfl)
@[simp] theorem Chip.modBank_customs (n : Nat) (f : BankSt → BankSt) : (Chip.modBank n f c).customs = c.customs := (rfl)
@[simp] theorem Chip.modBank_heads (n : Nat) (f : BankSt → BankSt) : (Chip.modBank n f c).heads = c.heads := (rfl)
@[simp] theorem Chip.modBank_flume (n : Nat) (f : BankSt → BankSt) : (Chip.modBank n f c).flume = c.flume := (rfl)
@[simp] theorem Chip.modBank_audio (n : Nat) (f : BankSt → BankSt) : (Chip.modBank n f c).audio = c.audio := (rfl)
@[simp] theorem Chip.modBank_boot (n : Nat) (f : BankSt → BankSt) : (Chip.modBank n f c).boot = c.boot := (rfl)
@[simp] theorem Chip.modBank_jtag (n : Nat) (f : BankSt → BankSt) : (Chip.modBank n f c).jtag = c.jtag := (rfl)

/-! ### Chip.modHedge -/
@[simp] theorem Chip.modHedge_count (n : Nat) (f : HedgeSt → HedgeSt) : (Chip.modHedge n f c).count = c.count := (rfl)
@[simp] theorem Chip.modHedge_draws (n : Nat) (f : HedgeSt → HedgeSt) : (Chip.modHedge n f c).draws = c.draws := (rfl)
@[simp] theorem Chip.modHedge_regs (n : Nat) (f : HedgeSt → HedgeSt) : (Chip.modHedge n f c).regs = c.regs := (rfl)
@[simp] theorem Chip.modHedge_preqs (n : Nat) (f : HedgeSt → HedgeSt) : (Chip.modHedge n f c).preqs = c.preqs := (rfl)
@[simp] theorem Chip.modHedge_out (n : Nat) (f : HedgeSt → HedgeSt) : (Chip.modHedge n f c).out = c.out := (rfl)
@[simp] theorem Chip.modHedge_dev (n : Nat) (f : HedgeSt → HedgeSt) : (Chip.modHedge n f c).dev = c.dev := (rfl)
@[simp] theorem Chip.modHedge_time (n : Nat) (f : HedgeSt → HedgeSt) : (Chip.modHedge n f c).time = c.time := (rfl)
@[simp] theorem Chip.modHedge_chutes (n : Nat) (f : HedgeSt → HedgeSt) : (Chip.modHedge n f c).chutes = c.chutes := (rfl)
@[simp] theorem Chip.modHedge_arriving (n : Nat) (f : HedgeSt → HedgeSt) : (Chip.modHedge n f c).arriving = c.arriving := (rfl)
@[simp] theorem Chip.modHedge_pool (n : Nat) (f : HedgeSt → HedgeSt) : (Chip.modHedge n f c).pool = c.pool := (rfl)
@[simp] theorem Chip.modHedge_cores (n : Nat) (f : HedgeSt → HedgeSt) : (Chip.modHedge n f c).cores = c.cores := (rfl)
@[simp] theorem Chip.modHedge_slots (n : Nat) (f : HedgeSt → HedgeSt) : (Chip.modHedge n f c).slots = c.slots := (rfl)
@[simp] theorem Chip.modHedge_bufs (n : Nat) (f : HedgeSt → HedgeSt) : (Chip.modHedge n f c).bufs = c.bufs := (rfl)
@[simp] theorem Chip.modHedge_sqs (n : Nat) (f : HedgeSt → HedgeSt) : (Chip.modHedge n f c).sqs = c.sqs := (rfl)
@[simp] theorem Chip.modHedge_sqTurn (n : Nat) (f : HedgeSt → HedgeSt) : (Chip.modHedge n f c).sqTurn = c.sqTurn := (rfl)
@[simp] theorem Chip.modHedge_chans (n : Nat) (f : HedgeSt → HedgeSt) : (Chip.modHedge n f c).chans = c.chans := (rfl)
@[simp] theorem Chip.modHedge_jbs (n : Nat) (f : HedgeSt → HedgeSt) : (Chip.modHedge n f c).jbs = c.jbs := (rfl)
@[simp] theorem Chip.modHedge_host (n : Nat) (f : HedgeSt → HedgeSt) : (Chip.modHedge n f c).host = c.host := (rfl)
@[simp] theorem Chip.modHedge_fault (n : Nat) (f : HedgeSt → HedgeSt) : (Chip.modHedge n f c).fault = c.fault := (rfl)
@[simp] theorem Chip.modHedge_ranger (n : Nat) (f : HedgeSt → HedgeSt) : (Chip.modHedge n f c).ranger = c.ranger := (rfl)
@[simp] theorem Chip.modHedge_dram (n : Nat) (f : HedgeSt → HedgeSt) : (Chip.modHedge n f c).dram = c.dram := (rfl)
@[simp] theorem Chip.modHedge_zeroed (n : Nat) (f : HedgeSt → HedgeSt) : (Chip.modHedge n f c).zeroed = c.zeroed := (rfl)
@[simp] theorem Chip.modHedge_buses (n : Nat) (f : HedgeSt → HedgeSt) : (Chip.modHedge n f c).buses = c.buses := (rfl)
@[simp] theorem Chip.modHedge_mix (n : Nat) (f : HedgeSt → HedgeSt) : (Chip.modHedge n f c).mix = c.mix := (rfl)
@[simp] theorem Chip.modHedge_kerf (n : Nat) (f : HedgeSt → HedgeSt) : (Chip.modHedge n f c).kerf = c.kerf := (rfl)
@[simp] theorem Chip.modHedge_upsets (n : Nat) (f : HedgeSt → HedgeSt) : (Chip.modHedge n f c).upsets = c.upsets := (rfl)
@[simp] theorem Chip.modHedge_balers (n : Nat) (f : HedgeSt → HedgeSt) : (Chip.modHedge n f c).balers = c.balers := (rfl)
@[simp] theorem Chip.modHedge_serial (n : Nat) (f : HedgeSt → HedgeSt) : (Chip.modHedge n f c).serial = c.serial := (rfl)
@[simp] theorem Chip.modHedge_fns (n : Nat) (f : HedgeSt → HedgeSt) : (Chip.modHedge n f c).fns = c.fns := (rfl)
@[simp] theorem Chip.modHedge_tonesets (n : Nat) (f : HedgeSt → HedgeSt) : (Chip.modHedge n f c).tonesets = c.tonesets := (rfl)
@[simp] theorem Chip.modHedge_customs (n : Nat) (f : HedgeSt → HedgeSt) : (Chip.modHedge n f c).customs = c.customs := (rfl)
@[simp] theorem Chip.modHedge_heads (n : Nat) (f : HedgeSt → HedgeSt) : (Chip.modHedge n f c).heads = c.heads := (rfl)
@[simp] theorem Chip.modHedge_flume (n : Nat) (f : HedgeSt → HedgeSt) : (Chip.modHedge n f c).flume = c.flume := (rfl)
@[simp] theorem Chip.modHedge_mc (n : Nat) (f : HedgeSt → HedgeSt) : (Chip.modHedge n f c).mc = c.mc := (rfl)
@[simp] theorem Chip.modHedge_boot (n : Nat) (f : HedgeSt → HedgeSt) : (Chip.modHedge n f c).boot = c.boot := (rfl)
@[simp] theorem Chip.modHedge_jtag (n : Nat) (f : HedgeSt → HedgeSt) : (Chip.modHedge n f c).jtag = c.jtag := (rfl)

/-! ### Chip.modGpio -/
@[simp] theorem Chip.modGpio_count (f : GpioSt → GpioSt) : (Chip.modGpio f c).count = c.count := (rfl)
@[simp] theorem Chip.modGpio_draws (f : GpioSt → GpioSt) : (Chip.modGpio f c).draws = c.draws := (rfl)
@[simp] theorem Chip.modGpio_regs (f : GpioSt → GpioSt) : (Chip.modGpio f c).regs = c.regs := (rfl)
@[simp] theorem Chip.modGpio_preqs (f : GpioSt → GpioSt) : (Chip.modGpio f c).preqs = c.preqs := (rfl)
@[simp] theorem Chip.modGpio_out (f : GpioSt → GpioSt) : (Chip.modGpio f c).out = c.out := (rfl)
@[simp] theorem Chip.modGpio_dev (f : GpioSt → GpioSt) : (Chip.modGpio f c).dev = c.dev := (rfl)
@[simp] theorem Chip.modGpio_time (f : GpioSt → GpioSt) : (Chip.modGpio f c).time = c.time := (rfl)
@[simp] theorem Chip.modGpio_chutes (f : GpioSt → GpioSt) : (Chip.modGpio f c).chutes = c.chutes := (rfl)
@[simp] theorem Chip.modGpio_arriving (f : GpioSt → GpioSt) : (Chip.modGpio f c).arriving = c.arriving := (rfl)
@[simp] theorem Chip.modGpio_pool (f : GpioSt → GpioSt) : (Chip.modGpio f c).pool = c.pool := (rfl)
@[simp] theorem Chip.modGpio_cores (f : GpioSt → GpioSt) : (Chip.modGpio f c).cores = c.cores := (rfl)
@[simp] theorem Chip.modGpio_slots (f : GpioSt → GpioSt) : (Chip.modGpio f c).slots = c.slots := (rfl)
@[simp] theorem Chip.modGpio_bufs (f : GpioSt → GpioSt) : (Chip.modGpio f c).bufs = c.bufs := (rfl)
@[simp] theorem Chip.modGpio_sqs (f : GpioSt → GpioSt) : (Chip.modGpio f c).sqs = c.sqs := (rfl)
@[simp] theorem Chip.modGpio_sqTurn (f : GpioSt → GpioSt) : (Chip.modGpio f c).sqTurn = c.sqTurn := (rfl)
@[simp] theorem Chip.modGpio_chans (f : GpioSt → GpioSt) : (Chip.modGpio f c).chans = c.chans := (rfl)
@[simp] theorem Chip.modGpio_jbs (f : GpioSt → GpioSt) : (Chip.modGpio f c).jbs = c.jbs := (rfl)
@[simp] theorem Chip.modGpio_host (f : GpioSt → GpioSt) : (Chip.modGpio f c).host = c.host := (rfl)
@[simp] theorem Chip.modGpio_fault (f : GpioSt → GpioSt) : (Chip.modGpio f c).fault = c.fault := (rfl)
@[simp] theorem Chip.modGpio_ranger (f : GpioSt → GpioSt) : (Chip.modGpio f c).ranger = c.ranger := (rfl)
@[simp] theorem Chip.modGpio_dram (f : GpioSt → GpioSt) : (Chip.modGpio f c).dram = c.dram := (rfl)
@[simp] theorem Chip.modGpio_zeroed (f : GpioSt → GpioSt) : (Chip.modGpio f c).zeroed = c.zeroed := (rfl)
@[simp] theorem Chip.modGpio_buses (f : GpioSt → GpioSt) : (Chip.modGpio f c).buses = c.buses := (rfl)
@[simp] theorem Chip.modGpio_mix (f : GpioSt → GpioSt) : (Chip.modGpio f c).mix = c.mix := (rfl)
@[simp] theorem Chip.modGpio_kerf (f : GpioSt → GpioSt) : (Chip.modGpio f c).kerf = c.kerf := (rfl)
@[simp] theorem Chip.modGpio_upsets (f : GpioSt → GpioSt) : (Chip.modGpio f c).upsets = c.upsets := (rfl)
@[simp] theorem Chip.modGpio_balers (f : GpioSt → GpioSt) : (Chip.modGpio f c).balers = c.balers := (rfl)
@[simp] theorem Chip.modGpio_serial (f : GpioSt → GpioSt) : (Chip.modGpio f c).serial = c.serial := (rfl)
@[simp] theorem Chip.modGpio_fns (f : GpioSt → GpioSt) : (Chip.modGpio f c).fns = c.fns := (rfl)
@[simp] theorem Chip.modGpio_tonesets (f : GpioSt → GpioSt) : (Chip.modGpio f c).tonesets = c.tonesets := (rfl)
@[simp] theorem Chip.modGpio_customs (f : GpioSt → GpioSt) : (Chip.modGpio f c).customs = c.customs := (rfl)
@[simp] theorem Chip.modGpio_heads (f : GpioSt → GpioSt) : (Chip.modGpio f c).heads = c.heads := (rfl)
@[simp] theorem Chip.modGpio_flume (f : GpioSt → GpioSt) : (Chip.modGpio f c).flume = c.flume := (rfl)
@[simp] theorem Chip.modGpio_mc (f : GpioSt → GpioSt) : (Chip.modGpio f c).mc = c.mc := (rfl)
@[simp] theorem Chip.modGpio_boot (f : GpioSt → GpioSt) : (Chip.modGpio f c).boot = c.boot := (rfl)
@[simp] theorem Chip.modGpio_jtag (f : GpioSt → GpioSt) : (Chip.modGpio f c).jtag = c.jtag := (rfl)

/-! ### Chip.modTx -/
@[simp] theorem Chip.modTx_count (p : Nat) (f : PortTx → PortTx) : (Chip.modTx p f c).count = c.count := (rfl)
@[simp] theorem Chip.modTx_draws (p : Nat) (f : PortTx → PortTx) : (Chip.modTx p f c).draws = c.draws := (rfl)
@[simp] theorem Chip.modTx_regs (p : Nat) (f : PortTx → PortTx) : (Chip.modTx p f c).regs = c.regs := (rfl)
@[simp] theorem Chip.modTx_preqs (p : Nat) (f : PortTx → PortTx) : (Chip.modTx p f c).preqs = c.preqs := (rfl)
@[simp] theorem Chip.modTx_out (p : Nat) (f : PortTx → PortTx) : (Chip.modTx p f c).out = c.out := (rfl)
@[simp] theorem Chip.modTx_dev (p : Nat) (f : PortTx → PortTx) : (Chip.modTx p f c).dev = c.dev := (rfl)
@[simp] theorem Chip.modTx_time (p : Nat) (f : PortTx → PortTx) : (Chip.modTx p f c).time = c.time := (rfl)
@[simp] theorem Chip.modTx_chutes (p : Nat) (f : PortTx → PortTx) : (Chip.modTx p f c).chutes = c.chutes := (rfl)
@[simp] theorem Chip.modTx_arriving (p : Nat) (f : PortTx → PortTx) : (Chip.modTx p f c).arriving = c.arriving := (rfl)
@[simp] theorem Chip.modTx_pool (p : Nat) (f : PortTx → PortTx) : (Chip.modTx p f c).pool = c.pool := (rfl)
@[simp] theorem Chip.modTx_cores (p : Nat) (f : PortTx → PortTx) : (Chip.modTx p f c).cores = c.cores := (rfl)
@[simp] theorem Chip.modTx_slots (p : Nat) (f : PortTx → PortTx) : (Chip.modTx p f c).slots = c.slots := (rfl)
@[simp] theorem Chip.modTx_bufs (p : Nat) (f : PortTx → PortTx) : (Chip.modTx p f c).bufs = c.bufs := (rfl)
@[simp] theorem Chip.modTx_sqs (p : Nat) (f : PortTx → PortTx) : (Chip.modTx p f c).sqs = c.sqs := (rfl)
@[simp] theorem Chip.modTx_sqTurn (p : Nat) (f : PortTx → PortTx) : (Chip.modTx p f c).sqTurn = c.sqTurn := (rfl)
@[simp] theorem Chip.modTx_chans (p : Nat) (f : PortTx → PortTx) : (Chip.modTx p f c).chans = c.chans := (rfl)
@[simp] theorem Chip.modTx_jbs (p : Nat) (f : PortTx → PortTx) : (Chip.modTx p f c).jbs = c.jbs := (rfl)
@[simp] theorem Chip.modTx_host (p : Nat) (f : PortTx → PortTx) : (Chip.modTx p f c).host = c.host := (rfl)
@[simp] theorem Chip.modTx_fault (p : Nat) (f : PortTx → PortTx) : (Chip.modTx p f c).fault = c.fault := (rfl)
@[simp] theorem Chip.modTx_ranger (p : Nat) (f : PortTx → PortTx) : (Chip.modTx p f c).ranger = c.ranger := (rfl)
@[simp] theorem Chip.modTx_dram (p : Nat) (f : PortTx → PortTx) : (Chip.modTx p f c).dram = c.dram := (rfl)
@[simp] theorem Chip.modTx_zeroed (p : Nat) (f : PortTx → PortTx) : (Chip.modTx p f c).zeroed = c.zeroed := (rfl)
@[simp] theorem Chip.modTx_buses (p : Nat) (f : PortTx → PortTx) : (Chip.modTx p f c).buses = c.buses := (rfl)
@[simp] theorem Chip.modTx_mix (p : Nat) (f : PortTx → PortTx) : (Chip.modTx p f c).mix = c.mix := (rfl)
@[simp] theorem Chip.modTx_kerf (p : Nat) (f : PortTx → PortTx) : (Chip.modTx p f c).kerf = c.kerf := (rfl)
@[simp] theorem Chip.modTx_upsets (p : Nat) (f : PortTx → PortTx) : (Chip.modTx p f c).upsets = c.upsets := (rfl)
@[simp] theorem Chip.modTx_balers (p : Nat) (f : PortTx → PortTx) : (Chip.modTx p f c).balers = c.balers := (rfl)
@[simp] theorem Chip.modTx_serial (p : Nat) (f : PortTx → PortTx) : (Chip.modTx p f c).serial = c.serial := (rfl)
@[simp] theorem Chip.modTx_fns (p : Nat) (f : PortTx → PortTx) : (Chip.modTx p f c).fns = c.fns := (rfl)
@[simp] theorem Chip.modTx_tonesets (p : Nat) (f : PortTx → PortTx) : (Chip.modTx p f c).tonesets = c.tonesets := (rfl)
@[simp] theorem Chip.modTx_customs (p : Nat) (f : PortTx → PortTx) : (Chip.modTx p f c).customs = c.customs := (rfl)
@[simp] theorem Chip.modTx_heads (p : Nat) (f : PortTx → PortTx) : (Chip.modTx p f c).heads = c.heads := (rfl)
@[simp] theorem Chip.modTx_audio (p : Nat) (f : PortTx → PortTx) : (Chip.modTx p f c).audio = c.audio := (rfl)
@[simp] theorem Chip.modTx_mc (p : Nat) (f : PortTx → PortTx) : (Chip.modTx p f c).mc = c.mc := (rfl)
@[simp] theorem Chip.modTx_boot (p : Nat) (f : PortTx → PortTx) : (Chip.modTx p f c).boot = c.boot := (rfl)
@[simp] theorem Chip.modTx_jtag (p : Nat) (f : PortTx → PortTx) : (Chip.modTx p f c).jtag = c.jtag := (rfl)

/-! ### Chip.modGate -/
@[simp] theorem Chip.modGate_count (p : Nat) (f : GateSt → GateSt) : (Chip.modGate p f c).count = c.count := (rfl)
@[simp] theorem Chip.modGate_draws (p : Nat) (f : GateSt → GateSt) : (Chip.modGate p f c).draws = c.draws := (rfl)
@[simp] theorem Chip.modGate_regs (p : Nat) (f : GateSt → GateSt) : (Chip.modGate p f c).regs = c.regs := (rfl)
@[simp] theorem Chip.modGate_preqs (p : Nat) (f : GateSt → GateSt) : (Chip.modGate p f c).preqs = c.preqs := (rfl)
@[simp] theorem Chip.modGate_out (p : Nat) (f : GateSt → GateSt) : (Chip.modGate p f c).out = c.out := (rfl)
@[simp] theorem Chip.modGate_dev (p : Nat) (f : GateSt → GateSt) : (Chip.modGate p f c).dev = c.dev := (rfl)
@[simp] theorem Chip.modGate_time (p : Nat) (f : GateSt → GateSt) : (Chip.modGate p f c).time = c.time := (rfl)
@[simp] theorem Chip.modGate_chutes (p : Nat) (f : GateSt → GateSt) : (Chip.modGate p f c).chutes = c.chutes := (rfl)
@[simp] theorem Chip.modGate_arriving (p : Nat) (f : GateSt → GateSt) : (Chip.modGate p f c).arriving = c.arriving := (rfl)
@[simp] theorem Chip.modGate_pool (p : Nat) (f : GateSt → GateSt) : (Chip.modGate p f c).pool = c.pool := (rfl)
@[simp] theorem Chip.modGate_cores (p : Nat) (f : GateSt → GateSt) : (Chip.modGate p f c).cores = c.cores := (rfl)
@[simp] theorem Chip.modGate_slots (p : Nat) (f : GateSt → GateSt) : (Chip.modGate p f c).slots = c.slots := (rfl)
@[simp] theorem Chip.modGate_bufs (p : Nat) (f : GateSt → GateSt) : (Chip.modGate p f c).bufs = c.bufs := (rfl)
@[simp] theorem Chip.modGate_sqs (p : Nat) (f : GateSt → GateSt) : (Chip.modGate p f c).sqs = c.sqs := (rfl)
@[simp] theorem Chip.modGate_sqTurn (p : Nat) (f : GateSt → GateSt) : (Chip.modGate p f c).sqTurn = c.sqTurn := (rfl)
@[simp] theorem Chip.modGate_chans (p : Nat) (f : GateSt → GateSt) : (Chip.modGate p f c).chans = c.chans := (rfl)
@[simp] theorem Chip.modGate_jbs (p : Nat) (f : GateSt → GateSt) : (Chip.modGate p f c).jbs = c.jbs := (rfl)
@[simp] theorem Chip.modGate_host (p : Nat) (f : GateSt → GateSt) : (Chip.modGate p f c).host = c.host := (rfl)
@[simp] theorem Chip.modGate_fault (p : Nat) (f : GateSt → GateSt) : (Chip.modGate p f c).fault = c.fault := (rfl)
@[simp] theorem Chip.modGate_ranger (p : Nat) (f : GateSt → GateSt) : (Chip.modGate p f c).ranger = c.ranger := (rfl)
@[simp] theorem Chip.modGate_dram (p : Nat) (f : GateSt → GateSt) : (Chip.modGate p f c).dram = c.dram := (rfl)
@[simp] theorem Chip.modGate_zeroed (p : Nat) (f : GateSt → GateSt) : (Chip.modGate p f c).zeroed = c.zeroed := (rfl)
@[simp] theorem Chip.modGate_buses (p : Nat) (f : GateSt → GateSt) : (Chip.modGate p f c).buses = c.buses := (rfl)
@[simp] theorem Chip.modGate_mix (p : Nat) (f : GateSt → GateSt) : (Chip.modGate p f c).mix = c.mix := (rfl)
@[simp] theorem Chip.modGate_kerf (p : Nat) (f : GateSt → GateSt) : (Chip.modGate p f c).kerf = c.kerf := (rfl)
@[simp] theorem Chip.modGate_upsets (p : Nat) (f : GateSt → GateSt) : (Chip.modGate p f c).upsets = c.upsets := (rfl)
@[simp] theorem Chip.modGate_balers (p : Nat) (f : GateSt → GateSt) : (Chip.modGate p f c).balers = c.balers := (rfl)
@[simp] theorem Chip.modGate_serial (p : Nat) (f : GateSt → GateSt) : (Chip.modGate p f c).serial = c.serial := (rfl)
@[simp] theorem Chip.modGate_fns (p : Nat) (f : GateSt → GateSt) : (Chip.modGate p f c).fns = c.fns := (rfl)
@[simp] theorem Chip.modGate_tonesets (p : Nat) (f : GateSt → GateSt) : (Chip.modGate p f c).tonesets = c.tonesets := (rfl)
@[simp] theorem Chip.modGate_customs (p : Nat) (f : GateSt → GateSt) : (Chip.modGate p f c).customs = c.customs := (rfl)
@[simp] theorem Chip.modGate_heads (p : Nat) (f : GateSt → GateSt) : (Chip.modGate p f c).heads = c.heads := (rfl)
@[simp] theorem Chip.modGate_audio (p : Nat) (f : GateSt → GateSt) : (Chip.modGate p f c).audio = c.audio := (rfl)
@[simp] theorem Chip.modGate_mc (p : Nat) (f : GateSt → GateSt) : (Chip.modGate p f c).mc = c.mc := (rfl)
@[simp] theorem Chip.modGate_boot (p : Nat) (f : GateSt → GateSt) : (Chip.modGate p f c).boot = c.boot := (rfl)
@[simp] theorem Chip.modGate_jtag (p : Nat) (f : GateSt → GateSt) : (Chip.modGate p f c).jtag = c.jtag := (rfl)

/-! ### Chip.modRec -/
@[simp] theorem Chip.modRec_count (chan : Bool) (f : RecSt → RecSt) : (Chip.modRec chan f c).count = c.count := (rfl)
@[simp] theorem Chip.modRec_draws (chan : Bool) (f : RecSt → RecSt) : (Chip.modRec chan f c).draws = c.draws := (rfl)
@[simp] theorem Chip.modRec_regs (chan : Bool) (f : RecSt → RecSt) : (Chip.modRec chan f c).regs = c.regs := (rfl)
@[simp] theorem Chip.modRec_preqs (chan : Bool) (f : RecSt → RecSt) : (Chip.modRec chan f c).preqs = c.preqs := (rfl)
@[simp] theorem Chip.modRec_out (chan : Bool) (f : RecSt → RecSt) : (Chip.modRec chan f c).out = c.out := (rfl)
@[simp] theorem Chip.modRec_dev (chan : Bool) (f : RecSt → RecSt) : (Chip.modRec chan f c).dev = c.dev := (rfl)
@[simp] theorem Chip.modRec_time (chan : Bool) (f : RecSt → RecSt) : (Chip.modRec chan f c).time = c.time := (rfl)
@[simp] theorem Chip.modRec_chutes (chan : Bool) (f : RecSt → RecSt) : (Chip.modRec chan f c).chutes = c.chutes := (rfl)
@[simp] theorem Chip.modRec_arriving (chan : Bool) (f : RecSt → RecSt) : (Chip.modRec chan f c).arriving = c.arriving := (rfl)
@[simp] theorem Chip.modRec_pool (chan : Bool) (f : RecSt → RecSt) : (Chip.modRec chan f c).pool = c.pool := (rfl)
@[simp] theorem Chip.modRec_cores (chan : Bool) (f : RecSt → RecSt) : (Chip.modRec chan f c).cores = c.cores := (rfl)
@[simp] theorem Chip.modRec_slots (chan : Bool) (f : RecSt → RecSt) : (Chip.modRec chan f c).slots = c.slots := (rfl)
@[simp] theorem Chip.modRec_bufs (chan : Bool) (f : RecSt → RecSt) : (Chip.modRec chan f c).bufs = c.bufs := (rfl)
@[simp] theorem Chip.modRec_sqs (chan : Bool) (f : RecSt → RecSt) : (Chip.modRec chan f c).sqs = c.sqs := (rfl)
@[simp] theorem Chip.modRec_sqTurn (chan : Bool) (f : RecSt → RecSt) : (Chip.modRec chan f c).sqTurn = c.sqTurn := (rfl)
@[simp] theorem Chip.modRec_chans (chan : Bool) (f : RecSt → RecSt) : (Chip.modRec chan f c).chans = c.chans := (rfl)
@[simp] theorem Chip.modRec_jbs (chan : Bool) (f : RecSt → RecSt) : (Chip.modRec chan f c).jbs = c.jbs := (rfl)
@[simp] theorem Chip.modRec_host (chan : Bool) (f : RecSt → RecSt) : (Chip.modRec chan f c).host = c.host := (rfl)
@[simp] theorem Chip.modRec_ranger (chan : Bool) (f : RecSt → RecSt) : (Chip.modRec chan f c).ranger = c.ranger := (rfl)
@[simp] theorem Chip.modRec_dram (chan : Bool) (f : RecSt → RecSt) : (Chip.modRec chan f c).dram = c.dram := (rfl)
@[simp] theorem Chip.modRec_zeroed (chan : Bool) (f : RecSt → RecSt) : (Chip.modRec chan f c).zeroed = c.zeroed := (rfl)
@[simp] theorem Chip.modRec_buses (chan : Bool) (f : RecSt → RecSt) : (Chip.modRec chan f c).buses = c.buses := (rfl)
@[simp] theorem Chip.modRec_mix (chan : Bool) (f : RecSt → RecSt) : (Chip.modRec chan f c).mix = c.mix := (rfl)
@[simp] theorem Chip.modRec_kerf (chan : Bool) (f : RecSt → RecSt) : (Chip.modRec chan f c).kerf = c.kerf := (rfl)
@[simp] theorem Chip.modRec_upsets (chan : Bool) (f : RecSt → RecSt) : (Chip.modRec chan f c).upsets = c.upsets := (rfl)
@[simp] theorem Chip.modRec_balers (chan : Bool) (f : RecSt → RecSt) : (Chip.modRec chan f c).balers = c.balers := (rfl)
@[simp] theorem Chip.modRec_serial (chan : Bool) (f : RecSt → RecSt) : (Chip.modRec chan f c).serial = c.serial := (rfl)
@[simp] theorem Chip.modRec_fns (chan : Bool) (f : RecSt → RecSt) : (Chip.modRec chan f c).fns = c.fns := (rfl)
@[simp] theorem Chip.modRec_tonesets (chan : Bool) (f : RecSt → RecSt) : (Chip.modRec chan f c).tonesets = c.tonesets := (rfl)
@[simp] theorem Chip.modRec_customs (chan : Bool) (f : RecSt → RecSt) : (Chip.modRec chan f c).customs = c.customs := (rfl)
@[simp] theorem Chip.modRec_heads (chan : Bool) (f : RecSt → RecSt) : (Chip.modRec chan f c).heads = c.heads := (rfl)
@[simp] theorem Chip.modRec_flume (chan : Bool) (f : RecSt → RecSt) : (Chip.modRec chan f c).flume = c.flume := (rfl)
@[simp] theorem Chip.modRec_audio (chan : Bool) (f : RecSt → RecSt) : (Chip.modRec chan f c).audio = c.audio := (rfl)
@[simp] theorem Chip.modRec_mc (chan : Bool) (f : RecSt → RecSt) : (Chip.modRec chan f c).mc = c.mc := (rfl)
@[simp] theorem Chip.modRec_boot (chan : Bool) (f : RecSt → RecSt) : (Chip.modRec chan f c).boot = c.boot := (rfl)
@[simp] theorem Chip.modRec_jtag (chan : Bool) (f : RecSt → RecSt) : (Chip.modRec chan f c).jtag = c.jtag := (rfl)

/-! ### Chip.modBaler -/
@[simp] theorem Chip.modBaler_count (u : Nat) (f : BalerSt → BalerSt) : (Chip.modBaler u f c).count = c.count := (rfl)
@[simp] theorem Chip.modBaler_draws (u : Nat) (f : BalerSt → BalerSt) : (Chip.modBaler u f c).draws = c.draws := (rfl)
@[simp] theorem Chip.modBaler_regs (u : Nat) (f : BalerSt → BalerSt) : (Chip.modBaler u f c).regs = c.regs := (rfl)
@[simp] theorem Chip.modBaler_preqs (u : Nat) (f : BalerSt → BalerSt) : (Chip.modBaler u f c).preqs = c.preqs := (rfl)
@[simp] theorem Chip.modBaler_out (u : Nat) (f : BalerSt → BalerSt) : (Chip.modBaler u f c).out = c.out := (rfl)
@[simp] theorem Chip.modBaler_dev (u : Nat) (f : BalerSt → BalerSt) : (Chip.modBaler u f c).dev = c.dev := (rfl)
@[simp] theorem Chip.modBaler_time (u : Nat) (f : BalerSt → BalerSt) : (Chip.modBaler u f c).time = c.time := (rfl)
@[simp] theorem Chip.modBaler_chutes (u : Nat) (f : BalerSt → BalerSt) : (Chip.modBaler u f c).chutes = c.chutes := (rfl)
@[simp] theorem Chip.modBaler_arriving (u : Nat) (f : BalerSt → BalerSt) : (Chip.modBaler u f c).arriving = c.arriving := (rfl)
@[simp] theorem Chip.modBaler_pool (u : Nat) (f : BalerSt → BalerSt) : (Chip.modBaler u f c).pool = c.pool := (rfl)
@[simp] theorem Chip.modBaler_cores (u : Nat) (f : BalerSt → BalerSt) : (Chip.modBaler u f c).cores = c.cores := (rfl)
@[simp] theorem Chip.modBaler_slots (u : Nat) (f : BalerSt → BalerSt) : (Chip.modBaler u f c).slots = c.slots := (rfl)
@[simp] theorem Chip.modBaler_bufs (u : Nat) (f : BalerSt → BalerSt) : (Chip.modBaler u f c).bufs = c.bufs := (rfl)
@[simp] theorem Chip.modBaler_sqs (u : Nat) (f : BalerSt → BalerSt) : (Chip.modBaler u f c).sqs = c.sqs := (rfl)
@[simp] theorem Chip.modBaler_sqTurn (u : Nat) (f : BalerSt → BalerSt) : (Chip.modBaler u f c).sqTurn = c.sqTurn := (rfl)
@[simp] theorem Chip.modBaler_chans (u : Nat) (f : BalerSt → BalerSt) : (Chip.modBaler u f c).chans = c.chans := (rfl)
@[simp] theorem Chip.modBaler_jbs (u : Nat) (f : BalerSt → BalerSt) : (Chip.modBaler u f c).jbs = c.jbs := (rfl)
@[simp] theorem Chip.modBaler_host (u : Nat) (f : BalerSt → BalerSt) : (Chip.modBaler u f c).host = c.host := (rfl)
@[simp] theorem Chip.modBaler_fault (u : Nat) (f : BalerSt → BalerSt) : (Chip.modBaler u f c).fault = c.fault := (rfl)
@[simp] theorem Chip.modBaler_ranger (u : Nat) (f : BalerSt → BalerSt) : (Chip.modBaler u f c).ranger = c.ranger := (rfl)
@[simp] theorem Chip.modBaler_dram (u : Nat) (f : BalerSt → BalerSt) : (Chip.modBaler u f c).dram = c.dram := (rfl)
@[simp] theorem Chip.modBaler_zeroed (u : Nat) (f : BalerSt → BalerSt) : (Chip.modBaler u f c).zeroed = c.zeroed := (rfl)
@[simp] theorem Chip.modBaler_buses (u : Nat) (f : BalerSt → BalerSt) : (Chip.modBaler u f c).buses = c.buses := (rfl)
@[simp] theorem Chip.modBaler_mix (u : Nat) (f : BalerSt → BalerSt) : (Chip.modBaler u f c).mix = c.mix := (rfl)
@[simp] theorem Chip.modBaler_kerf (u : Nat) (f : BalerSt → BalerSt) : (Chip.modBaler u f c).kerf = c.kerf := (rfl)
@[simp] theorem Chip.modBaler_upsets (u : Nat) (f : BalerSt → BalerSt) : (Chip.modBaler u f c).upsets = c.upsets := (rfl)
@[simp] theorem Chip.modBaler_serial (u : Nat) (f : BalerSt → BalerSt) : (Chip.modBaler u f c).serial = c.serial := (rfl)
@[simp] theorem Chip.modBaler_fns (u : Nat) (f : BalerSt → BalerSt) : (Chip.modBaler u f c).fns = c.fns := (rfl)
@[simp] theorem Chip.modBaler_tonesets (u : Nat) (f : BalerSt → BalerSt) : (Chip.modBaler u f c).tonesets = c.tonesets := (rfl)
@[simp] theorem Chip.modBaler_customs (u : Nat) (f : BalerSt → BalerSt) : (Chip.modBaler u f c).customs = c.customs := (rfl)
@[simp] theorem Chip.modBaler_heads (u : Nat) (f : BalerSt → BalerSt) : (Chip.modBaler u f c).heads = c.heads := (rfl)
@[simp] theorem Chip.modBaler_flume (u : Nat) (f : BalerSt → BalerSt) : (Chip.modBaler u f c).flume = c.flume := (rfl)
@[simp] theorem Chip.modBaler_audio (u : Nat) (f : BalerSt → BalerSt) : (Chip.modBaler u f c).audio = c.audio := (rfl)
@[simp] theorem Chip.modBaler_mc (u : Nat) (f : BalerSt → BalerSt) : (Chip.modBaler u f c).mc = c.mc := (rfl)
@[simp] theorem Chip.modBaler_boot (u : Nat) (f : BalerSt → BalerSt) : (Chip.modBaler u f c).boot = c.boot := (rfl)
@[simp] theorem Chip.modBaler_jtag (u : Nat) (f : BalerSt → BalerSt) : (Chip.modBaler u f c).jtag = c.jtag := (rfl)

/-! ### Chip.putEntry -/
@[simp] theorem Chip.putEntry_count (a : Nat) (e : Entry) : (Chip.putEntry a e c).count = c.count := (rfl)
@[simp] theorem Chip.putEntry_draws (a : Nat) (e : Entry) : (Chip.putEntry a e c).draws = c.draws := (rfl)
@[simp] theorem Chip.putEntry_regs (a : Nat) (e : Entry) : (Chip.putEntry a e c).regs = c.regs := (rfl)
@[simp] theorem Chip.putEntry_preqs (a : Nat) (e : Entry) : (Chip.putEntry a e c).preqs = c.preqs := (rfl)
@[simp] theorem Chip.putEntry_out (a : Nat) (e : Entry) : (Chip.putEntry a e c).out = c.out := (rfl)
@[simp] theorem Chip.putEntry_dev (a : Nat) (e : Entry) : (Chip.putEntry a e c).dev = c.dev := (rfl)
@[simp] theorem Chip.putEntry_time (a : Nat) (e : Entry) : (Chip.putEntry a e c).time = c.time := (rfl)
@[simp] theorem Chip.putEntry_chutes (a : Nat) (e : Entry) : (Chip.putEntry a e c).chutes = c.chutes := (rfl)
@[simp] theorem Chip.putEntry_arriving (a : Nat) (e : Entry) : (Chip.putEntry a e c).arriving = c.arriving := (rfl)
@[simp] theorem Chip.putEntry_cores (a : Nat) (e : Entry) : (Chip.putEntry a e c).cores = c.cores := (rfl)
@[simp] theorem Chip.putEntry_slots (a : Nat) (e : Entry) : (Chip.putEntry a e c).slots = c.slots := (rfl)
@[simp] theorem Chip.putEntry_bufs (a : Nat) (e : Entry) : (Chip.putEntry a e c).bufs = c.bufs := (rfl)
@[simp] theorem Chip.putEntry_sqs (a : Nat) (e : Entry) : (Chip.putEntry a e c).sqs = c.sqs := (rfl)
@[simp] theorem Chip.putEntry_sqTurn (a : Nat) (e : Entry) : (Chip.putEntry a e c).sqTurn = c.sqTurn := (rfl)
@[simp] theorem Chip.putEntry_chans (a : Nat) (e : Entry) : (Chip.putEntry a e c).chans = c.chans := (rfl)
@[simp] theorem Chip.putEntry_jbs (a : Nat) (e : Entry) : (Chip.putEntry a e c).jbs = c.jbs := (rfl)
@[simp] theorem Chip.putEntry_host (a : Nat) (e : Entry) : (Chip.putEntry a e c).host = c.host := (rfl)
@[simp] theorem Chip.putEntry_fault (a : Nat) (e : Entry) : (Chip.putEntry a e c).fault = c.fault := (rfl)
@[simp] theorem Chip.putEntry_ranger (a : Nat) (e : Entry) : (Chip.putEntry a e c).ranger = c.ranger := (rfl)
@[simp] theorem Chip.putEntry_dram (a : Nat) (e : Entry) : (Chip.putEntry a e c).dram = c.dram := (rfl)
@[simp] theorem Chip.putEntry_zeroed (a : Nat) (e : Entry) : (Chip.putEntry a e c).zeroed = c.zeroed := (rfl)
@[simp] theorem Chip.putEntry_buses (a : Nat) (e : Entry) : (Chip.putEntry a e c).buses = c.buses := (rfl)
@[simp] theorem Chip.putEntry_mix (a : Nat) (e : Entry) : (Chip.putEntry a e c).mix = c.mix := (rfl)
@[simp] theorem Chip.putEntry_kerf (a : Nat) (e : Entry) : (Chip.putEntry a e c).kerf = c.kerf := (rfl)
@[simp] theorem Chip.putEntry_upsets (a : Nat) (e : Entry) : (Chip.putEntry a e c).upsets = c.upsets := (rfl)
@[simp] theorem Chip.putEntry_balers (a : Nat) (e : Entry) : (Chip.putEntry a e c).balers = c.balers := (rfl)
@[simp] theorem Chip.putEntry_serial (a : Nat) (e : Entry) : (Chip.putEntry a e c).serial = c.serial := (rfl)
@[simp] theorem Chip.putEntry_fns (a : Nat) (e : Entry) : (Chip.putEntry a e c).fns = c.fns := (rfl)
@[simp] theorem Chip.putEntry_tonesets (a : Nat) (e : Entry) : (Chip.putEntry a e c).tonesets = c.tonesets := (rfl)
@[simp] theorem Chip.putEntry_customs (a : Nat) (e : Entry) : (Chip.putEntry a e c).customs = c.customs := (rfl)
@[simp] theorem Chip.putEntry_heads (a : Nat) (e : Entry) : (Chip.putEntry a e c).heads = c.heads := (rfl)
@[simp] theorem Chip.putEntry_flume (a : Nat) (e : Entry) : (Chip.putEntry a e c).flume = c.flume := (rfl)
@[simp] theorem Chip.putEntry_audio (a : Nat) (e : Entry) : (Chip.putEntry a e c).audio = c.audio := (rfl)
@[simp] theorem Chip.putEntry_mc (a : Nat) (e : Entry) : (Chip.putEntry a e c).mc = c.mc := (rfl)
@[simp] theorem Chip.putEntry_boot (a : Nat) (e : Entry) : (Chip.putEntry a e c).boot = c.boot := (rfl)
@[simp] theorem Chip.putEntry_jtag (a : Nat) (e : Entry) : (Chip.putEntry a e c).jtag = c.jtag := (rfl)

/-! ### Chip.setBuf -/
@[simp] theorem Chip.setBuf_count (place : Nat) (b : BufSt) : (Chip.setBuf place b c).count = c.count := (rfl)
@[simp] theorem Chip.setBuf_draws (place : Nat) (b : BufSt) : (Chip.setBuf place b c).draws = c.draws := (rfl)
@[simp] theorem Chip.setBuf_regs (place : Nat) (b : BufSt) : (Chip.setBuf place b c).regs = c.regs := (rfl)
@[simp] theorem Chip.setBuf_preqs (place : Nat) (b : BufSt) : (Chip.setBuf place b c).preqs = c.preqs := (rfl)
@[simp] theorem Chip.setBuf_out (place : Nat) (b : BufSt) : (Chip.setBuf place b c).out = c.out := (rfl)
@[simp] theorem Chip.setBuf_dev (place : Nat) (b : BufSt) : (Chip.setBuf place b c).dev = c.dev := (rfl)
@[simp] theorem Chip.setBuf_time (place : Nat) (b : BufSt) : (Chip.setBuf place b c).time = c.time := (rfl)
@[simp] theorem Chip.setBuf_chutes (place : Nat) (b : BufSt) : (Chip.setBuf place b c).chutes = c.chutes := (rfl)
@[simp] theorem Chip.setBuf_arriving (place : Nat) (b : BufSt) : (Chip.setBuf place b c).arriving = c.arriving := (rfl)
@[simp] theorem Chip.setBuf_pool (place : Nat) (b : BufSt) : (Chip.setBuf place b c).pool = c.pool := (rfl)
@[simp] theorem Chip.setBuf_cores (place : Nat) (b : BufSt) : (Chip.setBuf place b c).cores = c.cores := (rfl)
@[simp] theorem Chip.setBuf_slots (place : Nat) (b : BufSt) : (Chip.setBuf place b c).slots = c.slots := (rfl)
@[simp] theorem Chip.setBuf_bufs (place : Nat) (b : BufSt) :
    (Chip.setBuf place b c).bufs = Cells.set .free place b c.bufs := (rfl)
@[simp] theorem Chip.setBuf_sqs (place : Nat) (b : BufSt) : (Chip.setBuf place b c).sqs = c.sqs := (rfl)
@[simp] theorem Chip.setBuf_sqTurn (place : Nat) (b : BufSt) : (Chip.setBuf place b c).sqTurn = c.sqTurn := (rfl)
@[simp] theorem Chip.setBuf_chans (place : Nat) (b : BufSt) : (Chip.setBuf place b c).chans = c.chans := (rfl)
@[simp] theorem Chip.setBuf_jbs (place : Nat) (b : BufSt) : (Chip.setBuf place b c).jbs = c.jbs := (rfl)
@[simp] theorem Chip.setBuf_host (place : Nat) (b : BufSt) : (Chip.setBuf place b c).host = c.host := (rfl)
@[simp] theorem Chip.setBuf_fault (place : Nat) (b : BufSt) : (Chip.setBuf place b c).fault = c.fault := (rfl)
@[simp] theorem Chip.setBuf_ranger (place : Nat) (b : BufSt) : (Chip.setBuf place b c).ranger = c.ranger := (rfl)
@[simp] theorem Chip.setBuf_dram (place : Nat) (b : BufSt) : (Chip.setBuf place b c).dram = c.dram := (rfl)
@[simp] theorem Chip.setBuf_zeroed (place : Nat) (b : BufSt) : (Chip.setBuf place b c).zeroed = c.zeroed := (rfl)
@[simp] theorem Chip.setBuf_buses (place : Nat) (b : BufSt) : (Chip.setBuf place b c).buses = c.buses := (rfl)
@[simp] theorem Chip.setBuf_mix (place : Nat) (b : BufSt) : (Chip.setBuf place b c).mix = c.mix := (rfl)
@[simp] theorem Chip.setBuf_kerf (place : Nat) (b : BufSt) : (Chip.setBuf place b c).kerf = c.kerf := (rfl)
@[simp] theorem Chip.setBuf_upsets (place : Nat) (b : BufSt) : (Chip.setBuf place b c).upsets = c.upsets := (rfl)
@[simp] theorem Chip.setBuf_balers (place : Nat) (b : BufSt) : (Chip.setBuf place b c).balers = c.balers := (rfl)
@[simp] theorem Chip.setBuf_serial (place : Nat) (b : BufSt) : (Chip.setBuf place b c).serial = c.serial := (rfl)
@[simp] theorem Chip.setBuf_fns (place : Nat) (b : BufSt) : (Chip.setBuf place b c).fns = c.fns := (rfl)
@[simp] theorem Chip.setBuf_tonesets (place : Nat) (b : BufSt) : (Chip.setBuf place b c).tonesets = c.tonesets := (rfl)
@[simp] theorem Chip.setBuf_customs (place : Nat) (b : BufSt) : (Chip.setBuf place b c).customs = c.customs := (rfl)
@[simp] theorem Chip.setBuf_heads (place : Nat) (b : BufSt) : (Chip.setBuf place b c).heads = c.heads := (rfl)
@[simp] theorem Chip.setBuf_flume (place : Nat) (b : BufSt) : (Chip.setBuf place b c).flume = c.flume := (rfl)
@[simp] theorem Chip.setBuf_audio (place : Nat) (b : BufSt) : (Chip.setBuf place b c).audio = c.audio := (rfl)
@[simp] theorem Chip.setBuf_mc (place : Nat) (b : BufSt) : (Chip.setBuf place b c).mc = c.mc := (rfl)
@[simp] theorem Chip.setBuf_boot (place : Nat) (b : BufSt) : (Chip.setBuf place b c).boot = c.boot := (rfl)
@[simp] theorem Chip.setBuf_jtag (place : Nat) (b : BufSt) : (Chip.setBuf place b c).jtag = c.jtag := (rfl)

/-! ### Chip.freeSlot -/
@[simp] theorem Chip.freeSlot_count (n : Nat) : (Chip.freeSlot n c).count = c.count := (rfl)
@[simp] theorem Chip.freeSlot_draws (n : Nat) : (Chip.freeSlot n c).draws = c.draws := (rfl)
@[simp] theorem Chip.freeSlot_regs (n : Nat) : (Chip.freeSlot n c).regs = c.regs := (rfl)
@[simp] theorem Chip.freeSlot_preqs (n : Nat) : (Chip.freeSlot n c).preqs = c.preqs := (rfl)
@[simp] theorem Chip.freeSlot_out (n : Nat) : (Chip.freeSlot n c).out = c.out := (rfl)
@[simp] theorem Chip.freeSlot_dev (n : Nat) : (Chip.freeSlot n c).dev = c.dev := (rfl)
@[simp] theorem Chip.freeSlot_time (n : Nat) : (Chip.freeSlot n c).time = c.time := (rfl)
@[simp] theorem Chip.freeSlot_chutes (n : Nat) : (Chip.freeSlot n c).chutes = c.chutes := (rfl)
@[simp] theorem Chip.freeSlot_arriving (n : Nat) : (Chip.freeSlot n c).arriving = c.arriving := (rfl)
@[simp] theorem Chip.freeSlot_pool (n : Nat) : (Chip.freeSlot n c).pool = c.pool := (rfl)
@[simp] theorem Chip.freeSlot_cores (n : Nat) : (Chip.freeSlot n c).cores = c.cores := (rfl)
@[simp] theorem Chip.freeSlot_slots (n : Nat) :
    (Chip.freeSlot n c).slots = Cells.erase n c.slots := (rfl)
@[simp] theorem Chip.freeSlot_bufs (n : Nat) : (Chip.freeSlot n c).bufs = c.bufs := (rfl)
@[simp] theorem Chip.freeSlot_sqs (n : Nat) : (Chip.freeSlot n c).sqs = c.sqs := (rfl)
@[simp] theorem Chip.freeSlot_sqTurn (n : Nat) : (Chip.freeSlot n c).sqTurn = c.sqTurn := (rfl)
@[simp] theorem Chip.freeSlot_chans (n : Nat) : (Chip.freeSlot n c).chans = c.chans := (rfl)
@[simp] theorem Chip.freeSlot_jbs (n : Nat) : (Chip.freeSlot n c).jbs = c.jbs := (rfl)
@[simp] theorem Chip.freeSlot_host (n : Nat) : (Chip.freeSlot n c).host = c.host := (rfl)
@[simp] theorem Chip.freeSlot_fault (n : Nat) : (Chip.freeSlot n c).fault = c.fault := (rfl)
@[simp] theorem Chip.freeSlot_ranger (n : Nat) : (Chip.freeSlot n c).ranger = c.ranger := (rfl)
@[simp] theorem Chip.freeSlot_dram (n : Nat) : (Chip.freeSlot n c).dram = c.dram := (rfl)
@[simp] theorem Chip.freeSlot_zeroed (n : Nat) : (Chip.freeSlot n c).zeroed = c.zeroed := (rfl)
@[simp] theorem Chip.freeSlot_buses (n : Nat) : (Chip.freeSlot n c).buses = c.buses := (rfl)
@[simp] theorem Chip.freeSlot_mix (n : Nat) : (Chip.freeSlot n c).mix = c.mix := (rfl)
@[simp] theorem Chip.freeSlot_kerf (n : Nat) : (Chip.freeSlot n c).kerf = c.kerf := (rfl)
@[simp] theorem Chip.freeSlot_upsets (n : Nat) : (Chip.freeSlot n c).upsets = c.upsets := (rfl)
@[simp] theorem Chip.freeSlot_balers (n : Nat) : (Chip.freeSlot n c).balers = c.balers := (rfl)
@[simp] theorem Chip.freeSlot_serial (n : Nat) : (Chip.freeSlot n c).serial = c.serial := (rfl)
@[simp] theorem Chip.freeSlot_fns (n : Nat) : (Chip.freeSlot n c).fns = c.fns := (rfl)
@[simp] theorem Chip.freeSlot_tonesets (n : Nat) : (Chip.freeSlot n c).tonesets = c.tonesets := (rfl)
@[simp] theorem Chip.freeSlot_customs (n : Nat) : (Chip.freeSlot n c).customs = c.customs := (rfl)
@[simp] theorem Chip.freeSlot_heads (n : Nat) : (Chip.freeSlot n c).heads = c.heads := (rfl)
@[simp] theorem Chip.freeSlot_flume (n : Nat) : (Chip.freeSlot n c).flume = c.flume := (rfl)
@[simp] theorem Chip.freeSlot_audio (n : Nat) : (Chip.freeSlot n c).audio = c.audio := (rfl)
@[simp] theorem Chip.freeSlot_mc (n : Nat) : (Chip.freeSlot n c).mc = c.mc := (rfl)
@[simp] theorem Chip.freeSlot_boot (n : Nat) : (Chip.freeSlot n c).boot = c.boot := (rfl)
@[simp] theorem Chip.freeSlot_jtag (n : Nat) : (Chip.freeSlot n c).jtag = c.jtag := (rfl)

/-! ### Chip.setSq -/
@[simp] theorem Chip.setSq_count (q : Requester) (s : SqSt) : (Chip.setSq q s c).count = c.count := (rfl)
@[simp] theorem Chip.setSq_draws (q : Requester) (s : SqSt) : (Chip.setSq q s c).draws = c.draws := (rfl)
@[simp] theorem Chip.setSq_regs (q : Requester) (s : SqSt) : (Chip.setSq q s c).regs = c.regs := (rfl)
@[simp] theorem Chip.setSq_preqs (q : Requester) (s : SqSt) : (Chip.setSq q s c).preqs = c.preqs := (rfl)
@[simp] theorem Chip.setSq_out (q : Requester) (s : SqSt) : (Chip.setSq q s c).out = c.out := (rfl)
@[simp] theorem Chip.setSq_dev (q : Requester) (s : SqSt) : (Chip.setSq q s c).dev = c.dev := (rfl)
@[simp] theorem Chip.setSq_time (q : Requester) (s : SqSt) : (Chip.setSq q s c).time = c.time := (rfl)
@[simp] theorem Chip.setSq_chutes (q : Requester) (s : SqSt) : (Chip.setSq q s c).chutes = c.chutes := (rfl)
@[simp] theorem Chip.setSq_arriving (q : Requester) (s : SqSt) : (Chip.setSq q s c).arriving = c.arriving := (rfl)
@[simp] theorem Chip.setSq_pool (q : Requester) (s : SqSt) : (Chip.setSq q s c).pool = c.pool := (rfl)
@[simp] theorem Chip.setSq_cores (q : Requester) (s : SqSt) : (Chip.setSq q s c).cores = c.cores := (rfl)
@[simp] theorem Chip.setSq_slots (q : Requester) (s : SqSt) : (Chip.setSq q s c).slots = c.slots := (rfl)
@[simp] theorem Chip.setSq_bufs (q : Requester) (s : SqSt) : (Chip.setSq q s c).bufs = c.bufs := (rfl)
@[simp] theorem Chip.setSq_sqs (q : Requester) (s : SqSt) :
    (Chip.setSq q s c).sqs = Cells.set {} q.idx s c.sqs := (rfl)
@[simp] theorem Chip.setSq_sqTurn (q : Requester) (s : SqSt) : (Chip.setSq q s c).sqTurn = c.sqTurn := (rfl)
@[simp] theorem Chip.setSq_chans (q : Requester) (s : SqSt) : (Chip.setSq q s c).chans = c.chans := (rfl)
@[simp] theorem Chip.setSq_jbs (q : Requester) (s : SqSt) : (Chip.setSq q s c).jbs = c.jbs := (rfl)
@[simp] theorem Chip.setSq_host (q : Requester) (s : SqSt) : (Chip.setSq q s c).host = c.host := (rfl)
@[simp] theorem Chip.setSq_fault (q : Requester) (s : SqSt) : (Chip.setSq q s c).fault = c.fault := (rfl)
@[simp] theorem Chip.setSq_ranger (q : Requester) (s : SqSt) : (Chip.setSq q s c).ranger = c.ranger := (rfl)
@[simp] theorem Chip.setSq_dram (q : Requester) (s : SqSt) : (Chip.setSq q s c).dram = c.dram := (rfl)
@[simp] theorem Chip.setSq_zeroed (q : Requester) (s : SqSt) : (Chip.setSq q s c).zeroed = c.zeroed := (rfl)
@[simp] theorem Chip.setSq_buses (q : Requester) (s : SqSt) : (Chip.setSq q s c).buses = c.buses := (rfl)
@[simp] theorem Chip.setSq_mix (q : Requester) (s : SqSt) : (Chip.setSq q s c).mix = c.mix := (rfl)
@[simp] theorem Chip.setSq_kerf (q : Requester) (s : SqSt) : (Chip.setSq q s c).kerf = c.kerf := (rfl)
@[simp] theorem Chip.setSq_upsets (q : Requester) (s : SqSt) : (Chip.setSq q s c).upsets = c.upsets := (rfl)
@[simp] theorem Chip.setSq_balers (q : Requester) (s : SqSt) : (Chip.setSq q s c).balers = c.balers := (rfl)
@[simp] theorem Chip.setSq_serial (q : Requester) (s : SqSt) : (Chip.setSq q s c).serial = c.serial := (rfl)
@[simp] theorem Chip.setSq_fns (q : Requester) (s : SqSt) : (Chip.setSq q s c).fns = c.fns := (rfl)
@[simp] theorem Chip.setSq_tonesets (q : Requester) (s : SqSt) : (Chip.setSq q s c).tonesets = c.tonesets := (rfl)
@[simp] theorem Chip.setSq_customs (q : Requester) (s : SqSt) : (Chip.setSq q s c).customs = c.customs := (rfl)
@[simp] theorem Chip.setSq_heads (q : Requester) (s : SqSt) : (Chip.setSq q s c).heads = c.heads := (rfl)
@[simp] theorem Chip.setSq_flume (q : Requester) (s : SqSt) : (Chip.setSq q s c).flume = c.flume := (rfl)
@[simp] theorem Chip.setSq_audio (q : Requester) (s : SqSt) : (Chip.setSq q s c).audio = c.audio := (rfl)
@[simp] theorem Chip.setSq_mc (q : Requester) (s : SqSt) : (Chip.setSq q s c).mc = c.mc := (rfl)
@[simp] theorem Chip.setSq_boot (q : Requester) (s : SqSt) : (Chip.setSq q s c).boot = c.boot := (rfl)
@[simp] theorem Chip.setSq_jtag (q : Requester) (s : SqSt) : (Chip.setSq q s c).jtag = c.jtag := (rfl)

/-! ### Chip.setBus -/
@[simp] theorem Chip.setBus_count (b : Nat) (s : BusSt) : (Chip.setBus b s c).count = c.count := (rfl)
@[simp] theorem Chip.setBus_draws (b : Nat) (s : BusSt) : (Chip.setBus b s c).draws = c.draws := (rfl)
@[simp] theorem Chip.setBus_regs (b : Nat) (s : BusSt) : (Chip.setBus b s c).regs = c.regs := (rfl)
@[simp] theorem Chip.setBus_preqs (b : Nat) (s : BusSt) : (Chip.setBus b s c).preqs = c.preqs := (rfl)
@[simp] theorem Chip.setBus_out (b : Nat) (s : BusSt) : (Chip.setBus b s c).out = c.out := (rfl)
@[simp] theorem Chip.setBus_dev (b : Nat) (s : BusSt) : (Chip.setBus b s c).dev = c.dev := (rfl)
@[simp] theorem Chip.setBus_time (b : Nat) (s : BusSt) : (Chip.setBus b s c).time = c.time := (rfl)
@[simp] theorem Chip.setBus_chutes (b : Nat) (s : BusSt) : (Chip.setBus b s c).chutes = c.chutes := (rfl)
@[simp] theorem Chip.setBus_arriving (b : Nat) (s : BusSt) : (Chip.setBus b s c).arriving = c.arriving := (rfl)
@[simp] theorem Chip.setBus_pool (b : Nat) (s : BusSt) : (Chip.setBus b s c).pool = c.pool := (rfl)
@[simp] theorem Chip.setBus_cores (b : Nat) (s : BusSt) : (Chip.setBus b s c).cores = c.cores := (rfl)
@[simp] theorem Chip.setBus_slots (b : Nat) (s : BusSt) : (Chip.setBus b s c).slots = c.slots := (rfl)
@[simp] theorem Chip.setBus_bufs (b : Nat) (s : BusSt) : (Chip.setBus b s c).bufs = c.bufs := (rfl)
@[simp] theorem Chip.setBus_sqs (b : Nat) (s : BusSt) : (Chip.setBus b s c).sqs = c.sqs := (rfl)
@[simp] theorem Chip.setBus_sqTurn (b : Nat) (s : BusSt) : (Chip.setBus b s c).sqTurn = c.sqTurn := (rfl)
@[simp] theorem Chip.setBus_chans (b : Nat) (s : BusSt) : (Chip.setBus b s c).chans = c.chans := (rfl)
@[simp] theorem Chip.setBus_jbs (b : Nat) (s : BusSt) : (Chip.setBus b s c).jbs = c.jbs := (rfl)
@[simp] theorem Chip.setBus_host (b : Nat) (s : BusSt) : (Chip.setBus b s c).host = c.host := (rfl)
@[simp] theorem Chip.setBus_fault (b : Nat) (s : BusSt) : (Chip.setBus b s c).fault = c.fault := (rfl)
@[simp] theorem Chip.setBus_ranger (b : Nat) (s : BusSt) : (Chip.setBus b s c).ranger = c.ranger := (rfl)
@[simp] theorem Chip.setBus_dram (b : Nat) (s : BusSt) : (Chip.setBus b s c).dram = c.dram := (rfl)
@[simp] theorem Chip.setBus_zeroed (b : Nat) (s : BusSt) : (Chip.setBus b s c).zeroed = c.zeroed := (rfl)
@[simp] theorem Chip.setBus_buses (b : Nat) (s : BusSt) :
    (Chip.setBus b s c).buses = Cells.set {} b s c.buses := (rfl)
@[simp] theorem Chip.setBus_mix (b : Nat) (s : BusSt) : (Chip.setBus b s c).mix = c.mix := (rfl)
@[simp] theorem Chip.setBus_kerf (b : Nat) (s : BusSt) : (Chip.setBus b s c).kerf = c.kerf := (rfl)
@[simp] theorem Chip.setBus_upsets (b : Nat) (s : BusSt) : (Chip.setBus b s c).upsets = c.upsets := (rfl)
@[simp] theorem Chip.setBus_balers (b : Nat) (s : BusSt) : (Chip.setBus b s c).balers = c.balers := (rfl)
@[simp] theorem Chip.setBus_serial (b : Nat) (s : BusSt) : (Chip.setBus b s c).serial = c.serial := (rfl)
@[simp] theorem Chip.setBus_fns (b : Nat) (s : BusSt) : (Chip.setBus b s c).fns = c.fns := (rfl)
@[simp] theorem Chip.setBus_tonesets (b : Nat) (s : BusSt) : (Chip.setBus b s c).tonesets = c.tonesets := (rfl)
@[simp] theorem Chip.setBus_customs (b : Nat) (s : BusSt) : (Chip.setBus b s c).customs = c.customs := (rfl)
@[simp] theorem Chip.setBus_heads (b : Nat) (s : BusSt) : (Chip.setBus b s c).heads = c.heads := (rfl)
@[simp] theorem Chip.setBus_flume (b : Nat) (s : BusSt) : (Chip.setBus b s c).flume = c.flume := (rfl)
@[simp] theorem Chip.setBus_audio (b : Nat) (s : BusSt) : (Chip.setBus b s c).audio = c.audio := (rfl)
@[simp] theorem Chip.setBus_mc (b : Nat) (s : BusSt) : (Chip.setBus b s c).mc = c.mc := (rfl)
@[simp] theorem Chip.setBus_boot (b : Nat) (s : BusSt) : (Chip.setBus b s c).boot = c.boot := (rfl)
@[simp] theorem Chip.setBus_jtag (b : Nat) (s : BusSt) : (Chip.setBus b s c).jtag = c.jtag := (rfl)

/-! ### Chip.setLane -/
@[simp] theorem Chip.setLane_count (l : Nat) (s : LaneSt) : (Chip.setLane l s c).count = c.count := (rfl)
@[simp] theorem Chip.setLane_draws (l : Nat) (s : LaneSt) : (Chip.setLane l s c).draws = c.draws := (rfl)
@[simp] theorem Chip.setLane_regs (l : Nat) (s : LaneSt) : (Chip.setLane l s c).regs = c.regs := (rfl)
@[simp] theorem Chip.setLane_preqs (l : Nat) (s : LaneSt) : (Chip.setLane l s c).preqs = c.preqs := (rfl)
@[simp] theorem Chip.setLane_out (l : Nat) (s : LaneSt) : (Chip.setLane l s c).out = c.out := (rfl)
@[simp] theorem Chip.setLane_dev (l : Nat) (s : LaneSt) : (Chip.setLane l s c).dev = c.dev := (rfl)
@[simp] theorem Chip.setLane_time (l : Nat) (s : LaneSt) : (Chip.setLane l s c).time = c.time := (rfl)
@[simp] theorem Chip.setLane_chutes (l : Nat) (s : LaneSt) : (Chip.setLane l s c).chutes = c.chutes := (rfl)
@[simp] theorem Chip.setLane_arriving (l : Nat) (s : LaneSt) : (Chip.setLane l s c).arriving = c.arriving := (rfl)
@[simp] theorem Chip.setLane_pool (l : Nat) (s : LaneSt) : (Chip.setLane l s c).pool = c.pool := (rfl)
@[simp] theorem Chip.setLane_cores (l : Nat) (s : LaneSt) : (Chip.setLane l s c).cores = c.cores := (rfl)
@[simp] theorem Chip.setLane_slots (l : Nat) (s : LaneSt) : (Chip.setLane l s c).slots = c.slots := (rfl)
@[simp] theorem Chip.setLane_bufs (l : Nat) (s : LaneSt) : (Chip.setLane l s c).bufs = c.bufs := (rfl)
@[simp] theorem Chip.setLane_sqs (l : Nat) (s : LaneSt) : (Chip.setLane l s c).sqs = c.sqs := (rfl)
@[simp] theorem Chip.setLane_sqTurn (l : Nat) (s : LaneSt) : (Chip.setLane l s c).sqTurn = c.sqTurn := (rfl)
@[simp] theorem Chip.setLane_chans (l : Nat) (s : LaneSt) : (Chip.setLane l s c).chans = c.chans := (rfl)
@[simp] theorem Chip.setLane_jbs (l : Nat) (s : LaneSt) : (Chip.setLane l s c).jbs = c.jbs := (rfl)
@[simp] theorem Chip.setLane_host (l : Nat) (s : LaneSt) : (Chip.setLane l s c).host = c.host := (rfl)
@[simp] theorem Chip.setLane_fault (l : Nat) (s : LaneSt) : (Chip.setLane l s c).fault = c.fault := (rfl)
@[simp] theorem Chip.setLane_ranger (l : Nat) (s : LaneSt) : (Chip.setLane l s c).ranger = c.ranger := (rfl)
@[simp] theorem Chip.setLane_dram (l : Nat) (s : LaneSt) : (Chip.setLane l s c).dram = c.dram := (rfl)
@[simp] theorem Chip.setLane_zeroed (l : Nat) (s : LaneSt) : (Chip.setLane l s c).zeroed = c.zeroed := (rfl)
@[simp] theorem Chip.setLane_buses (l : Nat) (s : LaneSt) : (Chip.setLane l s c).buses = c.buses := (rfl)
@[simp] theorem Chip.setLane_mix (l : Nat) (s : LaneSt) : (Chip.setLane l s c).mix = c.mix := (rfl)
@[simp] theorem Chip.setLane_upsets (l : Nat) (s : LaneSt) : (Chip.setLane l s c).upsets = c.upsets := (rfl)
@[simp] theorem Chip.setLane_balers (l : Nat) (s : LaneSt) : (Chip.setLane l s c).balers = c.balers := (rfl)
@[simp] theorem Chip.setLane_serial (l : Nat) (s : LaneSt) : (Chip.setLane l s c).serial = c.serial := (rfl)
@[simp] theorem Chip.setLane_fns (l : Nat) (s : LaneSt) : (Chip.setLane l s c).fns = c.fns := (rfl)
@[simp] theorem Chip.setLane_tonesets (l : Nat) (s : LaneSt) : (Chip.setLane l s c).tonesets = c.tonesets := (rfl)
@[simp] theorem Chip.setLane_customs (l : Nat) (s : LaneSt) : (Chip.setLane l s c).customs = c.customs := (rfl)
@[simp] theorem Chip.setLane_heads (l : Nat) (s : LaneSt) : (Chip.setLane l s c).heads = c.heads := (rfl)
@[simp] theorem Chip.setLane_flume (l : Nat) (s : LaneSt) : (Chip.setLane l s c).flume = c.flume := (rfl)
@[simp] theorem Chip.setLane_audio (l : Nat) (s : LaneSt) : (Chip.setLane l s c).audio = c.audio := (rfl)
@[simp] theorem Chip.setLane_mc (l : Nat) (s : LaneSt) : (Chip.setLane l s c).mc = c.mc := (rfl)
@[simp] theorem Chip.setLane_boot (l : Nat) (s : LaneSt) : (Chip.setLane l s c).boot = c.boot := (rfl)
@[simp] theorem Chip.setLane_jtag (l : Nat) (s : LaneSt) : (Chip.setLane l s c).jtag = c.jtag := (rfl)

/-! ### Chip.clearLane -/
@[simp] theorem Chip.clearLane_count (l : Nat) : (Chip.clearLane l c).count = c.count := (rfl)
@[simp] theorem Chip.clearLane_draws (l : Nat) : (Chip.clearLane l c).draws = c.draws := (rfl)
@[simp] theorem Chip.clearLane_regs (l : Nat) : (Chip.clearLane l c).regs = c.regs := (rfl)
@[simp] theorem Chip.clearLane_preqs (l : Nat) : (Chip.clearLane l c).preqs = c.preqs := (rfl)
@[simp] theorem Chip.clearLane_out (l : Nat) : (Chip.clearLane l c).out = c.out := (rfl)
@[simp] theorem Chip.clearLane_dev (l : Nat) : (Chip.clearLane l c).dev = c.dev := (rfl)
@[simp] theorem Chip.clearLane_time (l : Nat) : (Chip.clearLane l c).time = c.time := (rfl)
@[simp] theorem Chip.clearLane_chutes (l : Nat) : (Chip.clearLane l c).chutes = c.chutes := (rfl)
@[simp] theorem Chip.clearLane_arriving (l : Nat) : (Chip.clearLane l c).arriving = c.arriving := (rfl)
@[simp] theorem Chip.clearLane_pool (l : Nat) : (Chip.clearLane l c).pool = c.pool := (rfl)
@[simp] theorem Chip.clearLane_cores (l : Nat) : (Chip.clearLane l c).cores = c.cores := (rfl)
@[simp] theorem Chip.clearLane_slots (l : Nat) : (Chip.clearLane l c).slots = c.slots := (rfl)
@[simp] theorem Chip.clearLane_bufs (l : Nat) : (Chip.clearLane l c).bufs = c.bufs := (rfl)
@[simp] theorem Chip.clearLane_sqs (l : Nat) : (Chip.clearLane l c).sqs = c.sqs := (rfl)
@[simp] theorem Chip.clearLane_sqTurn (l : Nat) : (Chip.clearLane l c).sqTurn = c.sqTurn := (rfl)
@[simp] theorem Chip.clearLane_chans (l : Nat) : (Chip.clearLane l c).chans = c.chans := (rfl)
@[simp] theorem Chip.clearLane_jbs (l : Nat) : (Chip.clearLane l c).jbs = c.jbs := (rfl)
@[simp] theorem Chip.clearLane_host (l : Nat) : (Chip.clearLane l c).host = c.host := (rfl)
@[simp] theorem Chip.clearLane_fault (l : Nat) : (Chip.clearLane l c).fault = c.fault := (rfl)
@[simp] theorem Chip.clearLane_ranger (l : Nat) : (Chip.clearLane l c).ranger = c.ranger := (rfl)
@[simp] theorem Chip.clearLane_dram (l : Nat) : (Chip.clearLane l c).dram = c.dram := (rfl)
@[simp] theorem Chip.clearLane_zeroed (l : Nat) : (Chip.clearLane l c).zeroed = c.zeroed := (rfl)
@[simp] theorem Chip.clearLane_buses (l : Nat) : (Chip.clearLane l c).buses = c.buses := (rfl)
@[simp] theorem Chip.clearLane_mix (l : Nat) : (Chip.clearLane l c).mix = c.mix := (rfl)
@[simp] theorem Chip.clearLane_upsets (l : Nat) : (Chip.clearLane l c).upsets = c.upsets := (rfl)
@[simp] theorem Chip.clearLane_balers (l : Nat) : (Chip.clearLane l c).balers = c.balers := (rfl)
@[simp] theorem Chip.clearLane_serial (l : Nat) : (Chip.clearLane l c).serial = c.serial := (rfl)
@[simp] theorem Chip.clearLane_fns (l : Nat) : (Chip.clearLane l c).fns = c.fns := (rfl)
@[simp] theorem Chip.clearLane_tonesets (l : Nat) : (Chip.clearLane l c).tonesets = c.tonesets := (rfl)
@[simp] theorem Chip.clearLane_customs (l : Nat) : (Chip.clearLane l c).customs = c.customs := (rfl)
@[simp] theorem Chip.clearLane_heads (l : Nat) : (Chip.clearLane l c).heads = c.heads := (rfl)
@[simp] theorem Chip.clearLane_flume (l : Nat) : (Chip.clearLane l c).flume = c.flume := (rfl)
@[simp] theorem Chip.clearLane_audio (l : Nat) : (Chip.clearLane l c).audio = c.audio := (rfl)
@[simp] theorem Chip.clearLane_mc (l : Nat) : (Chip.clearLane l c).mc = c.mc := (rfl)
@[simp] theorem Chip.clearLane_boot (l : Nat) : (Chip.clearLane l c).boot = c.boot := (rfl)
@[simp] theorem Chip.clearLane_jtag (l : Nat) : (Chip.clearLane l c).jtag = c.jtag := (rfl)

/-! ### Chip.freshWords -/
@[simp] theorem Chip.freshWords_count (k : Nat) (l : List Nat) : (Chip.freshWords k l c).count = c.count := (rfl)
@[simp] theorem Chip.freshWords_draws (k : Nat) (l : List Nat) : (Chip.freshWords k l c).draws = c.draws := (rfl)
@[simp] theorem Chip.freshWords_regs (k : Nat) (l : List Nat) : (Chip.freshWords k l c).regs = c.regs := (rfl)
@[simp] theorem Chip.freshWords_preqs (k : Nat) (l : List Nat) : (Chip.freshWords k l c).preqs = c.preqs := (rfl)
@[simp] theorem Chip.freshWords_out (k : Nat) (l : List Nat) : (Chip.freshWords k l c).out = c.out := (rfl)
@[simp] theorem Chip.freshWords_dev (k : Nat) (l : List Nat) : (Chip.freshWords k l c).dev = c.dev := (rfl)
@[simp] theorem Chip.freshWords_time (k : Nat) (l : List Nat) : (Chip.freshWords k l c).time = c.time := (rfl)
@[simp] theorem Chip.freshWords_chutes (k : Nat) (l : List Nat) : (Chip.freshWords k l c).chutes = c.chutes := (rfl)
@[simp] theorem Chip.freshWords_arriving (k : Nat) (l : List Nat) : (Chip.freshWords k l c).arriving = c.arriving := (rfl)
@[simp] theorem Chip.freshWords_pool (k : Nat) (l : List Nat) : (Chip.freshWords k l c).pool = c.pool := (rfl)
@[simp] theorem Chip.freshWords_cores (k : Nat) (l : List Nat) : (Chip.freshWords k l c).cores = c.cores := (rfl)
@[simp] theorem Chip.freshWords_slots (k : Nat) (l : List Nat) : (Chip.freshWords k l c).slots = c.slots := (rfl)
@[simp] theorem Chip.freshWords_bufs (k : Nat) (l : List Nat) : (Chip.freshWords k l c).bufs = c.bufs := (rfl)
@[simp] theorem Chip.freshWords_sqs (k : Nat) (l : List Nat) : (Chip.freshWords k l c).sqs = c.sqs := (rfl)
@[simp] theorem Chip.freshWords_sqTurn (k : Nat) (l : List Nat) : (Chip.freshWords k l c).sqTurn = c.sqTurn := (rfl)
@[simp] theorem Chip.freshWords_chans (k : Nat) (l : List Nat) : (Chip.freshWords k l c).chans = c.chans := (rfl)
@[simp] theorem Chip.freshWords_jbs (k : Nat) (l : List Nat) : (Chip.freshWords k l c).jbs = c.jbs := (rfl)
@[simp] theorem Chip.freshWords_host (k : Nat) (l : List Nat) : (Chip.freshWords k l c).host = c.host := (rfl)
@[simp] theorem Chip.freshWords_fault (k : Nat) (l : List Nat) : (Chip.freshWords k l c).fault = c.fault := (rfl)
@[simp] theorem Chip.freshWords_ranger (k : Nat) (l : List Nat) : (Chip.freshWords k l c).ranger = c.ranger := (rfl)
@[simp] theorem Chip.freshWords_dram (k : Nat) (l : List Nat) : (Chip.freshWords k l c).dram = c.dram := (rfl)
@[simp] theorem Chip.freshWords_zeroed (k : Nat) (l : List Nat) : (Chip.freshWords k l c).zeroed = c.zeroed := (rfl)
@[simp] theorem Chip.freshWords_buses (k : Nat) (l : List Nat) : (Chip.freshWords k l c).buses = c.buses := (rfl)
@[simp] theorem Chip.freshWords_mix (k : Nat) (l : List Nat) : (Chip.freshWords k l c).mix = c.mix := (rfl)
@[simp] theorem Chip.freshWords_kerf (k : Nat) (l : List Nat) : (Chip.freshWords k l c).kerf = c.kerf := (rfl)
@[simp] theorem Chip.freshWords_balers (k : Nat) (l : List Nat) : (Chip.freshWords k l c).balers = c.balers := (rfl)
@[simp] theorem Chip.freshWords_serial (k : Nat) (l : List Nat) : (Chip.freshWords k l c).serial = c.serial := (rfl)
@[simp] theorem Chip.freshWords_fns (k : Nat) (l : List Nat) : (Chip.freshWords k l c).fns = c.fns := (rfl)
@[simp] theorem Chip.freshWords_tonesets (k : Nat) (l : List Nat) : (Chip.freshWords k l c).tonesets = c.tonesets := (rfl)
@[simp] theorem Chip.freshWords_customs (k : Nat) (l : List Nat) : (Chip.freshWords k l c).customs = c.customs := (rfl)
@[simp] theorem Chip.freshWords_heads (k : Nat) (l : List Nat) : (Chip.freshWords k l c).heads = c.heads := (rfl)
@[simp] theorem Chip.freshWords_flume (k : Nat) (l : List Nat) : (Chip.freshWords k l c).flume = c.flume := (rfl)
@[simp] theorem Chip.freshWords_audio (k : Nat) (l : List Nat) : (Chip.freshWords k l c).audio = c.audio := (rfl)
@[simp] theorem Chip.freshWords_mc (k : Nat) (l : List Nat) : (Chip.freshWords k l c).mc = c.mc := (rfl)
@[simp] theorem Chip.freshWords_boot (k : Nat) (l : List Nat) : (Chip.freshWords k l c).boot = c.boot := (rfl)
@[simp] theorem Chip.freshWords_jtag (k : Nat) (l : List Nat) : (Chip.freshWords k l c).jtag = c.jtag := (rfl)

/-! ### Chip.putLocal -/
@[simp] theorem Chip.putLocal_count (k a : Nat) (ws : List Word) : (Chip.putLocal k a ws c).count = c.count := (rfl)
@[simp] theorem Chip.putLocal_draws (k a : Nat) (ws : List Word) : (Chip.putLocal k a ws c).draws = c.draws := (rfl)
@[simp] theorem Chip.putLocal_regs (k a : Nat) (ws : List Word) : (Chip.putLocal k a ws c).regs = c.regs := (rfl)
@[simp] theorem Chip.putLocal_preqs (k a : Nat) (ws : List Word) : (Chip.putLocal k a ws c).preqs = c.preqs := (rfl)
@[simp] theorem Chip.putLocal_out (k a : Nat) (ws : List Word) : (Chip.putLocal k a ws c).out = c.out := (rfl)
@[simp] theorem Chip.putLocal_dev (k a : Nat) (ws : List Word) : (Chip.putLocal k a ws c).dev = c.dev := (rfl)
@[simp] theorem Chip.putLocal_time (k a : Nat) (ws : List Word) : (Chip.putLocal k a ws c).time = c.time := (rfl)
@[simp] theorem Chip.putLocal_chutes (k a : Nat) (ws : List Word) : (Chip.putLocal k a ws c).chutes = c.chutes := (rfl)
@[simp] theorem Chip.putLocal_arriving (k a : Nat) (ws : List Word) : (Chip.putLocal k a ws c).arriving = c.arriving := (rfl)
@[simp] theorem Chip.putLocal_pool (k a : Nat) (ws : List Word) : (Chip.putLocal k a ws c).pool = c.pool := (rfl)
@[simp] theorem Chip.putLocal_slots (k a : Nat) (ws : List Word) : (Chip.putLocal k a ws c).slots = c.slots := (rfl)
@[simp] theorem Chip.putLocal_bufs (k a : Nat) (ws : List Word) : (Chip.putLocal k a ws c).bufs = c.bufs := (rfl)
@[simp] theorem Chip.putLocal_sqs (k a : Nat) (ws : List Word) : (Chip.putLocal k a ws c).sqs = c.sqs := (rfl)
@[simp] theorem Chip.putLocal_sqTurn (k a : Nat) (ws : List Word) : (Chip.putLocal k a ws c).sqTurn = c.sqTurn := (rfl)
@[simp] theorem Chip.putLocal_chans (k a : Nat) (ws : List Word) : (Chip.putLocal k a ws c).chans = c.chans := (rfl)
@[simp] theorem Chip.putLocal_jbs (k a : Nat) (ws : List Word) : (Chip.putLocal k a ws c).jbs = c.jbs := (rfl)
@[simp] theorem Chip.putLocal_host (k a : Nat) (ws : List Word) : (Chip.putLocal k a ws c).host = c.host := (rfl)
@[simp] theorem Chip.putLocal_fault (k a : Nat) (ws : List Word) : (Chip.putLocal k a ws c).fault = c.fault := (rfl)
@[simp] theorem Chip.putLocal_ranger (k a : Nat) (ws : List Word) : (Chip.putLocal k a ws c).ranger = c.ranger := (rfl)
@[simp] theorem Chip.putLocal_dram (k a : Nat) (ws : List Word) : (Chip.putLocal k a ws c).dram = c.dram := (rfl)
@[simp] theorem Chip.putLocal_zeroed (k a : Nat) (ws : List Word) : (Chip.putLocal k a ws c).zeroed = c.zeroed := (rfl)
@[simp] theorem Chip.putLocal_buses (k a : Nat) (ws : List Word) : (Chip.putLocal k a ws c).buses = c.buses := (rfl)
@[simp] theorem Chip.putLocal_mix (k a : Nat) (ws : List Word) : (Chip.putLocal k a ws c).mix = c.mix := (rfl)
@[simp] theorem Chip.putLocal_kerf (k a : Nat) (ws : List Word) : (Chip.putLocal k a ws c).kerf = c.kerf := (rfl)
@[simp] theorem Chip.putLocal_balers (k a : Nat) (ws : List Word) : (Chip.putLocal k a ws c).balers = c.balers := (rfl)
@[simp] theorem Chip.putLocal_serial (k a : Nat) (ws : List Word) : (Chip.putLocal k a ws c).serial = c.serial := (rfl)
@[simp] theorem Chip.putLocal_fns (k a : Nat) (ws : List Word) : (Chip.putLocal k a ws c).fns = c.fns := (rfl)
@[simp] theorem Chip.putLocal_tonesets (k a : Nat) (ws : List Word) : (Chip.putLocal k a ws c).tonesets = c.tonesets := (rfl)
@[simp] theorem Chip.putLocal_customs (k a : Nat) (ws : List Word) : (Chip.putLocal k a ws c).customs = c.customs := (rfl)
@[simp] theorem Chip.putLocal_heads (k a : Nat) (ws : List Word) : (Chip.putLocal k a ws c).heads = c.heads := (rfl)
@[simp] theorem Chip.putLocal_flume (k a : Nat) (ws : List Word) : (Chip.putLocal k a ws c).flume = c.flume := (rfl)
@[simp] theorem Chip.putLocal_audio (k a : Nat) (ws : List Word) : (Chip.putLocal k a ws c).audio = c.audio := (rfl)
@[simp] theorem Chip.putLocal_mc (k a : Nat) (ws : List Word) : (Chip.putLocal k a ws c).mc = c.mc := (rfl)
@[simp] theorem Chip.putLocal_boot (k a : Nat) (ws : List Word) : (Chip.putLocal k a ws c).boot = c.boot := (rfl)
@[simp] theorem Chip.putLocal_jtag (k a : Nat) (ws : List Word) : (Chip.putLocal k a ws c).jtag = c.jtag := (rfl)

/-! ### Chip.draw -/
@[simp] theorem Chip.draw_count : (Chip.draw c).2.count = c.count := (rfl)
@[simp] theorem Chip.draw_draws : (Chip.draw c).2.draws = c.draws + 1 := (rfl)
@[simp] theorem Chip.draw_regs : (Chip.draw c).2.regs = c.regs := (rfl)
@[simp] theorem Chip.draw_preqs : (Chip.draw c).2.preqs = c.preqs := (rfl)
@[simp] theorem Chip.draw_out : (Chip.draw c).2.out = c.out := (rfl)
@[simp] theorem Chip.draw_dev : (Chip.draw c).2.dev = c.dev := (rfl)
@[simp] theorem Chip.draw_time : (Chip.draw c).2.time = c.time := (rfl)
@[simp] theorem Chip.draw_chutes : (Chip.draw c).2.chutes = c.chutes := (rfl)
@[simp] theorem Chip.draw_arriving : (Chip.draw c).2.arriving = c.arriving := (rfl)
@[simp] theorem Chip.draw_pool : (Chip.draw c).2.pool = c.pool := (rfl)
@[simp] theorem Chip.draw_cores : (Chip.draw c).2.cores = c.cores := (rfl)
@[simp] theorem Chip.draw_slots : (Chip.draw c).2.slots = c.slots := (rfl)
@[simp] theorem Chip.draw_bufs : (Chip.draw c).2.bufs = c.bufs := (rfl)
@[simp] theorem Chip.draw_sqs : (Chip.draw c).2.sqs = c.sqs := (rfl)
@[simp] theorem Chip.draw_sqTurn : (Chip.draw c).2.sqTurn = c.sqTurn := (rfl)
@[simp] theorem Chip.draw_chans : (Chip.draw c).2.chans = c.chans := (rfl)
@[simp] theorem Chip.draw_jbs : (Chip.draw c).2.jbs = c.jbs := (rfl)
@[simp] theorem Chip.draw_host : (Chip.draw c).2.host = c.host := (rfl)
@[simp] theorem Chip.draw_fault : (Chip.draw c).2.fault = c.fault := (rfl)
@[simp] theorem Chip.draw_ranger : (Chip.draw c).2.ranger = c.ranger := (rfl)
@[simp] theorem Chip.draw_dram : (Chip.draw c).2.dram = c.dram := (rfl)
@[simp] theorem Chip.draw_zeroed : (Chip.draw c).2.zeroed = c.zeroed := (rfl)
@[simp] theorem Chip.draw_buses : (Chip.draw c).2.buses = c.buses := (rfl)
@[simp] theorem Chip.draw_mix : (Chip.draw c).2.mix = c.mix := (rfl)
@[simp] theorem Chip.draw_kerf : (Chip.draw c).2.kerf = c.kerf := (rfl)
@[simp] theorem Chip.draw_upsets : (Chip.draw c).2.upsets = c.upsets := (rfl)
@[simp] theorem Chip.draw_balers : (Chip.draw c).2.balers = c.balers := (rfl)
@[simp] theorem Chip.draw_serial : (Chip.draw c).2.serial = c.serial := (rfl)
@[simp] theorem Chip.draw_fns : (Chip.draw c).2.fns = c.fns := (rfl)
@[simp] theorem Chip.draw_tonesets : (Chip.draw c).2.tonesets = c.tonesets := (rfl)
@[simp] theorem Chip.draw_customs : (Chip.draw c).2.customs = c.customs := (rfl)
@[simp] theorem Chip.draw_heads : (Chip.draw c).2.heads = c.heads := (rfl)
@[simp] theorem Chip.draw_flume : (Chip.draw c).2.flume = c.flume := (rfl)
@[simp] theorem Chip.draw_audio : (Chip.draw c).2.audio = c.audio := (rfl)
@[simp] theorem Chip.draw_mc : (Chip.draw c).2.mc = c.mc := (rfl)
@[simp] theorem Chip.draw_boot : (Chip.draw c).2.boot = c.boot := (rfl)
@[simp] theorem Chip.draw_jtag : (Chip.draw c).2.jtag = c.jtag := (rfl)
/-! ### Chip.drawBit -/
@[simp] theorem Chip.drawBit_count : (Chip.drawBit c).2.count = c.count := (rfl)
@[simp] theorem Chip.drawBit_draws : (Chip.drawBit c).2.draws = c.draws + 1 := (rfl)
@[simp] theorem Chip.drawBit_regs : (Chip.drawBit c).2.regs = c.regs := (rfl)
@[simp] theorem Chip.drawBit_preqs : (Chip.drawBit c).2.preqs = c.preqs := (rfl)
@[simp] theorem Chip.drawBit_out : (Chip.drawBit c).2.out = c.out := (rfl)
@[simp] theorem Chip.drawBit_dev : (Chip.drawBit c).2.dev = c.dev := (rfl)
@[simp] theorem Chip.drawBit_time : (Chip.drawBit c).2.time = c.time := (rfl)
@[simp] theorem Chip.drawBit_chutes : (Chip.drawBit c).2.chutes = c.chutes := (rfl)
@[simp] theorem Chip.drawBit_arriving : (Chip.drawBit c).2.arriving = c.arriving := (rfl)
@[simp] theorem Chip.drawBit_pool : (Chip.drawBit c).2.pool = c.pool := (rfl)
@[simp] theorem Chip.drawBit_cores : (Chip.drawBit c).2.cores = c.cores := (rfl)
@[simp] theorem Chip.drawBit_slots : (Chip.drawBit c).2.slots = c.slots := (rfl)
@[simp] theorem Chip.drawBit_bufs : (Chip.drawBit c).2.bufs = c.bufs := (rfl)
@[simp] theorem Chip.drawBit_sqs : (Chip.drawBit c).2.sqs = c.sqs := (rfl)
@[simp] theorem Chip.drawBit_sqTurn : (Chip.drawBit c).2.sqTurn = c.sqTurn := (rfl)
@[simp] theorem Chip.drawBit_chans : (Chip.drawBit c).2.chans = c.chans := (rfl)
@[simp] theorem Chip.drawBit_jbs : (Chip.drawBit c).2.jbs = c.jbs := (rfl)
@[simp] theorem Chip.drawBit_host : (Chip.drawBit c).2.host = c.host := (rfl)
@[simp] theorem Chip.drawBit_fault : (Chip.drawBit c).2.fault = c.fault := (rfl)
@[simp] theorem Chip.drawBit_ranger : (Chip.drawBit c).2.ranger = c.ranger := (rfl)
@[simp] theorem Chip.drawBit_dram : (Chip.drawBit c).2.dram = c.dram := (rfl)
@[simp] theorem Chip.drawBit_zeroed : (Chip.drawBit c).2.zeroed = c.zeroed := (rfl)
@[simp] theorem Chip.drawBit_buses : (Chip.drawBit c).2.buses = c.buses := (rfl)
@[simp] theorem Chip.drawBit_mix : (Chip.drawBit c).2.mix = c.mix := (rfl)
@[simp] theorem Chip.drawBit_kerf : (Chip.drawBit c).2.kerf = c.kerf := (rfl)
@[simp] theorem Chip.drawBit_upsets : (Chip.drawBit c).2.upsets = c.upsets := (rfl)
@[simp] theorem Chip.drawBit_balers : (Chip.drawBit c).2.balers = c.balers := (rfl)
@[simp] theorem Chip.drawBit_serial : (Chip.drawBit c).2.serial = c.serial := (rfl)
@[simp] theorem Chip.drawBit_fns : (Chip.drawBit c).2.fns = c.fns := (rfl)
@[simp] theorem Chip.drawBit_tonesets : (Chip.drawBit c).2.tonesets = c.tonesets := (rfl)
@[simp] theorem Chip.drawBit_customs : (Chip.drawBit c).2.customs = c.customs := (rfl)
@[simp] theorem Chip.drawBit_heads : (Chip.drawBit c).2.heads = c.heads := (rfl)
@[simp] theorem Chip.drawBit_flume : (Chip.drawBit c).2.flume = c.flume := (rfl)
@[simp] theorem Chip.drawBit_audio : (Chip.drawBit c).2.audio = c.audio := (rfl)
@[simp] theorem Chip.drawBit_mc : (Chip.drawBit c).2.mc = c.mc := (rfl)
@[simp] theorem Chip.drawBit_boot : (Chip.drawBit c).2.boot = c.boot := (rfl)
@[simp] theorem Chip.drawBit_jtag : (Chip.drawBit c).2.jtag = c.jtag := (rfl)
/-! ### Chip.drawNat -/
@[simp] theorem Chip.drawNat_count : (Chip.drawNat c).2.count = c.count := (rfl)
@[simp] theorem Chip.drawNat_draws : (Chip.drawNat c).2.draws = c.draws + 1 := (rfl)
@[simp] theorem Chip.drawNat_regs : (Chip.drawNat c).2.regs = c.regs := (rfl)
@[simp] theorem Chip.drawNat_preqs : (Chip.drawNat c).2.preqs = c.preqs := (rfl)
@[simp] theorem Chip.drawNat_out : (Chip.drawNat c).2.out = c.out := (rfl)
@[simp] theorem Chip.drawNat_dev : (Chip.drawNat c).2.dev = c.dev := (rfl)
@[simp] theorem Chip.drawNat_time : (Chip.drawNat c).2.time = c.time := (rfl)
@[simp] theorem Chip.drawNat_chutes : (Chip.drawNat c).2.chutes = c.chutes := (rfl)
@[simp] theorem Chip.drawNat_arriving : (Chip.drawNat c).2.arriving = c.arriving := (rfl)
@[simp] theorem Chip.drawNat_pool : (Chip.drawNat c).2.pool = c.pool := (rfl)
@[simp] theorem Chip.drawNat_cores : (Chip.drawNat c).2.cores = c.cores := (rfl)
@[simp] theorem Chip.drawNat_slots : (Chip.drawNat c).2.slots = c.slots := (rfl)
@[simp] theorem Chip.drawNat_bufs : (Chip.drawNat c).2.bufs = c.bufs := (rfl)
@[simp] theorem Chip.drawNat_sqs : (Chip.drawNat c).2.sqs = c.sqs := (rfl)
@[simp] theorem Chip.drawNat_sqTurn : (Chip.drawNat c).2.sqTurn = c.sqTurn := (rfl)
@[simp] theorem Chip.drawNat_chans : (Chip.drawNat c).2.chans = c.chans := (rfl)
@[simp] theorem Chip.drawNat_jbs : (Chip.drawNat c).2.jbs = c.jbs := (rfl)
@[simp] theorem Chip.drawNat_host : (Chip.drawNat c).2.host = c.host := (rfl)
@[simp] theorem Chip.drawNat_fault : (Chip.drawNat c).2.fault = c.fault := (rfl)
@[simp] theorem Chip.drawNat_ranger : (Chip.drawNat c).2.ranger = c.ranger := (rfl)
@[simp] theorem Chip.drawNat_dram : (Chip.drawNat c).2.dram = c.dram := (rfl)
@[simp] theorem Chip.drawNat_zeroed : (Chip.drawNat c).2.zeroed = c.zeroed := (rfl)
@[simp] theorem Chip.drawNat_buses : (Chip.drawNat c).2.buses = c.buses := (rfl)
@[simp] theorem Chip.drawNat_mix : (Chip.drawNat c).2.mix = c.mix := (rfl)
@[simp] theorem Chip.drawNat_kerf : (Chip.drawNat c).2.kerf = c.kerf := (rfl)
@[simp] theorem Chip.drawNat_upsets : (Chip.drawNat c).2.upsets = c.upsets := (rfl)
@[simp] theorem Chip.drawNat_balers : (Chip.drawNat c).2.balers = c.balers := (rfl)
@[simp] theorem Chip.drawNat_serial : (Chip.drawNat c).2.serial = c.serial := (rfl)
@[simp] theorem Chip.drawNat_fns : (Chip.drawNat c).2.fns = c.fns := (rfl)
@[simp] theorem Chip.drawNat_tonesets : (Chip.drawNat c).2.tonesets = c.tonesets := (rfl)
@[simp] theorem Chip.drawNat_customs : (Chip.drawNat c).2.customs = c.customs := (rfl)
@[simp] theorem Chip.drawNat_heads : (Chip.drawNat c).2.heads = c.heads := (rfl)
@[simp] theorem Chip.drawNat_flume : (Chip.drawNat c).2.flume = c.flume := (rfl)
@[simp] theorem Chip.drawNat_audio : (Chip.drawNat c).2.audio = c.audio := (rfl)
@[simp] theorem Chip.drawNat_mc : (Chip.drawNat c).2.mc = c.mc := (rfl)
@[simp] theorem Chip.drawNat_boot : (Chip.drawNat c).2.boot = c.boot := (rfl)
@[simp] theorem Chip.drawNat_jtag : (Chip.drawNat c).2.jtag = c.jtag := (rfl)
/-! ### Chip.drawInt -/
@[simp] theorem Chip.drawInt_count : (Chip.drawInt c).2.count = c.count := (rfl)
@[simp] theorem Chip.drawInt_draws : (Chip.drawInt c).2.draws = c.draws + 1 := (rfl)
@[simp] theorem Chip.drawInt_regs : (Chip.drawInt c).2.regs = c.regs := (rfl)
@[simp] theorem Chip.drawInt_preqs : (Chip.drawInt c).2.preqs = c.preqs := (rfl)
@[simp] theorem Chip.drawInt_out : (Chip.drawInt c).2.out = c.out := (rfl)
@[simp] theorem Chip.drawInt_dev : (Chip.drawInt c).2.dev = c.dev := (rfl)
@[simp] theorem Chip.drawInt_time : (Chip.drawInt c).2.time = c.time := (rfl)
@[simp] theorem Chip.drawInt_chutes : (Chip.drawInt c).2.chutes = c.chutes := (rfl)
@[simp] theorem Chip.drawInt_arriving : (Chip.drawInt c).2.arriving = c.arriving := (rfl)
@[simp] theorem Chip.drawInt_pool : (Chip.drawInt c).2.pool = c.pool := (rfl)
@[simp] theorem Chip.drawInt_cores : (Chip.drawInt c).2.cores = c.cores := (rfl)
@[simp] theorem Chip.drawInt_slots : (Chip.drawInt c).2.slots = c.slots := (rfl)
@[simp] theorem Chip.drawInt_bufs : (Chip.drawInt c).2.bufs = c.bufs := (rfl)
@[simp] theorem Chip.drawInt_sqs : (Chip.drawInt c).2.sqs = c.sqs := (rfl)
@[simp] theorem Chip.drawInt_sqTurn : (Chip.drawInt c).2.sqTurn = c.sqTurn := (rfl)
@[simp] theorem Chip.drawInt_chans : (Chip.drawInt c).2.chans = c.chans := (rfl)
@[simp] theorem Chip.drawInt_jbs : (Chip.drawInt c).2.jbs = c.jbs := (rfl)
@[simp] theorem Chip.drawInt_host : (Chip.drawInt c).2.host = c.host := (rfl)
@[simp] theorem Chip.drawInt_fault : (Chip.drawInt c).2.fault = c.fault := (rfl)
@[simp] theorem Chip.drawInt_ranger : (Chip.drawInt c).2.ranger = c.ranger := (rfl)
@[simp] theorem Chip.drawInt_dram : (Chip.drawInt c).2.dram = c.dram := (rfl)
@[simp] theorem Chip.drawInt_zeroed : (Chip.drawInt c).2.zeroed = c.zeroed := (rfl)
@[simp] theorem Chip.drawInt_buses : (Chip.drawInt c).2.buses = c.buses := (rfl)
@[simp] theorem Chip.drawInt_mix : (Chip.drawInt c).2.mix = c.mix := (rfl)
@[simp] theorem Chip.drawInt_kerf : (Chip.drawInt c).2.kerf = c.kerf := (rfl)
@[simp] theorem Chip.drawInt_upsets : (Chip.drawInt c).2.upsets = c.upsets := (rfl)
@[simp] theorem Chip.drawInt_balers : (Chip.drawInt c).2.balers = c.balers := (rfl)
@[simp] theorem Chip.drawInt_serial : (Chip.drawInt c).2.serial = c.serial := (rfl)
@[simp] theorem Chip.drawInt_fns : (Chip.drawInt c).2.fns = c.fns := (rfl)
@[simp] theorem Chip.drawInt_tonesets : (Chip.drawInt c).2.tonesets = c.tonesets := (rfl)
@[simp] theorem Chip.drawInt_customs : (Chip.drawInt c).2.customs = c.customs := (rfl)
@[simp] theorem Chip.drawInt_heads : (Chip.drawInt c).2.heads = c.heads := (rfl)
@[simp] theorem Chip.drawInt_flume : (Chip.drawInt c).2.flume = c.flume := (rfl)
@[simp] theorem Chip.drawInt_audio : (Chip.drawInt c).2.audio = c.audio := (rfl)
@[simp] theorem Chip.drawInt_mc : (Chip.drawInt c).2.mc = c.mc := (rfl)
@[simp] theorem Chip.drawInt_boot : (Chip.drawInt c).2.boot = c.boot := (rfl)
@[simp] theorem Chip.drawInt_jtag : (Chip.drawInt c).2.jtag = c.jtag := (rfl)
/-! ### Chip.drawSamples -/
@[simp] theorem Chip.drawSamples_count (n : Nat) : (Chip.drawSamples n c).2.count = c.count := (rfl)
@[simp] theorem Chip.drawSamples_draws (n : Nat) : (Chip.drawSamples n c).2.draws = c.draws + 1 := (rfl)
@[simp] theorem Chip.drawSamples_regs (n : Nat) : (Chip.drawSamples n c).2.regs = c.regs := (rfl)
@[simp] theorem Chip.drawSamples_preqs (n : Nat) : (Chip.drawSamples n c).2.preqs = c.preqs := (rfl)
@[simp] theorem Chip.drawSamples_out (n : Nat) : (Chip.drawSamples n c).2.out = c.out := (rfl)
@[simp] theorem Chip.drawSamples_dev (n : Nat) : (Chip.drawSamples n c).2.dev = c.dev := (rfl)
@[simp] theorem Chip.drawSamples_time (n : Nat) : (Chip.drawSamples n c).2.time = c.time := (rfl)
@[simp] theorem Chip.drawSamples_chutes (n : Nat) : (Chip.drawSamples n c).2.chutes = c.chutes := (rfl)
@[simp] theorem Chip.drawSamples_arriving (n : Nat) : (Chip.drawSamples n c).2.arriving = c.arriving := (rfl)
@[simp] theorem Chip.drawSamples_pool (n : Nat) : (Chip.drawSamples n c).2.pool = c.pool := (rfl)
@[simp] theorem Chip.drawSamples_cores (n : Nat) : (Chip.drawSamples n c).2.cores = c.cores := (rfl)
@[simp] theorem Chip.drawSamples_slots (n : Nat) : (Chip.drawSamples n c).2.slots = c.slots := (rfl)
@[simp] theorem Chip.drawSamples_bufs (n : Nat) : (Chip.drawSamples n c).2.bufs = c.bufs := (rfl)
@[simp] theorem Chip.drawSamples_sqs (n : Nat) : (Chip.drawSamples n c).2.sqs = c.sqs := (rfl)
@[simp] theorem Chip.drawSamples_sqTurn (n : Nat) : (Chip.drawSamples n c).2.sqTurn = c.sqTurn := (rfl)
@[simp] theorem Chip.drawSamples_chans (n : Nat) : (Chip.drawSamples n c).2.chans = c.chans := (rfl)
@[simp] theorem Chip.drawSamples_jbs (n : Nat) : (Chip.drawSamples n c).2.jbs = c.jbs := (rfl)
@[simp] theorem Chip.drawSamples_host (n : Nat) : (Chip.drawSamples n c).2.host = c.host := (rfl)
@[simp] theorem Chip.drawSamples_fault (n : Nat) : (Chip.drawSamples n c).2.fault = c.fault := (rfl)
@[simp] theorem Chip.drawSamples_ranger (n : Nat) : (Chip.drawSamples n c).2.ranger = c.ranger := (rfl)
@[simp] theorem Chip.drawSamples_dram (n : Nat) : (Chip.drawSamples n c).2.dram = c.dram := (rfl)
@[simp] theorem Chip.drawSamples_zeroed (n : Nat) : (Chip.drawSamples n c).2.zeroed = c.zeroed := (rfl)
@[simp] theorem Chip.drawSamples_buses (n : Nat) : (Chip.drawSamples n c).2.buses = c.buses := (rfl)
@[simp] theorem Chip.drawSamples_mix (n : Nat) : (Chip.drawSamples n c).2.mix = c.mix := (rfl)
@[simp] theorem Chip.drawSamples_kerf (n : Nat) : (Chip.drawSamples n c).2.kerf = c.kerf := (rfl)
@[simp] theorem Chip.drawSamples_upsets (n : Nat) : (Chip.drawSamples n c).2.upsets = c.upsets := (rfl)
@[simp] theorem Chip.drawSamples_balers (n : Nat) : (Chip.drawSamples n c).2.balers = c.balers := (rfl)
@[simp] theorem Chip.drawSamples_serial (n : Nat) : (Chip.drawSamples n c).2.serial = c.serial := (rfl)
@[simp] theorem Chip.drawSamples_fns (n : Nat) : (Chip.drawSamples n c).2.fns = c.fns := (rfl)
@[simp] theorem Chip.drawSamples_tonesets (n : Nat) : (Chip.drawSamples n c).2.tonesets = c.tonesets := (rfl)
@[simp] theorem Chip.drawSamples_customs (n : Nat) : (Chip.drawSamples n c).2.customs = c.customs := (rfl)
@[simp] theorem Chip.drawSamples_heads (n : Nat) : (Chip.drawSamples n c).2.heads = c.heads := (rfl)
@[simp] theorem Chip.drawSamples_flume (n : Nat) : (Chip.drawSamples n c).2.flume = c.flume := (rfl)
@[simp] theorem Chip.drawSamples_audio (n : Nat) : (Chip.drawSamples n c).2.audio = c.audio := (rfl)
@[simp] theorem Chip.drawSamples_mc (n : Nat) : (Chip.drawSamples n c).2.mc = c.mc := (rfl)
@[simp] theorem Chip.drawSamples_boot (n : Nat) : (Chip.drawSamples n c).2.boot = c.boot := (rfl)
@[simp] theorem Chip.drawSamples_jtag (n : Nat) : (Chip.drawSamples n c).2.jtag = c.jtag := (rfl)
/-! ### Chip.drawOctets -/
@[simp] theorem Chip.drawOctets_count (n : Nat) : (Chip.drawOctets n c).2.count = c.count := (rfl)
@[simp] theorem Chip.drawOctets_draws (n : Nat) : (Chip.drawOctets n c).2.draws = c.draws + 1 := (rfl)
@[simp] theorem Chip.drawOctets_regs (n : Nat) : (Chip.drawOctets n c).2.regs = c.regs := (rfl)
@[simp] theorem Chip.drawOctets_preqs (n : Nat) : (Chip.drawOctets n c).2.preqs = c.preqs := (rfl)
@[simp] theorem Chip.drawOctets_out (n : Nat) : (Chip.drawOctets n c).2.out = c.out := (rfl)
@[simp] theorem Chip.drawOctets_dev (n : Nat) : (Chip.drawOctets n c).2.dev = c.dev := (rfl)
@[simp] theorem Chip.drawOctets_time (n : Nat) : (Chip.drawOctets n c).2.time = c.time := (rfl)
@[simp] theorem Chip.drawOctets_chutes (n : Nat) : (Chip.drawOctets n c).2.chutes = c.chutes := (rfl)
@[simp] theorem Chip.drawOctets_arriving (n : Nat) : (Chip.drawOctets n c).2.arriving = c.arriving := (rfl)
@[simp] theorem Chip.drawOctets_pool (n : Nat) : (Chip.drawOctets n c).2.pool = c.pool := (rfl)
@[simp] theorem Chip.drawOctets_cores (n : Nat) : (Chip.drawOctets n c).2.cores = c.cores := (rfl)
@[simp] theorem Chip.drawOctets_slots (n : Nat) : (Chip.drawOctets n c).2.slots = c.slots := (rfl)
@[simp] theorem Chip.drawOctets_bufs (n : Nat) : (Chip.drawOctets n c).2.bufs = c.bufs := (rfl)
@[simp] theorem Chip.drawOctets_sqs (n : Nat) : (Chip.drawOctets n c).2.sqs = c.sqs := (rfl)
@[simp] theorem Chip.drawOctets_sqTurn (n : Nat) : (Chip.drawOctets n c).2.sqTurn = c.sqTurn := (rfl)
@[simp] theorem Chip.drawOctets_chans (n : Nat) : (Chip.drawOctets n c).2.chans = c.chans := (rfl)
@[simp] theorem Chip.drawOctets_jbs (n : Nat) : (Chip.drawOctets n c).2.jbs = c.jbs := (rfl)
@[simp] theorem Chip.drawOctets_host (n : Nat) : (Chip.drawOctets n c).2.host = c.host := (rfl)
@[simp] theorem Chip.drawOctets_fault (n : Nat) : (Chip.drawOctets n c).2.fault = c.fault := (rfl)
@[simp] theorem Chip.drawOctets_ranger (n : Nat) : (Chip.drawOctets n c).2.ranger = c.ranger := (rfl)
@[simp] theorem Chip.drawOctets_dram (n : Nat) : (Chip.drawOctets n c).2.dram = c.dram := (rfl)
@[simp] theorem Chip.drawOctets_zeroed (n : Nat) : (Chip.drawOctets n c).2.zeroed = c.zeroed := (rfl)
@[simp] theorem Chip.drawOctets_buses (n : Nat) : (Chip.drawOctets n c).2.buses = c.buses := (rfl)
@[simp] theorem Chip.drawOctets_mix (n : Nat) : (Chip.drawOctets n c).2.mix = c.mix := (rfl)
@[simp] theorem Chip.drawOctets_kerf (n : Nat) : (Chip.drawOctets n c).2.kerf = c.kerf := (rfl)
@[simp] theorem Chip.drawOctets_upsets (n : Nat) : (Chip.drawOctets n c).2.upsets = c.upsets := (rfl)
@[simp] theorem Chip.drawOctets_balers (n : Nat) : (Chip.drawOctets n c).2.balers = c.balers := (rfl)
@[simp] theorem Chip.drawOctets_serial (n : Nat) : (Chip.drawOctets n c).2.serial = c.serial := (rfl)
@[simp] theorem Chip.drawOctets_fns (n : Nat) : (Chip.drawOctets n c).2.fns = c.fns := (rfl)
@[simp] theorem Chip.drawOctets_tonesets (n : Nat) : (Chip.drawOctets n c).2.tonesets = c.tonesets := (rfl)
@[simp] theorem Chip.drawOctets_customs (n : Nat) : (Chip.drawOctets n c).2.customs = c.customs := (rfl)
@[simp] theorem Chip.drawOctets_heads (n : Nat) : (Chip.drawOctets n c).2.heads = c.heads := (rfl)
@[simp] theorem Chip.drawOctets_flume (n : Nat) : (Chip.drawOctets n c).2.flume = c.flume := (rfl)
@[simp] theorem Chip.drawOctets_audio (n : Nat) : (Chip.drawOctets n c).2.audio = c.audio := (rfl)
@[simp] theorem Chip.drawOctets_mc (n : Nat) : (Chip.drawOctets n c).2.mc = c.mc := (rfl)
@[simp] theorem Chip.drawOctets_boot (n : Nat) : (Chip.drawOctets n c).2.boot = c.boot := (rfl)
@[simp] theorem Chip.drawOctets_jtag (n : Nat) : (Chip.drawOctets n c).2.jtag = c.jtag := (rfl)
/-! ### Chip.setChute -/
@[simp] theorem Chip.setChute_count (n : Nat) (k : ChuteSt) : (Chip.setChute n k c).count = c.count := by
  simp only [Chip.setChute, Chip.put_count]
@[simp] theorem Chip.setChute_draws (n : Nat) (k : ChuteSt) : (Chip.setChute n k c).draws = c.draws := by
  simp only [Chip.setChute, Chip.put_draws]
@[simp] theorem Chip.setChute_preqs (n : Nat) (k : ChuteSt) : (Chip.setChute n k c).preqs = c.preqs := by
  simp only [Chip.setChute, Chip.put_preqs]
@[simp] theorem Chip.setChute_out (n : Nat) (k : ChuteSt) : (Chip.setChute n k c).out = c.out := by
  simp only [Chip.setChute, Chip.put_out]
@[simp] theorem Chip.setChute_dev (n : Nat) (k : ChuteSt) : (Chip.setChute n k c).dev = c.dev := by
  simp only [Chip.setChute, Chip.put_dev]
@[simp] theorem Chip.setChute_time (n : Nat) (k : ChuteSt) : (Chip.setChute n k c).time = c.time := by
  simp only [Chip.setChute, Chip.put_time]
@[simp] theorem Chip.setChute_arriving (n : Nat) (k : ChuteSt) : (Chip.setChute n k c).arriving = c.arriving := by
  simp only [Chip.setChute, Chip.put_arriving]
@[simp] theorem Chip.setChute_pool (n : Nat) (k : ChuteSt) : (Chip.setChute n k c).pool = c.pool := by
  simp only [Chip.setChute, Chip.put_pool]
@[simp] theorem Chip.setChute_cores (n : Nat) (k : ChuteSt) : (Chip.setChute n k c).cores = c.cores := by
  simp only [Chip.setChute, Chip.put_cores]
@[simp] theorem Chip.setChute_slots (n : Nat) (k : ChuteSt) : (Chip.setChute n k c).slots = c.slots := by
  simp only [Chip.setChute, Chip.put_slots]
@[simp] theorem Chip.setChute_bufs (n : Nat) (k : ChuteSt) : (Chip.setChute n k c).bufs = c.bufs := by
  simp only [Chip.setChute, Chip.put_bufs]
@[simp] theorem Chip.setChute_sqs (n : Nat) (k : ChuteSt) : (Chip.setChute n k c).sqs = c.sqs := by
  simp only [Chip.setChute, Chip.put_sqs]
@[simp] theorem Chip.setChute_sqTurn (n : Nat) (k : ChuteSt) : (Chip.setChute n k c).sqTurn = c.sqTurn := by
  simp only [Chip.setChute, Chip.put_sqTurn]
@[simp] theorem Chip.setChute_chans (n : Nat) (k : ChuteSt) : (Chip.setChute n k c).chans = c.chans := by
  simp only [Chip.setChute, Chip.put_chans]
@[simp] theorem Chip.setChute_jbs (n : Nat) (k : ChuteSt) : (Chip.setChute n k c).jbs = c.jbs := by
  simp only [Chip.setChute, Chip.put_jbs]
@[simp] theorem Chip.setChute_host (n : Nat) (k : ChuteSt) : (Chip.setChute n k c).host = c.host := by
  simp only [Chip.setChute, Chip.put_host]
@[simp] theorem Chip.setChute_fault (n : Nat) (k : ChuteSt) : (Chip.setChute n k c).fault = c.fault := by
  simp only [Chip.setChute, Chip.put_fault]
@[simp] theorem Chip.setChute_ranger (n : Nat) (k : ChuteSt) : (Chip.setChute n k c).ranger = c.ranger := by
  simp only [Chip.setChute, Chip.put_ranger]
@[simp] theorem Chip.setChute_dram (n : Nat) (k : ChuteSt) : (Chip.setChute n k c).dram = c.dram := by
  simp only [Chip.setChute, Chip.put_dram]
@[simp] theorem Chip.setChute_zeroed (n : Nat) (k : ChuteSt) : (Chip.setChute n k c).zeroed = c.zeroed := by
  simp only [Chip.setChute, Chip.put_zeroed]
@[simp] theorem Chip.setChute_buses (n : Nat) (k : ChuteSt) : (Chip.setChute n k c).buses = c.buses := by
  simp only [Chip.setChute, Chip.put_buses]
@[simp] theorem Chip.setChute_mix (n : Nat) (k : ChuteSt) : (Chip.setChute n k c).mix = c.mix := by
  simp only [Chip.setChute, Chip.put_mix]
@[simp] theorem Chip.setChute_kerf (n : Nat) (k : ChuteSt) : (Chip.setChute n k c).kerf = c.kerf := by
  simp only [Chip.setChute, Chip.put_kerf]
@[simp] theorem Chip.setChute_upsets (n : Nat) (k : ChuteSt) : (Chip.setChute n k c).upsets = c.upsets := by
  simp only [Chip.setChute, Chip.put_upsets]
@[simp] theorem Chip.setChute_balers (n : Nat) (k : ChuteSt) : (Chip.setChute n k c).balers = c.balers := by
  simp only [Chip.setChute, Chip.put_balers]
@[simp] theorem Chip.setChute_serial (n : Nat) (k : ChuteSt) : (Chip.setChute n k c).serial = c.serial := by
  simp only [Chip.setChute, Chip.put_serial]
@[simp] theorem Chip.setChute_fns (n : Nat) (k : ChuteSt) : (Chip.setChute n k c).fns = c.fns := by
  simp only [Chip.setChute, Chip.put_fns]
@[simp] theorem Chip.setChute_tonesets (n : Nat) (k : ChuteSt) : (Chip.setChute n k c).tonesets = c.tonesets := by
  simp only [Chip.setChute, Chip.put_tonesets]
@[simp] theorem Chip.setChute_customs (n : Nat) (k : ChuteSt) : (Chip.setChute n k c).customs = c.customs := by
  simp only [Chip.setChute, Chip.put_customs]
@[simp] theorem Chip.setChute_heads (n : Nat) (k : ChuteSt) : (Chip.setChute n k c).heads = c.heads := by
  simp only [Chip.setChute, Chip.put_heads]
@[simp] theorem Chip.setChute_flume (n : Nat) (k : ChuteSt) : (Chip.setChute n k c).flume = c.flume := by
  simp only [Chip.setChute, Chip.put_flume]
@[simp] theorem Chip.setChute_audio (n : Nat) (k : ChuteSt) : (Chip.setChute n k c).audio = c.audio := by
  simp only [Chip.setChute, Chip.put_audio]
@[simp] theorem Chip.setChute_mc (n : Nat) (k : ChuteSt) : (Chip.setChute n k c).mc = c.mc := by
  simp only [Chip.setChute, Chip.put_mc]
@[simp] theorem Chip.setChute_boot (n : Nat) (k : ChuteSt) : (Chip.setChute n k c).boot = c.boot := by
  simp only [Chip.setChute, Chip.put_boot]
@[simp] theorem Chip.setChute_jtag (n : Nat) (k : ChuteSt) : (Chip.setChute n k c).jtag = c.jtag := by
  simp only [Chip.setChute, Chip.put_jtag]

/-! ### A change made where a condition holds -/
@[simp] theorem Chip.iff_true (f : Chip → Chip) : Chip.iff true f c = f c := (rfl)
@[simp] theorem Chip.iff_false (f : Chip → Chip) : Chip.iff false f c = c := (rfl)

/-! ### The four ways a command ends -/
@[simp] theorem State.run_eq (s : State) (f : Chip → Chip) : s.run f =
    .next { s with chip := { f s.chip with count := s.chip.count, boot := s.chip.boot, jtag := s.chip.jtag } } := (rfl)
@[simp] theorem State.runBoot_eq (s : State) (f : Chip → Chip) : s.runBoot f =
    .next { s with chip := s.chip.keepFuses { f s.chip with count := s.chip.count } } := (rfl)
@[simp] theorem State.runFuse_eq (s : State) (f : Chip → Chip) : s.runFuse f =
    .next { s with chip := { f s.chip with count := s.chip.count } } := (rfl)
@[simp] theorem State.runClock_eq (s : State) (f : Chip → Chip) : s.runClock f = .next { s with chip := s.chip.keepFuses (f s.chip) } := (rfl)

@[simp] theorem Chip.keepFuses_count (d : Chip) : (Chip.keepFuses c d).count = d.count := (rfl)
@[simp] theorem Chip.keepFuses_draws (d : Chip) : (Chip.keepFuses c d).draws = d.draws := (rfl)
@[simp] theorem Chip.keepFuses_regs (d : Chip) : (Chip.keepFuses c d).regs = d.regs := (rfl)
@[simp] theorem Chip.keepFuses_preqs (d : Chip) : (Chip.keepFuses c d).preqs = d.preqs := (rfl)
@[simp] theorem Chip.keepFuses_out (d : Chip) : (Chip.keepFuses c d).out = d.out := (rfl)
@[simp] theorem Chip.keepFuses_dev (d : Chip) : (Chip.keepFuses c d).dev = d.dev := (rfl)
@[simp] theorem Chip.keepFuses_time (d : Chip) : (Chip.keepFuses c d).time = d.time := (rfl)
@[simp] theorem Chip.keepFuses_chutes (d : Chip) : (Chip.keepFuses c d).chutes = d.chutes := (rfl)
@[simp] theorem Chip.keepFuses_arriving (d : Chip) : (Chip.keepFuses c d).arriving = d.arriving := (rfl)
@[simp] theorem Chip.keepFuses_pool (d : Chip) : (Chip.keepFuses c d).pool = d.pool := (rfl)
@[simp] theorem Chip.keepFuses_cores (d : Chip) : (Chip.keepFuses c d).cores = d.cores := (rfl)
@[simp] theorem Chip.keepFuses_slots (d : Chip) : (Chip.keepFuses c d).slots = d.slots := (rfl)
@[simp] theorem Chip.keepFuses_bufs (d : Chip) : (Chip.keepFuses c d).bufs = d.bufs := (rfl)
@[simp] theorem Chip.keepFuses_sqs (d : Chip) : (Chip.keepFuses c d).sqs = d.sqs := (rfl)
@[simp] theorem Chip.keepFuses_sqTurn (d : Chip) : (Chip.keepFuses c d).sqTurn = d.sqTurn := (rfl)
@[simp] theorem Chip.keepFuses_chans (d : Chip) : (Chip.keepFuses c d).chans = d.chans := (rfl)
@[simp] theorem Chip.keepFuses_jbs (d : Chip) : (Chip.keepFuses c d).jbs = d.jbs := (rfl)
@[simp] theorem Chip.keepFuses_host (d : Chip) : (Chip.keepFuses c d).host = d.host := (rfl)
@[simp] theorem Chip.keepFuses_fault (d : Chip) : (Chip.keepFuses c d).fault = d.fault := (rfl)
@[simp] theorem Chip.keepFuses_ranger (d : Chip) : (Chip.keepFuses c d).ranger = d.ranger := (rfl)
@[simp] theorem Chip.keepFuses_dram (d : Chip) : (Chip.keepFuses c d).dram = d.dram := (rfl)
@[simp] theorem Chip.keepFuses_zeroed (d : Chip) : (Chip.keepFuses c d).zeroed = d.zeroed := (rfl)
@[simp] theorem Chip.keepFuses_buses (d : Chip) : (Chip.keepFuses c d).buses = d.buses := (rfl)
@[simp] theorem Chip.keepFuses_mix (d : Chip) : (Chip.keepFuses c d).mix = d.mix := (rfl)
@[simp] theorem Chip.keepFuses_kerf (d : Chip) : (Chip.keepFuses c d).kerf = d.kerf := (rfl)
@[simp] theorem Chip.keepFuses_upsets (d : Chip) : (Chip.keepFuses c d).upsets = d.upsets := (rfl)
@[simp] theorem Chip.keepFuses_balers (d : Chip) : (Chip.keepFuses c d).balers = d.balers := (rfl)
@[simp] theorem Chip.keepFuses_serial (d : Chip) : (Chip.keepFuses c d).serial = d.serial := (rfl)
@[simp] theorem Chip.keepFuses_fns (d : Chip) : (Chip.keepFuses c d).fns = d.fns := (rfl)
@[simp] theorem Chip.keepFuses_tonesets (d : Chip) : (Chip.keepFuses c d).tonesets = d.tonesets := (rfl)
@[simp] theorem Chip.keepFuses_customs (d : Chip) : (Chip.keepFuses c d).customs = d.customs := (rfl)
@[simp] theorem Chip.keepFuses_heads (d : Chip) : (Chip.keepFuses c d).heads = d.heads := (rfl)
@[simp] theorem Chip.keepFuses_flume (d : Chip) : (Chip.keepFuses c d).flume = d.flume := (rfl)
@[simp] theorem Chip.keepFuses_audio (d : Chip) : (Chip.keepFuses c d).audio = d.audio := (rfl)
@[simp] theorem Chip.keepFuses_mc (d : Chip) : (Chip.keepFuses c d).mc = d.mc := (rfl)
@[simp] theorem Chip.keepFuses_burned (d : Chip) : (Chip.keepFuses c d).boot.burned = c.boot.burned := (rfl)
@[simp] theorem Chip.keepFuses_jtag (d : Chip) : (Chip.keepFuses c d).jtag = d.jtag := (rfl)


end Sys2Proof.Machine
end

