-- ==== Sys2Proof/Laws/Regs.lean ====
section
/-! SUPPORT. The laws of registers and their fields: what a write of a field leaves in that field, in the other fields of
its register, and in every other register. -/
namespace Sys2Proof.Machine
open Sys2Proof

/-! ## Bit fields -/

/-- A bit of a number with a field replaced. -/
theorem testBit_nput (n v : Nat) {hi lo : Nat} (h : lo ≤ hi) (k : Nat) :
    (nput n hi lo v).testBit k = if lo ≤ k ∧ k ≤ hi then v.testBit (k - lo) else n.testBit k := by
  obtain ⟨w, rfl⟩ : ∃ w, hi = lo + w := ⟨hi - lo, by omega⟩
  have e : lo + w + 1 - lo = w + 1 := by omega
  have hn : nput n (lo + w) lo v =
      n / 2 ^ (lo + w + 1) * 2 ^ (lo + w + 1) + ((v % 2 ^ (w + 1)) * 2 ^ lo + n % 2 ^ lo) := by
    unfold nput nbits
    rw [e, Nat.shiftRight_eq_div_pow]
    have h1 := Nat.div_add_mod n (2 ^ lo)
    have h2 := Nat.div_add_mod (n / 2 ^ lo) (2 ^ (w + 1))
    rw [Nat.div_div_eq_div_mul, ← Nat.pow_add] at h2
    have h3 : lo + (w + 1) = lo + w + 1 := by omega
    rw [h3] at h2
    have h4 : 2 ^ (lo + w + 1) = 2 ^ lo * 2 ^ (w + 1) := by rw [← Nat.pow_add]; congr 1
    generalize n / 2 ^ (lo + w + 1) = q at *
    generalize n / 2 ^ lo % 2 ^ (w + 1) = f at *
    generalize n / 2 ^ lo = m at *
    generalize n % 2 ^ lo = r at *
    generalize v % 2 ^ (w + 1) = u at *
    rw [h4]
    have h5 : n = q * (2 ^ lo * 2 ^ (w + 1)) + (f * 2 ^ lo + r) := by rw [← h1, ← h2]; ring
    rw [h5]
    omega
  have hb : (v % 2 ^ (w + 1)) * 2 ^ lo + n % 2 ^ lo < 2 ^ (lo + w + 1) := by
    have h1 : v % 2 ^ (w + 1) + 1 ≤ 2 ^ (w + 1) := Nat.mod_lt _ (by positivity)
    have h2 : n % 2 ^ lo < 2 ^ lo := Nat.mod_lt _ (by positivity)
    have h4 : 2 ^ (lo + w + 1) = 2 ^ (w + 1) * 2 ^ lo := by rw [← Nat.pow_add]; congr 1; omega
    rw [h4]
    nlinarith [Nat.mul_le_mul_right (2 ^ lo) h1]
  rw [hn, Nat.mul_comm _ (2 ^ (lo + w + 1)), Nat.testBit_two_pow_mul_add _ hb,
    Nat.mul_comm _ (2 ^ lo), Nat.testBit_two_pow_mul_add _ (Nat.mod_lt _ (by positivity))]
  by_cases hk : k < lo + w + 1
  · by_cases hk2 : k < lo
    · have h3 : ¬ (lo ≤ k ∧ k ≤ lo + w) := by omega
      simp only [hk, hk2, if_true, if_neg h3, Nat.testBit_mod_two_pow, decide_true, Bool.true_and]
    · have h3 : lo ≤ k ∧ k ≤ lo + w := by omega
      have h6 : k - lo < w + 1 := by omega
      simp only [hk, hk2, if_true, if_false, if_pos h3, Nat.testBit_mod_two_pow, h6, decide_true, Bool.true_and]
  · have h3 : ¬ (lo ≤ k ∧ k ≤ lo + w) := by omega
    rw [if_neg hk, if_neg h3, Nat.testBit_div_two_pow]
    congr 1; omega

theorem testBit_nbits (n hi lo k : Nat) : (nbits n hi lo).testBit k = (decide (k < hi + 1 - lo) && n.testBit (lo + k)) := by
  unfold nbits
  rw [Nat.testBit_mod_two_pow, Nat.testBit_shiftRight]

/-- A field reads back as it was written. -/
theorem nbits_nput_same (n v : Nat) {hi lo : Nat} (h : lo ≤ hi) : nbits (nput n hi lo v) hi lo = v % 2 ^ (hi + 1 - lo) := by
  apply Nat.eq_of_testBit_eq
  intro k
  rw [testBit_nbits, testBit_nput n v h, Nat.testBit_mod_two_pow]
  by_cases hk : k < hi + 1 - lo
  · rw [if_pos ⟨Nat.le_add_right _ _, by omega⟩]; simp
  · simp [hk]

/-- A field is not changed by a write of a field that shares no bit with it. -/
theorem nbits_nput_apart (n v : Nat) {hi lo h2 l2 : Nat} (h : lo ≤ hi) (d : hi < l2 ∨ h2 < lo) :
    nbits (nput n hi lo v) h2 l2 = nbits n h2 l2 := by
  apply Nat.eq_of_testBit_eq
  intro k
  rw [testBit_nbits, testBit_nbits, testBit_nput n v h]
  by_cases hk : k < h2 + 1 - l2
  · rw [if_neg (by omega)]
  · simp [hk]

theorem wbits_ofNat (n : Nat) {hi lo : Nat} (h : hi ≤ 35) : wbits (BitVec.ofNat 36 n) hi lo = nbits n hi lo := by
  apply Nat.eq_of_testBit_eq
  intro k
  unfold wbits
  rw [testBit_nbits, testBit_nbits, BitVec.toNat_ofNat, Nat.testBit_mod_two_pow]
  by_cases hk : k < hi + 1 - lo
  · rw [decide_eq_true (show lo + k < 36 by omega)]; simp
  · simp [hk]

/-- A field of a word reads back as it was written. -/
theorem wbits_wput_same (w : Word) (v : Nat) {hi lo : Nat} (h : lo ≤ hi) (h35 : hi ≤ 35) :
    wbits (wput w hi lo v) hi lo = v % 2 ^ (hi + 1 - lo) := by
  unfold wput; rw [wbits_ofNat _ h35, nbits_nput_same _ _ h]

/-- A field of a word is not changed by a write of another field. -/
theorem wbits_wput_apart (w : Word) (v : Nat) {hi lo h2 l2 : Nat} (h : lo ≤ hi) (h35 : h2 ≤ 35) (d : hi < l2 ∨ h2 < lo) :
    wbits (wput w hi lo v) h2 l2 = wbits w h2 l2 := by
  unfold wput; rw [wbits_ofNat _ h35, nbits_nput_apart _ _ h d]; rfl

theorem wbits_lt (w : Word) (hi lo : Nat) : wbits w hi lo < 2 ^ (hi + 1 - lo) := Nat.mod_lt _ (by positivity)

/-! ## Registers -/

variable (c : Chip)

/-- A register reads back as it was written. -/
@[simp] theorem Chip.rd_wr_same (r : RegName) (v : Word) (i j : Nat) : (Chip.wr r v i j c).rd r i j = v := by
  unfold Chip.rd Chip.wr; exact Cells.get_set_same _ _ _ _

/-- A register at another place is not changed by a write. -/
theorem Chip.rd_wr_ne {r s : RegName} {i j m n : Nat} (h : slotOf s m n ≠ slotOf r i j) (v : Word) :
    (Chip.wr r v i j c).rd s m n = c.rd s m n := by
  unfold Chip.rd Chip.wr; exact Cells.get_set_ne _ _ h _ _

@[simp] theorem Chip.rdq_wr (q : Requester) (r s : RegName) (v : Word) (i j m n : Nat) :
    (Chip.wr r v i j c).rdq q s m n = c.rdq q s m n := by unfold Chip.rdq; rw [Chip.wr_preqs]

@[simp] theorem Chip.rd_wrq (q : Requester) (r s : RegName) (v : Word) (i j m n : Nat) :
    (Chip.wrq q r v i j c).rd s m n = c.rd s m n := by unfold Chip.rd; rw [Chip.wrq_regs]

@[simp] theorem Chip.rdq_wrq_same (q : Requester) (r : RegName) (v : Word) (i j : Nat) :
    (Chip.wrq q r v i j c).rdq q r i j = v := by
  unfold Chip.rdq Chip.wrq; exact Cells.get_set_same _ _ _ _

theorem Chip.rdq_wrq_ne {q p : Requester} {r s : RegName} {i j m n : Nat}
    (h : slotOf s m n * 8 + p.idx ≠ slotOf r i j * 8 + q.idx) (v : Word) :
    (Chip.wrq q r v i j c).rdq p s m n = c.rdq p s m n := by
  unfold Chip.rdq Chip.wrq; exact Cells.get_set_ne _ _ h _ _

theorem requesterIdx_lt (q : Requester) : q.idx < 8 := by cases q <;> decide

theorem requesterIdx_inj {p q : Requester} (h : p.idx = q.idx) : p = q := by cases p <;> cases q <;> simp_all [Requester.idx]

/-- A requester's copy of a register at another place is not changed. -/
theorem Chip.rdq_wrq_slot {q p : Requester} {r s : RegName} {i j m n : Nat} (h : slotOf s m n ≠ slotOf r i j) (v : Word) :
    (Chip.wrq q r v i j c).rdq p s m n = c.rdq p s m n := by
  apply Chip.rdq_wrq_ne
  have := requesterIdx_lt q; have := requesterIdx_lt p; omega

/-- Another requester's copy of a register is not changed. -/
theorem Chip.rdq_wrq_other {q p : Requester} (h : p ≠ q) (r s : RegName) (i j m n : Nat) (v : Word) :
    (Chip.wrq q r v i j c).rdq p s m n = c.rdq p s m n := by
  apply Chip.rdq_wrq_ne
  intro e
  have := requesterIdx_lt q; have := requesterIdx_lt p
  exact h (requesterIdx_inj (by omega))

/-! ## Fields -/

/-- The bits of a field lie in a word. -/
def Fld.ok (f : Fld) : Bool := decide (f.lo ≤ f.hi ∧ f.hi ≤ 35)

/-- A field reads back as it was written, modulo its width. -/
theorem Chip.fld_put_same (f : Fld) (h : f.ok = true) (v i j : Nat) :
    (Chip.put f v i j c).fld f i j = v % 2 ^ (f.hi + 1 - f.lo) := by
  have h : f.lo ≤ f.hi ∧ f.hi ≤ 35 := of_decide_eq_true h
  unfold Chip.fld Chip.put
  rw [Chip.rd_wr_same, wbits_wput_same _ _ h.1 h.2]

/-- A field is not changed by a write of another field of its register. -/
theorem Chip.fld_put_apart (f g : Fld) (hf : f.ok = true) (hg : g.ok = true) (hr : g.reg = f.reg) (d : f.hi < g.lo ∨ g.hi < f.lo)
    (v i j : Nat) : (Chip.put f v i j c).fld g i j = c.fld g i j := by
  have hf : f.lo ≤ f.hi ∧ f.hi ≤ 35 := of_decide_eq_true hf
  have hg : g.lo ≤ g.hi ∧ g.hi ≤ 35 := of_decide_eq_true hg
  unfold Chip.fld Chip.put
  rw [hr, Chip.rd_wr_same, wbits_wput_apart _ _ hf.1 hg.2 d]

/-- A field of a register at another place is not changed. -/
theorem Chip.fld_put_ne {f g : Fld} {i j m n : Nat} (h : slotOf g.reg m n ≠ slotOf f.reg i j) (v : Nat) :
    (Chip.put f v i j c).fld g m n = c.fld g m n := by
  unfold Chip.fld Chip.put; rw [Chip.rd_wr_ne _ h]

theorem Chip.fld_wr_ne {g : Fld} {r : RegName} {i j m n : Nat} (h : slotOf g.reg m n ≠ slotOf r i j) (v : Word) :
    (Chip.wr r v i j c).fld g m n = c.fld g m n := by unfold Chip.fld; rw [Chip.rd_wr_ne _ h]

@[simp] theorem Chip.fld_wr_same (g : Fld) (v : Word) (i j : Nat) : (Chip.wr g.reg v i j c).fld g i j = wbits v g.hi g.lo := by
  unfold Chip.fld; rw [Chip.rd_wr_same]

/-- A register is not changed by a write of a field of a register at another place. -/
theorem Chip.rd_put_ne {f : Fld} {r : RegName} {i j m n : Nat} (h : slotOf r m n ≠ slotOf f.reg i j) (v : Nat) :
    (Chip.put f v i j c).rd r m n = c.rd r m n := by unfold Chip.put; rw [Chip.rd_wr_ne _ h]

theorem Chip.fldq_putq_same (q : Requester) (f : Fld) (h : f.ok = true) (v i j : Nat) :
    (Chip.putq q f v i j c).fldq q f i j = v % 2 ^ (f.hi + 1 - f.lo) := by
  have h : f.lo ≤ f.hi ∧ f.hi ≤ 35 := of_decide_eq_true h
  unfold Chip.fldq Chip.putq
  rw [Chip.rdq_wrq_same, wbits_wput_same _ _ h.1 h.2]

theorem Chip.fldq_putq_apart (q : Requester) (f g : Fld) (hf : f.ok = true) (hg : g.ok = true) (hr : g.reg = f.reg)
    (d : f.hi < g.lo ∨ g.hi < f.lo) (v i j : Nat) : (Chip.putq q f v i j c).fldq q g i j = c.fldq q g i j := by
  have hf : f.lo ≤ f.hi ∧ f.hi ≤ 35 := of_decide_eq_true hf
  have hg : g.lo ≤ g.hi ∧ g.hi ≤ 35 := of_decide_eq_true hg
  unfold Chip.fldq Chip.putq
  rw [hr, Chip.rdq_wrq_same, wbits_wput_apart _ _ hf.1 hg.2 d]

theorem Chip.fldq_putq_slot {q p : Requester} {f g : Fld} {i j m n : Nat} (h : slotOf g.reg m n ≠ slotOf f.reg i j) (v : Nat) :
    (Chip.putq q f v i j c).fldq p g m n = c.fldq p g m n := by
  unfold Chip.fldq Chip.putq; rw [Chip.rdq_wrq_slot _ h]

@[simp] theorem Chip.fld_putq (q : Requester) (f g : Fld) (v i j m n : Nat) :
    (Chip.putq q f v i j c).fld g m n = c.fld g m n := by unfold Chip.fld Chip.putq; rw [Chip.rd_wrq]

@[simp] theorem Chip.fldq_put (q : Requester) (f g : Fld) (v i j m n : Nat) :
    (Chip.put f v i j c).fldq q g m n = c.fldq q g m n := by unfold Chip.fldq Chip.put; rw [Chip.rdq_wr]

/-! ## Registers that an update of another part leaves -/

/-- Registers read the same where the tables of registers are the same. -/
theorem Chip.rd_of_regs {a b : Chip} (h : a.regs = b.regs) (r : RegName) (i j : Nat) : a.rd r i j = b.rd r i j := by
  unfold Chip.rd; rw [h]

theorem Chip.fld_of_regs {a b : Chip} (h : a.regs = b.regs) (f : Fld) (i j : Nat) : a.fld f i j = b.fld f i j := by
  unfold Chip.fld; rw [Chip.rd_of_regs h]

theorem Chip.rdq_of_preqs {a b : Chip} (h : a.preqs = b.preqs) (q : Requester) (r : RegName) (i j : Nat) :
    a.rdq q r i j = b.rdq q r i j := by unfold Chip.rdq; rw [h]

theorem Chip.fldq_of_preqs {a b : Chip} (h : a.preqs = b.preqs) (q : Requester) (f : Fld) (i j : Nat) :
    a.fldq q f i j = b.fldq q f i j := by unfold Chip.fldq; rw [Chip.rdq_of_preqs h]

/-! ## Cores -/

@[simp] theorem Chip.core_modCore_same (k : Nat) (f : CoreSt → CoreSt) : (Chip.modCore k f c).core k = f (c.core k) :=
  Cells.get_modify_same _ _ _ _

theorem Chip.core_modCore_ne {k m : Nat} (h : m ≠ k) (f : CoreSt → CoreSt) : (Chip.modCore k f c).core m = c.core m :=
  Cells.get_modify_ne _ h _ _

theorem Chip.core_of_cores {a b : Chip} (h : a.cores = b.cores) (k : Nat) : a.core k = b.core k := by unfold Chip.core; rw [h]

end Sys2Proof.Machine
end

