-- ==== Sys2Proof/Laws/Run.lean ====
section
/-! SUPPORT. What the shared operations of modes, fault records and release leave unchanged, and the fuses through a release
and through the test port: what each operation can do, said once. -/
namespace Sys2Proof.Machine
open Sys2Proof

/-! ## Repeated changes -/

/-- What every change of a list of changes keeps, the list keeps. -/
theorem foldl_keeps {α β γ : Type} (g : α → γ) (f : α → β → α) (h : ∀ a b, g (f a b) = g a) (l : List β) (a : α) :
    g (l.foldl f a) = g a := by
  induction l generalizing a with
  | nil => rfl
  | cons x r ih => rw [List.foldl_cons, ih, h]

/-- What every change of a range keeps, the range keeps. -/
theorem forRange_keeps {α γ : Type} (g : α → γ) (f : Nat → α → α) (h : ∀ i a, g (f i a) = g a) (n : Nat) (a : α) :
    g (forRange n f a) = g a := foldl_keeps g (fun x i => f i x) (fun a b => h b a) _ a

/-- A condition keeps what the change keeps. -/
theorem iff_keeps {γ : Type} (g : Chip → γ) (b : Bool) (f : Chip → Chip) (h : ∀ c, g (f c) = g c) (c : Chip) :
    g (Chip.iff b f c) = g c := by cases b <;> simp [h]

/-! ## Interrupts and modes -/

@[simp] theorem Chip.sendMsix_boot (v : Nat) (c : Chip) : (c.sendMsix v).boot = c.boot := by
  unfold Chip.sendMsix; split_ifs <;> simp

@[simp] theorem Chip.sendMsix_regs (v : Nat) (c : Chip) : (c.sendMsix v).regs = c.regs := by
  unfold Chip.sendMsix; split_ifs <;> simp

@[simp] theorem Chip.sendMsix_count (v : Nat) (c : Chip) : (c.sendMsix v).count = c.count := by
  unfold Chip.sendMsix; split_ifs <;> simp

@[simp] theorem Chip.irq_boot (k : Nat) (c : Chip) : (c.irq k).boot = c.boot := by
  unfold Chip.irq; split_ifs <;> simp

/-- An interrupt changes no register. -/
@[simp] theorem Chip.irq_regs (k : Nat) (c : Chip) : (c.irq k).regs = c.regs := by
  unfold Chip.irq; split_ifs <;> simp

@[simp] theorem Chip.irq_count (k : Nat) (c : Chip) : (c.irq k).count = c.count := by
  unfold Chip.irq; split_ifs <;> simp

@[simp] theorem Chip.enterMode_boot (m : Nat) (c : Chip) : (c.enterMode m).boot = c.boot := by
  unfold Chip.enterMode; split_ifs <;> simp

@[simp] theorem Chip.enterMode_count (m : Nat) (c : Chip) : (c.enterMode m).count = c.count := by
  unfold Chip.enterMode; split_ifs <;> simp

/-- The reported mode after an entry into a mode. -/
theorem Chip.enterMode_mode {m : Nat} (h : m < 16) (c : Chip) : (c.enterMode m).mode = m := by
  unfold Chip.enterMode
  split_ifs with hm
  · exact hm.symm
  · unfold Chip.mode
    rw [Chip.fld_of_regs (Chip.irq_regs _ _), Chip.fld_put_same _ _ (by decide)]
    exact Nat.mod_eq_of_lt h

theorem Cells.find?_filter {β : Type} (k : Nat) (m : Cells β) : Cells.find? k (m.filter (fun p => p.1 = k)) = Cells.find? k m := by
  induction m with
  | nil => rfl
  | cons p r ih =>
    obtain ⟨a, x⟩ := p
    by_cases h : a = k <;> simp [Cells.find?, h, ih]

/-- A blank device reports the mode it had. -/
theorem Chip.blank_mode (c : Chip) : c.blank.mode = c.mode := by
  unfold Chip.mode Chip.fld Chip.rd Cells.get
  have h : c.blank.regs = c.regs.filter (fun p => p.1 = slotOf .global_MODE 0 0) := (rfl)
  rw [h]
  exact congrArg (fun o => wbits (Option.getD o (wofNat (RegName.resetVal .global_MODE 0))) 3 0)
    (Cells.find?_filter (slotOf .global_MODE 0 0) c.regs)

theorem Chip.enterHeld_mode (c : Chip) : c.enterHeld.mode = Md.HELD := Chip.enterMode_mode (by decide) _

/-- COUNT is 0 in HELD (R42). -/
theorem Chip.enterHeld_count (c : Chip) : c.enterHeld.count = 0 := by
  unfold Chip.enterHeld; rw [Chip.enterMode_count]; rfl

@[simp] theorem Chip.settleArea_boot (c : Chip) : c.settleArea.boot = c.boot := by
  unfold Chip.settleArea
  simp only [Chip.put_boot]
  exact iff_keeps (fun c => c.boot) _ _ (fun c => by simp) c

@[simp] theorem Chip.writeEntry_boot (e : FaultEntry) (c : Chip) : (c.writeEntry e).boot = c.boot := by
  unfold Chip.writeEntry; simp

@[simp] theorem Chip.raiseEntry_boot (ty : Nat) (p : List Octet) (c : Chip) : (c.raiseEntry ty p).boot = c.boot := by
  unfold Chip.raiseEntry; split_ifs <;> simp

/-! ## Release (R473) -/

@[simp] theorem Chip.setLocks_boot (p n : Nat) (c : Chip) : (c.setLocks p n).boot = c.boot := by
  unfold Chip.setLocks
  exact (forRange_keeps (fun c : Chip => c.boot) _ (fun i c => by simp) _ _).trans (by simp)

@[simp] theorem Chip.setFaults_boot (p : Nat) (h l r : Bool) (c : Chip) : (c.setFaults p h l r).boot = c.boot := by
  unfold Chip.setFaults; simp

@[simp] theorem Chip.acquire_boot (p : Nat) (c : Chip) : (c.acquire p).boot = c.boot := by
  unfold Chip.acquire
  simp only [Chip.put_boot, Chip.setFaults_boot, Chip.setLocks_boot]
  exact forRange_keeps (fun c : Chip => c.boot) _ (fun i c => by simp) _ c

@[simp] theorem Chip.releaseMem_boot (c : Chip) : c.releaseMem.boot = c.boot := by
  unfold Chip.releaseMem
  exact (forRange_keeps (fun c : Chip => c.boot) _ (fun i c => by simp) _ _).trans (by simp)

@[simp] theorem Chip.startCores_boot (c : Chip) : c.startCores.boot = c.boot := by
  unfold Chip.startCores
  exact (forRange_keeps (fun c : Chip => c.boot) _ (fun i c => by simp) _ _).trans
    (forRange_keeps (fun c : Chip => c.boot) _ (fun i c => by simp) _ _)

@[simp] theorem Chip.fillBootinfo_boot (a f : Bool) (c : Chip) : (c.fillBootinfo a f).boot = c.boot := by
  unfold Chip.fillBootinfo; simp

@[simp] theorem Chip.pushEvt_boot (a b d e : Word) (c : Chip) : (c.pushEvt a b d e).boot = c.boot := by
  unfold Chip.pushEvt; split_ifs <;> simp

@[simp] theorem Chip.stampEvt_boot (k src : Nat) (edge : Bool) (seq typ corr t : Nat) (c : Chip) :
    (c.stampEvt k src edge seq typ corr t).boot = c.boot := by unfold Chip.stampEvt; simp

@[simp] theorem Chip.setLevel_boot (g : Nat) (b : Bool) (c : Chip) : (c.setLevel g b).boot = c.boot := by
  unfold Chip.setLevel; simp

@[simp] theorem Chip.gpioSense_boot (g : Nat) (c : Chip) : (c.gpioSense g).boot = c.boot := by
  unfold Chip.gpioSense Chip.gpioAccept; simp only; split_ifs <;> simp

@[simp] theorem Chip.gpioDrive_boot (g : Nat) (c : Chip) : (c.gpioDrive g).boot = c.boot := by
  unfold Chip.gpioDrive
  simp only
  split_ifs
  · exact iff_keeps (fun c => c.boot) _ _ (fun c => by simp) _
  · exact (iff_keeps (fun c => c.boot) _ _ (fun c => by simp) _).trans (by simp)
  · rfl

@[simp] theorem Chip.startGpio_boot (c : Chip) : c.startGpio.boot = c.boot := by
  unfold Chip.startGpio
  exact forRange_keeps (fun c : Chip => c.boot) _ (fun i c => by simp) _ _

@[simp] theorem Chip.setFree_burned (c : Chip) : c.setFree.boot.burned = c.boot.burned := by
  unfold Chip.setFree
  simp only [Chip.startCores_boot, Chip.startGpio_boot, Chip.releaseMem_boot]
  refine (congrArg BootSt.burned (forRange_keeps (fun c : Chip => c.boot) _ (fun p c => ?_) _ _)).trans ?_
  · split_ifs <;> simp
  · simp

/-- Every bit that RELEASE programs lies in a rollback slot. -/
theorem rollBits_mem {j v b : Nat} (hj : j < 32) (h : b ∈ rollBits j v) : 2560 ≤ b ∧ b ≤ 4863 := by
  unfold rollBits at h
  obtain ⟨i, hi, rfl⟩ := List.mem_map.1 h
  have := List.mem_range.1 (List.mem_filter.1 hi).1
  omega

/-- RELEASE adds to the programmed bits those of one rollback slot at most. -/
theorem Chip.advanceRoll_burned (c : Chip) :
    ∃ l, c.advanceRoll.2.2.boot.burned = c.boot.burned ++ l ∧ ∀ b ∈ l, 2560 ≤ b ∧ b ≤ 4863 := by
  unfold Chip.advanceRoll
  split_ifs with h
  · exact ⟨[], by simp, by simp⟩
  · split
    · exact ⟨[], by simp, by simp⟩
    · next j hj =>
      refine ⟨rollBits j c.boot.rollback, by simp, fun b hb => rollBits_mem ?_ hb⟩
      exact List.mem_range.1 (List.mem_of_find?_eq_some hj)

theorem Chip.release_burned (c : Chip) :
    ∃ l, c.release.boot.burned = c.boot.burned ++ l ∧ ∀ b ∈ l, 2560 ≤ b ∧ b ≤ 4863 := by
  have key (d : Chip) (hd : d.boot.burned = c.boot.burned) :
      ∃ l, (((d.advanceRoll.2.2).fillBootinfo d.advanceRoll.1 d.advanceRoll.2.1).setFree).boot.burned = c.boot.burned ++ l ∧
        ∀ b ∈ l, 2560 ≤ b ∧ b ≤ 4863 := by
    obtain ⟨l, hl, hb⟩ := Chip.advanceRoll_burned d
    exact ⟨l, by rw [Chip.setFree_burned, Chip.fillBootinfo_boot, hl, hd], hb⟩
  unfold Chip.release
  split
  · exact ⟨[], by simp, by simp⟩
  · apply key
    split_ifs <;> simp

/-! ## The test port (R461, R508) -/

/-- Provisioning programs bits of KEYHASH, KEYSET and DBGLOCK only, and none while KEYSET is 1. -/
theorem Chip.provision_burned (bits : List Nat) (c : Chip) (b : Nat) :
    b ∈ (c.provision bits).boot.burned ↔
      b ∈ c.boot.burned ∨ (c.fuse 2520 = false ∧ b ∈ bits ∧ 2136 ≤ b ∧ b ≤ 2521 ∧ c.fuse b = false) := by
  unfold Chip.provision
  split_ifs with h
  · simp [h]
  · have key (l : List Nat) (d : Chip) : b ∈ (l.foldl (fun c b => (c.modBoot (fun s => { s with
        burned := if s.burned.contains b then s.burned else s.burned ++ [b] })).emit (.fuse b [true])) d).boot.burned ↔
        b ∈ d.boot.burned ∨ b ∈ l := by
      induction l generalizing d with
      | nil => simp
      | cons x r ih =>
        rw [List.foldl_cons, ih]
        simp only [Chip.emit_boot, Chip.modBoot_boot, List.mem_cons]
        split_ifs with hx
        · simp only [List.contains_iff_mem] at hx
          constructor
          · rintro (h | h)
            · exact .inl h
            · exact .inr (.inr h)
          · rintro (h | rfl | h)
            · exact .inl h
            · exact .inl hx
            · exact .inr h
        · simp only [List.mem_append, List.mem_singleton, or_assoc]
    rw [key]
    simp only [List.mem_filter, Bool.and_eq_true, decide_eq_true_eq, Bool.not_eq_true', Bool.not_eq_true] at h ⊢
    simp only [h, true_and, and_assoc]

theorem Chip.drivePins_boot (c : Chip) : c.drivePins.boot = c.boot := by
  unfold Chip.drivePins
  split_ifs
  · rfl
  · exact foldl_keeps (fun c : Chip => c.boot) _ (fun a b => by simp) _ _

/-- A rising edge of JTAG_TCK leaves what bring-up holds. -/
theorem Chip.tckRise_boot (tms tdi : Bool) (c : Chip) : (c.tckRise tms tdi).boot = c.boot := by
  unfold Chip.tckRise
  simp only [Chip.modJtag_boot]
  split <;> simp

@[simp] theorem Chip.driveTdo_boot (c : Chip) : c.driveTdo.boot = c.boot := by
  unfold Chip.driveTdo; split <;> simp

/-- A falling edge of JTAG_TCK clears no fuse bit, and programs bits of KEYHASH, KEYSET and DBGLOCK alone, none while
KEYSET is 1. -/
theorem Chip.tckFall_burned (c : Chip) (b : Nat) :
    (b ∈ c.boot.burned → b ∈ c.tckFall.boot.burned) ∧
    (b ∈ c.tckFall.boot.burned → b ∈ c.boot.burned ∨ (c.fuse 2520 = false ∧ 2136 ≤ b ∧ b ≤ 2521)) := by
  unfold Chip.tckFall
  rw [Chip.driveTdo_boot]
  unfold Chip.tckUpdate
  split
  · simp; exact .inl
  · rw [Chip.drivePins_boot]; simp; exact .inl
  · split_ifs
    · rw [Chip.drivePins_boot]; simp; exact .inl
    · rw [Chip.provision_burned]
      exact ⟨.inl, fun h => h.imp id (fun h => ⟨h.1, h.2.2.1, h.2.2.2.1⟩)⟩
    · exact ⟨id, .inl⟩
  · exact ⟨id, .inl⟩

/-- An edge of JTAG_TCK programs bits of KEYHASH, KEYSET and DBGLOCK alone, none while KEYSET is 1, and clears none. -/
theorem Chip.tckEdge_burned (rise trstN tms tdi : Bool) (c : Chip) (b : Nat) :
    (b ∈ c.boot.burned → b ∈ (c.tckEdge rise trstN tms tdi).boot.burned) ∧
    (b ∈ (c.tckEdge rise trstN tms tdi).boot.burned →
      b ∈ c.boot.burned ∨ (c.fuse 2520 = false ∧ 2136 ≤ b ∧ b ≤ 2521)) := by
  unfold Chip.tckEdge
  split_ifs
  · exact ⟨id, .inl⟩
  · exact ⟨by simp, fun h => .inl (by simpa using h)⟩
  · rw [Chip.tckRise_boot]; exact ⟨by simp, fun h => .inl (by simpa using h)⟩
  · have h := Chip.tckFall_burned (c.modJtag (fun j => { j with trstN := true })) b
    unfold Chip.fuse at h ⊢
    simpa using h

end Sys2Proof.Machine
end

