-- ==== Sys2Proof/Laws/Core.lean ====
section
/-! SUPPORT. Bundles of the cores: what the two results of a bundle write, why neither disturbs the other, and what a bundle
leaves unchanged (R242, R243). -/
set_option Elab.async false

namespace Sys2Proof.Machine
open Sys2Proof

/-! ## General registers -/

theorem CoreSt.rg_congr {a b : CoreSt} (h : a.g = b.g) (r : GReg) : a.rg r = b.rg r := by unfold CoreSt.rg; rw [h]

/-- G0 reads as 0 (R240). -/
theorem CoreSt.rg_zero (s : CoreSt) (r : GReg) (h : r.val = 0) : s.rg r = 0 := by unfold CoreSt.rg; rw [if_pos h]

/-- A general register after a write: G0 stays 0, another register stands. -/
theorem CoreSt.rg_wg (s : CoreSt) (n : Nat) (w : Word) (r : GReg) (hn : n < 32) :
    (s.wg n w).rg r = if r.val = n ∧ n ≠ 0 then w else s.rg r := by
  by_cases h0 : n = 0
  · have e : s.wg n w = s := by unfold CoreSt.wg; rw [Nat.mod_eq_of_lt hn, if_pos h0]
    rw [e, if_neg (fun h => h.2 h0)]
  · have e : (s.wg n w).g = Cells.set 0 n w s.g := by unfold CoreSt.wg; rw [Nat.mod_eq_of_lt hn, if_neg h0]
    unfold CoreSt.rg
    rw [e]
    by_cases hr : r.val = n
    · have h1 : ¬ r.val = 0 := by omega
      rw [if_neg h1, if_pos (And.intro hr h0), hr]; exact Cells.get_set_same _ _ _ _
    · rw [Cells.get_set_ne _ _ hr, if_neg (fun h : _ ∧ _ => hr h.1)]

/-- Registers that a list of writes does not name stand. -/
theorem CoreSt.rg_writes_ne (l : List (Nat × Word)) (s : CoreSt) (r : GReg) (h : ∀ p ∈ l, p.1 < 32 ∧ p.1 ≠ r.val) :
    (l.foldl (fun s p => s.wg p.1 p.2) s).rg r = s.rg r := by
  induction l generalizing s with
  | nil => rfl
  | cons p q ih =>
    rw [List.foldl_cons, ih _ (fun x hx => h x (List.mem_cons_of_mem _ hx)),
      CoreSt.rg_wg _ _ _ _ (h p List.mem_cons_self).1, if_neg (fun e : _ ∧ _ => (h p List.mem_cons_self).2 e.1.symm)]

/-- A register that one write of a list of writes to different registers names. -/
theorem CoreSt.rg_writes_mem (l : List (Nat × Word)) (s : CoreSt) (n : GReg) (w : Word) (h : (n.val, w) ∈ l)
    (hl : ∀ p ∈ l, p.1 < 32) (hd : (l.map Prod.fst).Nodup) :
    (l.foldl (fun s p => s.wg p.1 p.2) s).rg n = if n.val = 0 then 0 else w := by
  induction l generalizing s with
  | nil => cases h
  | cons p q ih =>
    rw [List.map_cons, List.nodup_cons] at hd
    rw [List.foldl_cons]
    rcases List.mem_cons.1 h with e | e
    · subst e
      rw [CoreSt.rg_writes_ne, CoreSt.rg_wg _ _ _ _ (hl _ List.mem_cons_self)]
      · by_cases h0 : n.val = 0
        · rw [if_pos h0, if_neg (by rintro ⟨_, h⟩; exact h h0), CoreSt.rg_zero _ _ h0]
        · rw [if_neg h0, if_pos (And.intro rfl h0)]
      · intro x hx
        refine ⟨hl x (List.mem_cons_of_mem _ hx), fun e => hd.1 ?_⟩
        show n.val ∈ _
        rw [← e]; exact List.mem_map_of_mem (f := Prod.fst) hx
    · exact ih _ e (fun x hx => hl x (List.mem_cons_of_mem _ hx)) hd.2

/-! ## What a write of a register or a control register leaves -/

section
variable (s : CoreSt) (n cr : Nat) (w : Word) (l : List (Nat × Word))

@[simp] theorem CoreSt.wg_wait : (s.wg n w).wait = s.wait := by unfold CoreSt.wg; split_ifs <;> rfl
@[simp] theorem CoreSt.writes_wait : (l.foldl (fun s p => s.wg p.1 p.2) s).wait = s.wait :=
  foldl_keeps (fun s : CoreSt => s.wait) _ (fun a _ => CoreSt.wg_wait a _ _) l s
@[simp] theorem CoreSt.wg_pc : (s.wg n w).pc = s.pc := by unfold CoreSt.wg; split_ifs <;> rfl
@[simp] theorem CoreSt.writes_pc : (l.foldl (fun s p => s.wg p.1 p.2) s).pc = s.pc :=
  foldl_keeps (fun s : CoreSt => s.pc) _ (fun a _ => CoreSt.wg_pc a _ _) l s
@[simp] theorem CoreSt.wg_acc : (s.wg n w).acc = s.acc := by unfold CoreSt.wg; split_ifs <;> rfl
@[simp] theorem CoreSt.writes_acc : (l.foldl (fun s p => s.wg p.1 p.2) s).acc = s.acc :=
  foldl_keeps (fun s : CoreSt => s.acc) _ (fun a _ => CoreSt.wg_acc a _ _) l s
@[simp] theorem CoreSt.wg_x : (s.wg n w).x = s.x := by unfold CoreSt.wg; split_ifs <;> rfl
@[simp] theorem CoreSt.writes_x : (l.foldl (fun s p => s.wg p.1 p.2) s).x = s.x :=
  foldl_keeps (fun s : CoreSt => s.x) _ (fun a _ => CoreSt.wg_x a _ _) l s
@[simp] theorem CoreSt.wg_xb : (s.wg n w).xb = s.xb := by unfold CoreSt.wg; split_ifs <;> rfl
@[simp] theorem CoreSt.writes_xb : (l.foldl (fun s p => s.wg p.1 p.2) s).xb = s.xb :=
  foldl_keeps (fun s : CoreSt => s.xb) _ (fun a _ => CoreSt.wg_xb a _ _) l s
@[simp] theorem CoreSt.wg_xl : (s.wg n w).xl = s.xl := by unfold CoreSt.wg; split_ifs <;> rfl
@[simp] theorem CoreSt.writes_xl : (l.foldl (fun s p => s.wg p.1 p.2) s).xl = s.xl :=
  foldl_keeps (fun s : CoreSt => s.xl) _ (fun a _ => CoreSt.wg_xl a _ _) l s
@[simp] theorem CoreSt.wg_tcr : (s.wg n w).tcr = s.tcr := by unfold CoreSt.wg; split_ifs <;> rfl
@[simp] theorem CoreSt.writes_tcr : (l.foldl (fun s p => s.wg p.1 p.2) s).tcr = s.tcr :=
  foldl_keeps (fun s : CoreSt => s.tcr) _ (fun a _ => CoreSt.wg_tcr a _ _) l s
@[simp] theorem CoreSt.wg_flags : (s.wg n w).flags = s.flags := by unfold CoreSt.wg; split_ifs <;> rfl
@[simp] theorem CoreSt.writes_flags : (l.foldl (fun s p => s.wg p.1 p.2) s).flags = s.flags :=
  foldl_keeps (fun s : CoreSt => s.flags) _ (fun a _ => CoreSt.wg_flags a _ _) l s
@[simp] theorem CoreSt.wg_loop0 : (s.wg n w).loop0 = s.loop0 := by unfold CoreSt.wg; split_ifs <;> rfl
@[simp] theorem CoreSt.writes_loop0 : (l.foldl (fun s p => s.wg p.1 p.2) s).loop0 = s.loop0 :=
  foldl_keeps (fun s : CoreSt => s.loop0) _ (fun a _ => CoreSt.wg_loop0 a _ _) l s
@[simp] theorem CoreSt.wg_loop1 : (s.wg n w).loop1 = s.loop1 := by unfold CoreSt.wg; split_ifs <;> rfl
@[simp] theorem CoreSt.writes_loop1 : (l.foldl (fun s p => s.wg p.1 p.2) s).loop1 = s.loop1 :=
  foldl_keeps (fun s : CoreSt => s.loop1) _ (fun a _ => CoreSt.wg_loop1 a _ _) l s
@[simp] theorem CoreSt.wg_mem : (s.wg n w).mem = s.mem := by unfold CoreSt.wg; split_ifs <;> rfl
@[simp] theorem CoreSt.writes_mem : (l.foldl (fun s p => s.wg p.1 p.2) s).mem = s.mem :=
  foldl_keeps (fun s : CoreSt => s.mem) _ (fun a _ => CoreSt.wg_mem a _ _) l s
@[simp] theorem CoreSt.wg_takeAt : (s.wg n w).takeAt = s.takeAt := by unfold CoreSt.wg; split_ifs <;> rfl
@[simp] theorem CoreSt.writes_takeAt : (l.foldl (fun s p => s.wg p.1 p.2) s).takeAt = s.takeAt :=
  foldl_keeps (fun s : CoreSt => s.takeAt) _ (fun a _ => CoreSt.wg_takeAt a _ _) l s
@[simp] theorem CoreSt.wg_takeSub : (s.wg n w).takeSub = s.takeSub := by unfold CoreSt.wg; split_ifs <;> rfl
@[simp] theorem CoreSt.writes_takeSub : (l.foldl (fun s p => s.wg p.1 p.2) s).takeSub = s.takeSub :=
  foldl_keeps (fun s : CoreSt => s.takeSub) _ (fun a _ => CoreSt.wg_takeSub a _ _) l s
@[simp] theorem CoreSt.wg_item : (s.wg n w).item = s.item := by unfold CoreSt.wg; split_ifs <;> rfl
@[simp] theorem CoreSt.writes_item : (l.foldl (fun s p => s.wg p.1 p.2) s).item = s.item :=
  foldl_keeps (fun s : CoreSt => s.item) _ (fun a _ => CoreSt.wg_item a _ _) l s
@[simp] theorem CoreSt.wg_buf : (s.wg n w).buf = s.buf := by unfold CoreSt.wg; split_ifs <;> rfl
@[simp] theorem CoreSt.writes_buf : (l.foldl (fun s p => s.wg p.1 p.2) s).buf = s.buf :=
  foldl_keeps (fun s : CoreSt => s.buf) _ (fun a _ => CoreSt.wg_buf a _ _) l s
@[simp] theorem CoreSt.wg_spawning : (s.wg n w).spawning = s.spawning := by unfold CoreSt.wg; split_ifs <;> rfl
@[simp] theorem CoreSt.writes_spawning : (l.foldl (fun s p => s.wg p.1 p.2) s).spawning = s.spawning :=
  foldl_keeps (fun s : CoreSt => s.spawning) _ (fun a _ => CoreSt.wg_spawning a _ _) l s
@[simp] theorem CoreSt.wg_call : (s.wg n w).call = s.call := by unfold CoreSt.wg; split_ifs <;> rfl
@[simp] theorem CoreSt.writes_call : (l.foldl (fun s p => s.wg p.1 p.2) s).call = s.call :=
  foldl_keeps (fun s : CoreSt => s.call) _ (fun a _ => CoreSt.wg_call a _ _) l s
@[simp] theorem CoreSt.wg_xfers : (s.wg n w).xfers = s.xfers := by unfold CoreSt.wg; split_ifs <;> rfl
@[simp] theorem CoreSt.writes_xfers : (l.foldl (fun s p => s.wg p.1 p.2) s).xfers = s.xfers :=
  foldl_keeps (fun s : CoreSt => s.xfers) _ (fun a _ => CoreSt.wg_xfers a _ _) l s
@[simp] theorem CoreSt.wg_sup : (s.wg n w).sup = s.sup := by unfold CoreSt.wg; split_ifs <;> rfl
@[simp] theorem CoreSt.writes_sup : (l.foldl (fun s p => s.wg p.1 p.2) s).sup = s.sup :=
  foldl_keeps (fun s : CoreSt => s.sup) _ (fun a _ => CoreSt.wg_sup a _ _) l s
@[simp] theorem CoreSt.wg_ie : (s.wg n w).ie = s.ie := by unfold CoreSt.wg; split_ifs <;> rfl
@[simp] theorem CoreSt.writes_ie : (l.foldl (fun s p => s.wg p.1 p.2) s).ie = s.ie :=
  foldl_keeps (fun s : CoreSt => s.ie) _ (fun a _ => CoreSt.wg_ie a _ _) l s
@[simp] theorem CoreSt.wg_prevSup : (s.wg n w).prevSup = s.prevSup := by unfold CoreSt.wg; split_ifs <;> rfl
@[simp] theorem CoreSt.writes_prevSup : (l.foldl (fun s p => s.wg p.1 p.2) s).prevSup = s.prevSup :=
  foldl_keeps (fun s : CoreSt => s.prevSup) _ (fun a _ => CoreSt.wg_prevSup a _ _) l s
@[simp] theorem CoreSt.wg_epc : (s.wg n w).epc = s.epc := by unfold CoreSt.wg; split_ifs <;> rfl
@[simp] theorem CoreSt.writes_epc : (l.foldl (fun s p => s.wg p.1 p.2) s).epc = s.epc :=
  foldl_keeps (fun s : CoreSt => s.epc) _ (fun a _ => CoreSt.wg_epc a _ _) l s
@[simp] theorem CoreSt.wg_ecause : (s.wg n w).ecause = s.ecause := by unfold CoreSt.wg; split_ifs <;> rfl
@[simp] theorem CoreSt.writes_ecause : (l.foldl (fun s p => s.wg p.1 p.2) s).ecause = s.ecause :=
  foldl_keeps (fun s : CoreSt => s.ecause) _ (fun a _ => CoreSt.wg_ecause a _ _) l s
@[simp] theorem CoreSt.wg_ivec : (s.wg n w).ivec = s.ivec := by unfold CoreSt.wg; split_ifs <;> rfl
@[simp] theorem CoreSt.writes_ivec : (l.foldl (fun s p => s.wg p.1 p.2) s).ivec = s.ivec :=
  foldl_keeps (fun s : CoreSt => s.ivec) _ (fun a _ => CoreSt.wg_ivec a _ _) l s
@[simp] theorem CoreSt.wg_imask : (s.wg n w).imask = s.imask := by unfold CoreSt.wg; split_ifs <;> rfl
@[simp] theorem CoreSt.writes_imask : (l.foldl (fun s p => s.wg p.1 p.2) s).imask = s.imask :=
  foldl_keeps (fun s : CoreSt => s.imask) _ (fun a _ => CoreSt.wg_imask a _ _) l s
@[simp] theorem CoreSt.wg_ipend : (s.wg n w).ipend = s.ipend := by unfold CoreSt.wg; split_ifs <;> rfl
@[simp] theorem CoreSt.writes_ipend : (l.foldl (fun s p => s.wg p.1 p.2) s).ipend = s.ipend :=
  foldl_keeps (fun s : CoreSt => s.ipend) _ (fun a _ => CoreSt.wg_ipend a _ _) l s
@[simp] theorem CoreSt.wg_tcmp : (s.wg n w).tcmp = s.tcmp := by unfold CoreSt.wg; split_ifs <;> rfl
@[simp] theorem CoreSt.writes_tcmp : (l.foldl (fun s p => s.wg p.1 p.2) s).tcmp = s.tcmp :=
  foldl_keeps (fun s : CoreSt => s.tcmp) _ (fun a _ => CoreSt.wg_tcmp a _ _) l s
@[simp] theorem CoreSt.wg_tarmed : (s.wg n w).tarmed = s.tarmed := by unfold CoreSt.wg; split_ifs <;> rfl
@[simp] theorem CoreSt.writes_tarmed : (l.foldl (fun s p => s.wg p.1 p.2) s).tarmed = s.tarmed :=
  foldl_keeps (fun s : CoreSt => s.tarmed) _ (fun a _ => CoreSt.wg_tarmed a _ _) l s
@[simp] theorem CoreSt.wg_win : (s.wg n w).win = s.win := by unfold CoreSt.wg; split_ifs <;> rfl
@[simp] theorem CoreSt.writes_win : (l.foldl (fun s p => s.wg p.1 p.2) s).win = s.win :=
  foldl_keeps (fun s : CoreSt => s.win) _ (fun a _ => CoreSt.wg_win a _ _) l s
@[simp] theorem CoreSt.writeCr_g : (s.writeCr cr w).g = s.g := by
  unfold CoreSt.writeCr; split <;> first | rfl | (split_ifs <;> rfl)
@[simp] theorem CoreSt.writeCr_wait : (s.writeCr cr w).wait = s.wait := by
  unfold CoreSt.writeCr; split <;> first | rfl | (split_ifs <;> rfl)
@[simp] theorem CoreSt.writeCr_pc : (s.writeCr cr w).pc = s.pc := by
  unfold CoreSt.writeCr; split <;> first | rfl | (split_ifs <;> rfl)
@[simp] theorem CoreSt.writeCr_acc : (s.writeCr cr w).acc = s.acc := by
  unfold CoreSt.writeCr; split <;> first | rfl | (split_ifs <;> rfl)
@[simp] theorem CoreSt.writeCr_x : (s.writeCr cr w).x = s.x := by
  unfold CoreSt.writeCr; split <;> first | rfl | (split_ifs <;> rfl)
@[simp] theorem CoreSt.writeCr_xb : (s.writeCr cr w).xb = s.xb := by
  unfold CoreSt.writeCr; split <;> first | rfl | (split_ifs <;> rfl)
@[simp] theorem CoreSt.writeCr_xl : (s.writeCr cr w).xl = s.xl := by
  unfold CoreSt.writeCr; split <;> first | rfl | (split_ifs <;> rfl)
@[simp] theorem CoreSt.writeCr_tcr : (s.writeCr cr w).tcr = s.tcr := by
  unfold CoreSt.writeCr; split <;> first | rfl | (split_ifs <;> rfl)
@[simp] theorem CoreSt.writeCr_loop0 : (s.writeCr cr w).loop0 = s.loop0 := by
  unfold CoreSt.writeCr; split <;> first | rfl | (split_ifs <;> rfl)
@[simp] theorem CoreSt.writeCr_loop1 : (s.writeCr cr w).loop1 = s.loop1 := by
  unfold CoreSt.writeCr; split <;> first | rfl | (split_ifs <;> rfl)
@[simp] theorem CoreSt.writeCr_mem : (s.writeCr cr w).mem = s.mem := by
  unfold CoreSt.writeCr; split <;> first | rfl | (split_ifs <;> rfl)
@[simp] theorem CoreSt.writeCr_takeAt : (s.writeCr cr w).takeAt = s.takeAt := by
  unfold CoreSt.writeCr; split <;> first | rfl | (split_ifs <;> rfl)
@[simp] theorem CoreSt.writeCr_takeSub : (s.writeCr cr w).takeSub = s.takeSub := by
  unfold CoreSt.writeCr; split <;> first | rfl | (split_ifs <;> rfl)
@[simp] theorem CoreSt.writeCr_item : (s.writeCr cr w).item = s.item := by
  unfold CoreSt.writeCr; split <;> first | rfl | (split_ifs <;> rfl)
@[simp] theorem CoreSt.writeCr_buf : (s.writeCr cr w).buf = s.buf := by
  unfold CoreSt.writeCr; split <;> first | rfl | (split_ifs <;> rfl)
@[simp] theorem CoreSt.writeCr_spawning : (s.writeCr cr w).spawning = s.spawning := by
  unfold CoreSt.writeCr; split <;> first | rfl | (split_ifs <;> rfl)
@[simp] theorem CoreSt.writeCr_call : (s.writeCr cr w).call = s.call := by
  unfold CoreSt.writeCr; split <;> first | rfl | (split_ifs <;> rfl)
@[simp] theorem CoreSt.writeCr_xfers : (s.writeCr cr w).xfers = s.xfers := by
  unfold CoreSt.writeCr; split <;> first | rfl | (split_ifs <;> rfl)
@[simp] theorem CoreSt.writeCr_prevSup : (s.writeCr cr w).prevSup = s.prevSup := by
  unfold CoreSt.writeCr; split <;> first | rfl | (split_ifs <;> rfl)
@[simp] theorem CoreSt.writeCr_ecause : (s.writeCr cr w).ecause = s.ecause := by
  unfold CoreSt.writeCr; split <;> first | rfl | (split_ifs <;> rfl)

end

/-! ## What an effect writes -/

section
variable (e : Eff) (s : CoreSt)

@[simp] theorem Eff.apply_g : (e.apply s).g = (e.g.foldl (fun s p => s.wg p.1 p.2) s).g := by
  unfold Eff.apply; simp only; split <;> simp
@[simp] theorem Eff.apply_acc : (e.apply s).acc = e.acc.foldl (fun m p => Cells.set 0 p.1 p.2 m) s.acc := by
  unfold Eff.apply; simp only; split <;> simp
@[simp] theorem Eff.apply_x : (e.apply s).x = e.x.foldl (fun m p => Cells.set 0 p.1 p.2 m) s.x := by
  unfold Eff.apply; simp only; split <;> simp
@[simp] theorem Eff.apply_xb : (e.apply s).xb = e.xb.foldl (fun m p => Cells.set 0 p.1 p.2 m) s.xb := by
  unfold Eff.apply; simp only; split <;> simp
@[simp] theorem Eff.apply_xl : (e.apply s).xl = e.xl.foldl (fun m p => Cells.set 0 p.1 p.2 m) s.xl := by
  unfold Eff.apply; simp only; split <;> simp
@[simp] theorem Eff.apply_tcr : (e.apply s).tcr = e.tcr.getD s.tcr := by
  unfold Eff.apply; simp only; split <;> simp
@[simp] theorem Eff.apply_mem : (e.apply s).mem = e.mem.foldl (fun m p => Cells.insert (p.1 % 65536) p.2 m) s.mem := by
  unfold Eff.apply; simp only; split <;> simp
@[simp] theorem Eff.apply_wait : (e.apply s).wait = s.wait := by
  unfold Eff.apply; simp only; split <;> simp
@[simp] theorem Eff.apply_pc : (e.apply s).pc = s.pc := by
  unfold Eff.apply; simp only; split <;> simp
@[simp] theorem Eff.apply_loop0 : (e.apply s).loop0 = s.loop0 := by
  unfold Eff.apply; simp only; split <;> simp
@[simp] theorem Eff.apply_loop1 : (e.apply s).loop1 = s.loop1 := by
  unfold Eff.apply; simp only; split <;> simp
@[simp] theorem Eff.apply_takeAt : (e.apply s).takeAt = s.takeAt := by
  unfold Eff.apply; simp only; split <;> simp
@[simp] theorem Eff.apply_takeSub : (e.apply s).takeSub = s.takeSub := by
  unfold Eff.apply; simp only; split <;> simp
@[simp] theorem Eff.apply_item : (e.apply s).item = s.item := by
  unfold Eff.apply; simp only; split <;> simp
@[simp] theorem Eff.apply_buf : (e.apply s).buf = s.buf := by
  unfold Eff.apply; simp only; split <;> simp
@[simp] theorem Eff.apply_spawning : (e.apply s).spawning = s.spawning := by
  unfold Eff.apply; simp only; split <;> simp
@[simp] theorem Eff.apply_call : (e.apply s).call = s.call := by
  unfold Eff.apply; simp only; split <;> simp
@[simp] theorem Eff.apply_xfers : (e.apply s).xfers = s.xfers := by
  unfold Eff.apply; simp only; split <;> simp
@[simp] theorem Eff.apply_prevSup : (e.apply s).prevSup = s.prevSup := by
  unfold Eff.apply; simp only; split <;> simp
@[simp] theorem Eff.apply_ecause : (e.apply s).ecause = s.ecause := by
  unfold Eff.apply; simp only; split <;> simp

/-- FLAGS after an effect that writes no control register. -/
theorem Eff.apply_flags (h : e.cr = none) : (e.apply s).flags = putFlags e.flags s.flags := by
  unfold Eff.apply; rw [h]; simp

/-- A write of another control register leaves FLAGS. -/
theorem CoreSt.writeCr_flags {cr : Nat} (h : cr ≠ 0) (w : Word) : (s.writeCr cr w).flags = s.flags := by
  unfold CoreSt.writeCr; split <;> first | contradiction | rfl | (split_ifs <;> rfl)

/-- An effect that does not write FLAGS leaves them. -/
theorem Eff.apply_flags_keep (h : RegRef.cr 0 ∉ e.writes) : (e.apply s).flags = s.flags := by
  have hf : e.flags = [] := by
    by_contra hf
    apply h; unfold Eff.writes; simp [hf]
  have hc : ∀ p, e.cr = some p → p.1 ≠ 0 := by
    intro p hp hp0; apply h; unfold Eff.writes; simp [hp, hp0]
  unfold Eff.apply
  simp only
  split
  · next p hp => rw [CoreSt.writeCr_flags _ (hc p hp)]; simp [hf, putFlags]
  · simp [hf, putFlags]

/-- An effect leaves a general register that it does not write. -/
theorem Eff.apply_rg_keep (r : GReg) (hl : ∀ p ∈ e.g, p.1 < 32) (h : RegRef.g r.val ∉ e.writes) :
    (e.apply s).rg r = s.rg r := by
  rw [CoreSt.rg_congr (Eff.apply_g e s)]
  apply CoreSt.rg_writes_ne
  intro p hp
  refine ⟨hl p hp, fun e' => h ?_⟩
  unfold Eff.writes
  simp only [List.mem_append, List.mem_map, RegRef.g.injEq]
  exact .inl (.inl (.inl (.inl (.inl (.inl (.inl (.inl (.inl ⟨p, hp, e'⟩))))))))

end

/-! ## Two effects of one bundle -/

/-- Every general register that an instruction without an exception writes has a number below 32. -/
theorem Chip.coreEff_g_lt (c : Chip) (k : Nat) (s : CoreSt) (d : Nat) (op : CoreOp) (h : c.opCauses k s op = []) :
    ∀ p ∈ (c.coreEff k s d op).g, p.1 < 32 := by
  intro p hp
  cases op
  case ld rd m =>
    have hr := rd.isLt
    simp only [Chip.coreEff, Chip.loadWords, Chip.localWords, List.mem_map] at hp
    obtain ⟨q, hq, rfl⟩ := hp
    have hz := List.mem_zipIdx hq
    have hi : memIllegal m rd = false := by
      by_contra hc
      simp only [Bool.not_eq_false] at hc
      simp [Chip.opCauses, hc] at h
    simp only [memIllegal, decide_eq_false_iff_not, not_or, not_not] at hi
    have hm := hi.2.2.2
    simp only [List.length_map, List.length_range] at hz
    unfold memWords at hm hz
    split_ifs at hm hz <;> simp at hz hm ⊢ <;> omega
  case ldpl rd ra imm =>
    have hr := rd.isLt
    simp only [Chip.coreEff, List.mem_map, List.mem_range] at hp
    obtain ⟨i, hi, rfl⟩ := hp
    have hm : rd.val % 8 = 0 := by
      by_contra hc
      simp [Chip.opCauses, hc] at h
    simp only
    omega
  all_goals
    simp only [Chip.coreEff, Eff.res, Eff.reg, Eff.accRes, Eff.accVal, Chip.tapEff] at hp
    first
    | (simp at hp; done)
    | (simp only [List.mem_singleton] at hp; subst hp; exact Fin.isLt _)
    | (split_ifs at hp <;> simp at hp <;> subst hp <;> first | exact Fin.isLt _ | (show (27 : Nat) < 32; decide))

/-- No register is written by both slots of a bundle without an exception (R243). -/
theorem bundle_apart {a b : CoreOp} {ea eb : Eff} (h : bundleIllegal a b ea eb = false) (r : RegRef)
    (hr : r ∈ ea.writes) : r ∉ eb.writes := by
  intro hb
  unfold bundleIllegal at h
  simp only [Bool.or_eq_false_iff, List.any_eq_false, List.contains_iff_mem, List.mem_append] at h
  exact h.1.1.1 r (.inl hr) (.inl hb)

/-- An instruction that acts in its own core does nothing beside it. -/
theorem Chip.engineOp_inCore (k : CoreId) (s : CoreSt) (op : CoreOp) (h : actsInCore k op = true) (c : Chip) :
    c.engineOp k.val s op = c := by
  cases op
  case csrr rd cr =>
    have hn : ¬ (cr.toNat = 3 ∧ isChannelCore k.val = true) := by
      rintro ⟨h1, h2⟩
      have h3 : (!(decide (cr.toNat = 3) && isChannelCore k.val)) = true := h
      rw [h1, h2] at h3
      exact absurd h3 (by decide)
    exact if_neg hn
  all_goals first | (cases h; done) | rfl

section
variable (j sk : Option Nat) (lp : Option (Nat × LoopSt)) (s : CoreSt)
@[simp] theorem CoreSt.goOn_g : (s.goOn j sk lp).g = s.g := by
  unfold CoreSt.goOn; cases j
  · simp only; split <;> split <;> rfl
  · rfl
@[simp] theorem CoreSt.goOn_wait : (s.goOn j sk lp).wait = s.wait := by
  unfold CoreSt.goOn; cases j
  · simp only; split <;> split <;> rfl
  · rfl
@[simp] theorem CoreSt.goOn_acc : (s.goOn j sk lp).acc = s.acc := by
  unfold CoreSt.goOn; cases j
  · simp only; split <;> split <;> rfl
  · rfl
@[simp] theorem CoreSt.goOn_x : (s.goOn j sk lp).x = s.x := by
  unfold CoreSt.goOn; cases j
  · simp only; split <;> split <;> rfl
  · rfl
@[simp] theorem CoreSt.goOn_xb : (s.goOn j sk lp).xb = s.xb := by
  unfold CoreSt.goOn; cases j
  · simp only; split <;> split <;> rfl
  · rfl
@[simp] theorem CoreSt.goOn_xl : (s.goOn j sk lp).xl = s.xl := by
  unfold CoreSt.goOn; cases j
  · simp only; split <;> split <;> rfl
  · rfl
@[simp] theorem CoreSt.goOn_tcr : (s.goOn j sk lp).tcr = s.tcr := by
  unfold CoreSt.goOn; cases j
  · simp only; split <;> split <;> rfl
  · rfl
@[simp] theorem CoreSt.goOn_flags : (s.goOn j sk lp).flags = s.flags := by
  unfold CoreSt.goOn; cases j
  · simp only; split <;> split <;> rfl
  · rfl
@[simp] theorem CoreSt.goOn_mem : (s.goOn j sk lp).mem = s.mem := by
  unfold CoreSt.goOn; cases j
  · simp only; split <;> split <;> rfl
  · rfl
@[simp] theorem CoreSt.goOn_takeAt : (s.goOn j sk lp).takeAt = s.takeAt := by
  unfold CoreSt.goOn; cases j
  · simp only; split <;> split <;> rfl
  · rfl
@[simp] theorem CoreSt.goOn_takeSub : (s.goOn j sk lp).takeSub = s.takeSub := by
  unfold CoreSt.goOn; cases j
  · simp only; split <;> split <;> rfl
  · rfl
@[simp] theorem CoreSt.goOn_item : (s.goOn j sk lp).item = s.item := by
  unfold CoreSt.goOn; cases j
  · simp only; split <;> split <;> rfl
  · rfl
@[simp] theorem CoreSt.goOn_buf : (s.goOn j sk lp).buf = s.buf := by
  unfold CoreSt.goOn; cases j
  · simp only; split <;> split <;> rfl
  · rfl
@[simp] theorem CoreSt.goOn_call : (s.goOn j sk lp).call = s.call := by
  unfold CoreSt.goOn; cases j
  · simp only; split <;> split <;> rfl
  · rfl
@[simp] theorem CoreSt.goOn_spawning : (s.goOn j sk lp).spawning = s.spawning := by
  unfold CoreSt.goOn; cases j
  · simp only; split <;> split <;> rfl
  · rfl
@[simp] theorem CoreSt.goOn_xfers : (s.goOn j sk lp).xfers = s.xfers := by
  unfold CoreSt.goOn; cases j
  · simp only; split <;> split <;> rfl
  · rfl
@[simp] theorem CoreSt.goOn_sup : (s.goOn j sk lp).sup = s.sup := by
  unfold CoreSt.goOn; cases j
  · simp only; split <;> split <;> rfl
  · rfl
@[simp] theorem CoreSt.goOn_ie : (s.goOn j sk lp).ie = s.ie := by
  unfold CoreSt.goOn; cases j
  · simp only; split <;> split <;> rfl
  · rfl
@[simp] theorem CoreSt.goOn_prevSup : (s.goOn j sk lp).prevSup = s.prevSup := by
  unfold CoreSt.goOn; cases j
  · simp only; split <;> split <;> rfl
  · rfl
@[simp] theorem CoreSt.goOn_epc : (s.goOn j sk lp).epc = s.epc := by
  unfold CoreSt.goOn; cases j
  · simp only; split <;> split <;> rfl
  · rfl
@[simp] theorem CoreSt.goOn_ecause : (s.goOn j sk lp).ecause = s.ecause := by
  unfold CoreSt.goOn; cases j
  · simp only; split <;> split <;> rfl
  · rfl
@[simp] theorem CoreSt.goOn_ivec : (s.goOn j sk lp).ivec = s.ivec := by
  unfold CoreSt.goOn; cases j
  · simp only; split <;> split <;> rfl
  · rfl
@[simp] theorem CoreSt.goOn_imask : (s.goOn j sk lp).imask = s.imask := by
  unfold CoreSt.goOn; cases j
  · simp only; split <;> split <;> rfl
  · rfl
@[simp] theorem CoreSt.goOn_ipend : (s.goOn j sk lp).ipend = s.ipend := by
  unfold CoreSt.goOn; cases j
  · simp only; split <;> split <;> rfl
  · rfl
@[simp] theorem CoreSt.goOn_tcmp : (s.goOn j sk lp).tcmp = s.tcmp := by
  unfold CoreSt.goOn; cases j
  · simp only; split <;> split <;> rfl
  · rfl
@[simp] theorem CoreSt.goOn_tarmed : (s.goOn j sk lp).tarmed = s.tarmed := by
  unfold CoreSt.goOn; cases j
  · simp only; split <;> split <;> rfl
  · rfl
@[simp] theorem CoreSt.goOn_win : (s.goOn j sk lp).win = s.win := by
  unfold CoreSt.goOn; cases j
  · simp only; split <;> split <;> rfl
  · rfl
end

/-- A bundle that raises nothing: neither its fetch, nor R243, nor either slot. -/
theorem Chip.bundleCauses_nil {c : Chip} {k : Nat} {s : CoreSt} {op mate : CoreOp} (h : c.bundleCauses k s op mate = []) :
    c.fetchCauses k = [] ∧ bundleIllegal op mate (c.coreEff k s c.draws op) (c.coreEff k s (c.draws + 1) mate) = false ∧
      c.opCauses k s op = [] ∧ c.opCauses k s mate = [] := by
  unfold Chip.bundleCauses at h
  cases hf : c.fetchCauses k with
  | cons a l => simp [hf] at h
  | nil =>
    simp only [hf, List.isEmpty_nil, Bool.not_true, Bool.false_eq_true, if_false, List.append_eq_nil_iff] at h
    refine ⟨rfl, ?_, h.1.2, h.2⟩
    by_contra e
    simp only [Bool.not_eq_false] at e
    simp [e] at h

/-- A core that goes on at an address where no custom function begins or ends: the library does nothing (R270). -/
theorem Chip.library_idle (c d : Chip) (k : Nat) (h : d.crossesCustom k (c.core k).pc = false)
    (hc : (c.core k).call = (d.core k).call) (hi : (c.core k).item = (d.core k).item) (h1 : c.chans = d.chans)
    (h2 : ∀ ch, c.desc ch = d.desc ch) (h3 : c.customs = d.customs) :
    (c.libraryCall k (d.core k).pc).libraryReturn k = c := by
  have e1 : c.libraryCall k (d.core k).pc = c := by
    unfold Chip.libraryCall
    unfold Chip.crossesCustom at h
    simp only [hi, h1, h2, h3, hc]
    cases hi' : (d.core k).item with
    | none => rfl
    | some ch =>
      simp only
      cases hch : Cells.find? ch d.chans with
      | none => rfl
      | some t =>
        simp only
        cases hx : Cells.find? (dbits (d.desc ch) 23 5 0) d.customs with
        | none => rfl
        | some x =>
          simp only
          rw [if_pos]
          cases hcall : (d.core k).call with
          | some t => simp
          | none =>
            simp only [hcall, hi', hch, hx, Option.isSome_some, Bool.and_eq_false_iff] at h
            by_contra hne
            simp only [Bool.or_eq_true, not_or, Bool.not_eq_true, Option.isSome_none] at hne
            simp_all
  rw [e1]
  unfold Chip.libraryReturn
  unfold Chip.crossesCustom at h
  simp only [hc]
  cases hcall : (d.core k).call with
  | none => rfl
  | some t =>
    simp only [hcall] at h ⊢
    rw [if_pos]
    by_contra hne
    simp_all

/-- The local words that a bundle stores to. -/
def Chip.storedBy (c : Chip) (k : Nat) (op mate : CoreOp) : List Nat :=
  ((c.coreEff k (c.core k) c.draws op).mem ++ (c.coreEff k (c.core k) (c.draws + 1) mate).mem).map (fun p => p.1 % 65536)

/-- The device after a bundle of two instructions that act in their core: that core alone has changed, and the words that it
stores to hold no error. -/
def Chip.bundleAfter (c : Chip) (k : Nat) (op mate : CoreOp) : Chip :=
  { c with draws := c.draws + 2, upsets := (c.freshWords k (c.storedBy k op mate)).upsets
           cores := Cells.set {} k (c.coreAfter k op mate) c.cores }

theorem Chip.core_bundleAfter (c : Chip) (k : Nat) (op mate : CoreOp) :
    (c.bundleAfter k op mate).core k = c.coreAfter k op mate := Cells.get_set_same _ _ _ _

/-- What a bundle of two instructions that act in their core does: it changes that core alone. -/
theorem Chip.bundle_inCore (k : CoreId) (op mate : CoreOp) (s : State) (h : Issues k op mate s)
    (ho : actsInCore k op = true) (hm : actsInCore k mate = true) :
    s.chip.bundle k.val op mate = s.chip.bundleAfter k.val op mate := by
  obtain ⟨⟨hw, hf, hst, hc, hx, hy⟩, hz⟩ := h
  unfold Chip.bundle
  simp only [hw, ne_eq, not_true_eq_false, if_false, hf, Bool.not_true, Bool.false_eq_true, hc, List.isEmpty_nil,
    hst, hx, hy, Bool.false_and, Bool.or_self]
  unfold Chip.issue
  simp only
  rw [Chip.engineOp_inCore k _ op ho, Chip.engineOp_inCore k _ mate hm]
  have e : (({ s.chip with draws := s.chip.draws + 2 } : Chip).modCore k.val (fun a =>
      ((s.chip.coreEff k.val (s.chip.core k.val) (s.chip.draws + 1) mate).apply
        ((s.chip.coreEff k.val (s.chip.core k.val) s.chip.draws op).apply a)).goOn
          ((s.chip.coreEff k.val (s.chip.core k.val) s.chip.draws op).jump.or
            (s.chip.coreEff k.val (s.chip.core k.val) (s.chip.draws + 1) mate).jump)
          ((s.chip.coreEff k.val (s.chip.core k.val) s.chip.draws op).skip.or
            (s.chip.coreEff k.val (s.chip.core k.val) (s.chip.draws + 1) mate).skip)
          ((s.chip.coreEff k.val (s.chip.core k.val) s.chip.draws op).loop.or
            (s.chip.coreEff k.val (s.chip.core k.val) (s.chip.draws + 1) mate).loop))).freshWords k.val
              (s.chip.storedBy k.val op mate) = s.chip.bundleAfter k.val op mate := rfl
  unfold Chip.storedBy at e
  rw [e]
  refine Chip.library_idle _ s.chip k.val ?_ ?_ ?_ rfl (fun ch => rfl) rfl
  · rw [Chip.core_bundleAfter]; exact hz
  · rw [Chip.core_bundleAfter]; unfold Chip.coreAfter; simp
  · rw [Chip.core_bundleAfter]; unfold Chip.coreAfter; simp

/-- The command of a bundle runs the bundle. -/
theorem exec_bundleInstr (k : CoreId) (op mate : CoreOp) (s : State) :
    exec (bundleInstr k mate op) s = s.run (Chip.bundle k.val op mate) := by
  cases op <;> rfl

/-- A bundle of two instructions that act in their core: the next state. -/
theorem exec_inCore (k : CoreId) (op mate : CoreOp) (s : State) (h : Issues k op mate s)
    (ho : actsInCore k op = true) (hm : actsInCore k mate = true) :
    exec (bundleInstr k mate op) s = .next { s with chip := s.chip.bundleAfter k.val op mate } := by
  rw [exec_bundleInstr, State.run_eq, Chip.bundle_inCore k op mate s h ho hm]; rfl

/-- Neither slot raises an exception, and R243 finds nothing. -/
theorem Issues.causes {k : CoreId} {op mate : CoreOp} {s : State} (h : Issues k op mate s) :
    bundleIllegal op mate (s.chip.coreEff k.val (s.chip.core k.val) s.chip.draws op)
      (s.chip.coreEff k.val (s.chip.core k.val) (s.chip.draws + 1) mate) = false ∧
    s.chip.opCauses k.val (s.chip.core k.val) op = [] ∧ s.chip.opCauses k.val (s.chip.core k.val) mate = [] := by
  exact (Chip.bundleCauses_nil h.1.2.2.2.1).2

/-- A general register that the first slot writes: the second leaves it. -/
theorem Chip.coreAfter_rg {k : CoreId} {op mate : CoreOp} {s : State} (h : Issues k op mate s) (r : GReg)
    (hr : RegRef.g r.val ∈ (s.chip.coreEff k.val (s.chip.core k.val) s.chip.draws op).writes) :
    (s.chip.coreAfter k.val op mate).rg r =
      ((s.chip.coreEff k.val (s.chip.core k.val) s.chip.draws op).apply (s.chip.core k.val)).rg r := by
  obtain ⟨h1, -, h3⟩ := h.causes
  unfold Chip.coreAfter
  simp only
  rw [CoreSt.rg_congr (CoreSt.goOn_g _ _ _ _)]
  exact Eff.apply_rg_keep _ _ _ (Chip.coreEff_g_lt _ _ _ _ _ h3) (bundle_apart h1 _ hr)

/-- FLAGS, where the first slot writes them: the second leaves them. -/
theorem Chip.coreAfter_flags {k : CoreId} {op mate : CoreOp} {s : State} (h : Issues k op mate s)
    (hr : RegRef.cr 0 ∈ (s.chip.coreEff k.val (s.chip.core k.val) s.chip.draws op).writes) :
    (s.chip.coreAfter k.val op mate).flags =
      ((s.chip.coreEff k.val (s.chip.core k.val) s.chip.draws op).apply (s.chip.core k.val)).flags := by
  obtain ⟨h1, -, -⟩ := h.causes
  unfold Chip.coreAfter
  simp only
  rw [CoreSt.goOn_flags]
  exact Eff.apply_flags_keep _ _ (bundle_apart h1 _ hr)

/-! ## Results and flags -/

theorem signed_toNat (w : Word) : signed 36 w.toNat = w.toInt := by
  unfold signed BitVec.toInt
  simp only [Nat.mod_eq_of_lt w.isLt]

theorem signed_toNat80 (w : AccWord) : signed 80 w.toNat = w.toInt := by
  unfold signed BitVec.toInt
  simp only [Nat.mod_eq_of_lt w.isLt]

theorem unsignedOf_eq (n : Nat) (i : Int) : unsignedOf n i = (BitVec.ofInt n i).toNat := by
  rw [BitVec.toNat_ofInt]; rfl

theorem ruleS_36 (sat : Bool) (r : Int) : ruleS 36 sat r = (word36 sat r).toNat := by
  unfold ruleS word36
  rw [unsignedOf_eq]
  congr 2
  cases sat
  · simp
  · have h1 : ((2 ^ (36 - 1) : Nat) : Int) = 2 ^ 35 := by norm_num
    by_cases hf : fits 36 r = true
    · have := hf
      simp only [fits, decide_eq_true_eq, h1] at this
      simp only [hf, Bool.not_true, Bool.and_false, Bool.false_eq_true, if_false, if_true]
      omega
    · have := hf
      simp only [fits, decide_eq_true_eq, h1, not_and_or, not_le, not_lt] at this
      simp only [hf, Bool.not_false, Bool.and_true, if_true, satN, h1]
      split_ifs <;> omega

theorem ruleS_80 (sat : Bool) (r : Int) : ruleS 80 sat r = (word80 sat r).toNat := by
  unfold ruleS word80
  rw [unsignedOf_eq]
  congr 2
  cases sat
  · simp
  · have h1 : ((2 ^ (80 - 1) : Nat) : Int) = 2 ^ 79 := by norm_num
    by_cases hf : fits 80 r = true
    · have := hf
      simp only [fits, decide_eq_true_eq, h1] at this
      simp only [hf, Bool.not_true, Bool.and_false, Bool.false_eq_true, if_false, if_true]
      omega
    · have := hf
      simp only [fits, decide_eq_true_eq, h1, not_and_or, not_le, not_lt] at this
      simp only [hf, Bool.not_false, Bool.and_true, if_true, satN, h1]
      split_ifs <;> omega

theorem fits_36 (r : Int) : fits 36 r = fits36 r := by
  unfold fits fits36; norm_num

theorem fits_80 (r : Int) : fits 80 r = fits80 r := by
  unfold fits fits80; norm_num

/-- A flag set to a value. -/
theorem testBit_flag (f i : Nat) (b : Bool) (j : Nat) : (nput f i i (b2n b)).testBit j = if j = i then b else f.testBit j := by
  rw [testBit_nput _ _ (le_refl i)]
  by_cases h : j = i
  · subst h; rw [if_pos ⟨le_refl _, le_refl _⟩, if_pos rfl]; cases b <;> simp [b2n]
  · rw [if_neg (by omega), if_neg h]

theorem msb_testBit (n : Nat) (w : BitVec (n + 1)) : w.toNat.testBit n = w.msb := by
  rw [BitVec.msb_eq_getLsbD_last]; simp [BitVec.getLsbD]

theorem toNat_beq_zero {n : Nat} (w : BitVec n) : (w.toNat == 0) = (w == 0) := by
  rw [Bool.eq_iff_iff]; simp [BitVec.toNat_eq]

/-- FLAGS after Z, N and V, SAT where it is set, and C where it is. -/
theorem flagsSet_put (f : Nat) (z n v sat : Bool) (carry : Option Bool) :
    FlagsSet f (putFlags ([(Fg.Z, z), (Fg.N, n)] ++ [(Fg.V, v)] ++ (if sat then [(Fg.SAT, true)] else []) ++
      (match carry with | some b => [(Fg.C, b)] | none => [])) f) z n v sat carry := by
  unfold FlagsSet
  refine ⟨?_, ?_, ?_, ?_, ?_, ?_⟩ <;> cases sat <;> cases carry <;>
    simp only [putFlags, Fg.Z, Fg.N, Fg.V, Fg.SAT, Fg.C, testBit_flag, List.cons_append, List.nil_append, List.append_nil,
      List.foldl_cons, List.foldl_nil, if_true, Bool.false_eq_true, if_false] <;>
    simp <;> intros <;> simp_all

theorem Eff.res_writes_g (rd : GReg) (r : Res) : RegRef.g rd.val ∈ (Eff.res rd r).writes := by
  simp [Eff.writes, Eff.res]

theorem Eff.res_writes_flags (rd : GReg) (r : Res) (h : r.flags ≠ []) : RegRef.cr 0 ∈ (Eff.res rd r).writes := by
  simp [Eff.writes, Eff.res, h]

theorem Eff.res_rg (rd : GReg) (r : Res) (s : CoreSt) :
    ((Eff.res rd r).apply s).rg rd = if rd.val = 0 then 0 else BitVec.ofNat 36 r.val := by
  rw [CoreSt.rg_congr (Eff.apply_g _ _)]
  exact CoreSt.rg_writes_mem _ _ _ _ (by simp [Eff.res]) (by simp [Eff.res]) (by simp [Eff.res])

theorem Eff.res_flags (rd : GReg) (r : Res) (s : CoreSt) : ((Eff.res rd r).apply s).flags = putFlags r.flags s.flags :=
  Eff.apply_flags _ _ rfl

/-- A bundle of two instructions that act in their core completes, and the core is the one after both slots. -/
theorem completes_inCore {k : CoreId} {op mate : CoreOp} {s : State} (h : Issues k op mate s)
    (ho : actsInCore k op = true) (hm : actsInCore k mate = true) {p : State → Prop}
    (hp : ∀ t : State, t.chip.core k.val = s.chip.coreAfter k.val op mate → p t) : Completes (bundleInstr k mate op) s p :=
  ⟨_, exec_inCore k op mate s h ho hm, hp _ (Cells.get_set_same _ _ _ _)⟩

/-- An instruction whose effect is one result: RD and FLAGS after its bundle. -/
theorem coreAfter_res {k : CoreId} {op mate : CoreOp} {s : State} (h : Issues k op mate s) (rd : GReg) (r : Res)
    (hf : r.flags ≠ []) (he : s.chip.coreEff k.val (s.chip.core k.val) s.chip.draws op = Eff.res rd r) :
    (s.chip.coreAfter k.val op mate).rg rd = (if rd.val = 0 then 0 else BitVec.ofNat 36 r.val) ∧
    (s.chip.coreAfter k.val op mate).flags = putFlags r.flags (s.chip.core k.val).flags := by
  constructor
  · rw [Chip.coreAfter_rg h rd (by rw [he]; exact Eff.res_writes_g rd r), he, Eff.res_rg]
  · rw [Chip.coreAfter_flags h (by rw [he]; exact Eff.res_writes_flags rd r hf), he, Eff.res_flags]

/-- The result of an arithmetic instruction, with its carry where it has one. -/
def arithRes (sat : Bool) (r : Int) (carry : Option Bool) : Res :=
  match carry with
  | some b => (arith 36 sat r).withC b
  | none => arith 36 sat r

theorem arithDone_of {k : CoreId} {op mate : CoreOp} {s : State} (h : Issues k op mate s)
    (ho : actsInCore k op = true) (hm : actsInCore k mate = true) (sat : Bool) (rd : GReg) (r : Int) (carry : Option Bool)
    (he : s.chip.coreEff k.val (s.chip.core k.val) s.chip.draws op = Eff.res rd (arithRes sat r carry)) :
    Completes (bundleInstr k mate op) s (ArithDone k sat rd r carry s) := by
  refine completes_inCore h ho hm (fun t ht => ?_)
  obtain ⟨h1, h2⟩ := coreAfter_res h rd (arithRes sat r carry)
    (by cases carry <;> simp [arithRes, arith, znFlags, Res.withC]) he
  have hv : (arithRes sat r carry).val = (word36 sat r).toNat := by
    cases carry <;> exact ruleS_36 sat r
  unfold ArithDone
  rw [ht, h1, h2, hv]
  refine ⟨by rw [BitVec.ofNat_toNat, BitVec.setWidth_eq], ?_⟩
  have hz : (ruleS 36 sat r == 0) = (word36 sat r == 0) := by rw [ruleS_36]; exact toNat_beq_zero _
  have hn : (ruleS 36 sat r).testBit 35 = (word36 sat r).msb := by rw [ruleS_36]; exact msb_testBit 35 _
  have := flagsSet_put (s.chip.core k.val).flags (word36 sat r == 0) (word36 sat r).msb (!fits36 r) (sat && !fits36 r) carry
  cases carry <;>
    simpa [arithRes, arith, znFlags, Res.withC, hz, hn, fits_36] using this

theorem logicDone_of {k : CoreId} {op mate : CoreOp} {s : State} (h : Issues k op mate s)
    (ho : actsInCore k op = true) (hm : actsInCore k mate = true) (rd : GReg) (w : Word)
    (he : s.chip.coreEff k.val (s.chip.core k.val) s.chip.draws op = Eff.res rd (logic w.toNat)) :
    Completes (bundleInstr k mate op) s (LogicDone k rd w s) := by
  refine completes_inCore h ho hm (fun t ht => ?_)
  obtain ⟨h1, h2⟩ := coreAfter_res h rd (logic w.toNat) (by simp [logic, znFlags]) he
  unfold LogicDone
  rw [ht, h1, h2]
  refine ⟨by simp [logic], ?_⟩
  have := flagsSet_put (s.chip.core k.val).flags (w == 0) w.msb false false none
  simpa [logic, znFlags, toNat_beq_zero, msb_testBit 35 w] using this

/-! ## What an instruction of its own core leaves -/

/-- The registers that an instruction of its own core writes are those of Table 9.7. -/
theorem Chip.coreEff_writes (c : Chip) (k : CoreId) (s : CoreSt) (d : Nat) (op : CoreOp) (h : actsInCore k op = true) :
    ∀ r ∈ (c.coreEff k.val s d op).writes, r ∈ opDests op := by
  intro r hr
  cases op
  case ld rd m =>
    simp only [Chip.coreEff, Eff.writes, Chip.loadWords, Chip.localWords, CoreSt.stepped, opDests] at hr ⊢
    simp only [List.map_map, List.map_nil, List.append_nil, List.mem_append, List.mem_map, Option.isSome_none,
      Bool.false_eq_true, if_false, List.isEmpty_nil, if_true] at hr
    rcases hr with ⟨q, hq, rfl⟩ | ⟨q, hq, rfl⟩
    · have hz := List.mem_zipIdx hq
      simp only [List.length_map, List.length_range] at hz
      exact List.mem_append_left _ (List.mem_map.2 ⟨q.2, List.mem_range.2 (by omega), rfl⟩)
    · refine List.mem_append_right _ ?_
      split_ifs at hq ⊢ with hu
      · simp only [List.mem_singleton] at hq; subst hq; simp
      · simp at hq
  case st rs m =>
    simp only [Chip.coreEff, Eff.writes, CoreSt.stepped, opDests] at hr ⊢
    split_ifs at hr ⊢ <;> simp_all
  case ldpl rd ra imm => simpa [Chip.coreEff, Eff.writes, opDests, Function.comp_def, eq_comm] using hr
  case csrr rd cr =>
    simp only [Chip.coreEff, opDests] at hr ⊢
    split_ifs at hr <;> simp_all [Eff.writes, Eff.reg]
  case jr rd ra =>
    simp only [Chip.coreEff, opDests] at hr ⊢
    split_ifs at hr <;> simp_all [Eff.writes]
  case br cond link off =>
    simp only [Chip.coreEff, opDests] at hr ⊢
    split_ifs at hr ⊢ <;> simp_all [Eff.writes]
  case loop lv reg cnt body =>
    simp only [Chip.coreEff, opDests] at hr ⊢
    split_ifs at hr <;> simp_all [Eff.writes]
  all_goals first
    | (cases h; done)
    | (simpa [Chip.coreEff, Eff.writes, Eff.res, Eff.reg, Eff.accRes, Eff.accVal, Chip.tapEff, opDests, arith, logic,
        znFlags, Res.withC, compare36] using hr)

/-- The local words that an instruction of its own core stores to. -/
theorem Chip.coreEff_mem (c : Chip) (k : Nat) (s : CoreSt) (d : Nat) (op : CoreOp) :
    ∀ p ∈ (c.coreEff k s d op).mem, p.1 % 65536 ∈ opStores s op := by
  intro p hp
  cases op
  case st rs m =>
    simp only [Chip.coreEff, List.mem_map, opStores] at hp ⊢
    obtain ⟨i, hi, rfl⟩ := hp
    exact ⟨i, hi, rfl⟩
  case tapm sb ad xa mode =>
    simp only [Chip.coreEff, Chip.tapEff, opStores, List.mem_cons, List.not_mem_nil, or_false] at hp ⊢
    rcases hp with rfl | rfl | rfl | rfl <;> simp
  all_goals
    simp only [Chip.coreEff, Eff.res, Eff.reg, Eff.accRes, Eff.accVal] at hp
    first | (simp at hp; done) | (split_ifs at hp <;> simp at hp)

theorem foldl_set_ne {β : Type} [DecidableEq β] (d e : β) (l : List (Nat × β)) (m : Cells β) (n : Nat) (h : n ∉ l.map Prod.fst) :
    Cells.get e n (l.foldl (fun m p => Cells.set d p.1 p.2 m) m) = Cells.get e n m := by
  induction l generalizing m with
  | nil => rfl
  | cons p r ih =>
    simp only [List.map_cons, List.mem_cons, not_or] at h
    rw [List.foldl_cons, ih _ h.2, Cells.get_set_ne d e h.1]

theorem foldl_insert_ne {β : Type} (l : List (Nat × β)) (m : Cells β) (n : Nat) (h : n ∉ l.map (fun p => p.1 % 65536)) :
    Cells.find? n (l.foldl (fun m p => Cells.insert (p.1 % 65536) p.2 m) m) = Cells.find? n m := by
  induction l generalizing m with
  | nil => rfl
  | cons p r ih =>
    simp only [List.map_cons, List.mem_cons, not_or] at h
    rw [List.foldl_cons, ih _ h.2, Cells.find?_insert_ne h.1]

/-- Control registers from 0x10 on depend on what a control core holds for them. -/
theorem CoreSt.readCr_congr {a b : CoreSt} (k n : Nat) (hn : 16 ≤ n) (h1 : a.sup = b.sup) (h2 : a.ie = b.ie)
    (h3 : a.epc = b.epc) (h4 : a.ecause = b.ecause) (h5 : a.ivec = b.ivec) (h6 : a.imask = b.imask)
    (h7 : a.ipend = b.ipend) (h8 : a.tcmp = b.tcmp) (h9 : a.win = b.win) : a.readCr k n = b.readCr k n := by
  unfold CoreSt.readCr
  split <;> first | omega | simp only [h1, h2, h3, h4, h5, h6, h7, h8, h9]

/-- A write of a control register leaves every other from 0x10 on. -/
theorem CoreSt.writeCr_readCr (s : CoreSt) (k cr : Nat) (w : Word) (n : Nat) (hn : 16 ≤ n) (h : cr ≠ n) :
    (s.writeCr cr w).readCr k n = s.readCr k n := by
  have hne : 0x18 ≤ n → 0x18 ≤ cr → n - 0x18 ≠ cr - 0x18 := by omega
  unfold CoreSt.writeCr
  split
  case h_8 =>
    split_ifs with hc
    · unfold CoreSt.readCr
      split
      case h_12 =>
        split_ifs with h2
        · rw [Cells.get_set_ne _ _ (hne h2.1 hc.1)]
        · rfl
      all_goals rfl
    · rfl
  all_goals
    unfold CoreSt.readCr
    split <;> first | rfl | omega | contradiction

/-- What an effect does not write, it leaves: the registers beside the general ones, and local words. -/
theorem Eff.apply_keeps (e : Eff) (s : CoreSt) :
    (∀ n, RegRef.acc n ∉ e.writes → Cells.get 0 n (e.apply s).acc = Cells.get 0 n s.acc) ∧
    (∀ n, RegRef.x n ∉ e.writes → Cells.get 0 n (e.apply s).x = Cells.get 0 n s.x) ∧
    (∀ n, RegRef.xb n ∉ e.writes → Cells.get 0 n (e.apply s).xb = Cells.get 0 n s.xb) ∧
    (∀ n, RegRef.xl n ∉ e.writes → Cells.get 0 n (e.apply s).xl = Cells.get 0 n s.xl) ∧
    (RegRef.tcr ∉ e.writes → (e.apply s).tcr = s.tcr) ∧
    (∀ k n, 16 ≤ n → RegRef.cr n ∉ e.writes → (e.apply s).readCr k n = s.readCr k n) ∧
    (∀ n, n ∉ e.mem.map (fun p => p.1 % 65536) → Cells.find? n (e.apply s).mem = Cells.find? n s.mem) := by
  refine ⟨fun n h => ?_, fun n h => ?_, fun n h => ?_, fun n h => ?_, fun h => ?_, fun k n hn h => ?_, fun n h => ?_⟩
  · rw [Eff.apply_acc, foldl_set_ne]; intro h'; apply h; unfold Eff.writes
    rw [List.mem_map] at h'; obtain ⟨p, hp, rfl⟩ := h'; simp only [List.mem_append]
    exact .inl (.inl (.inl (.inl (.inl (.inl (.inl (.inl (.inr (List.mem_map_of_mem hp)))))))))
  · rw [Eff.apply_x, foldl_set_ne]; intro h'; apply h; unfold Eff.writes
    rw [List.mem_map] at h'; obtain ⟨p, hp, rfl⟩ := h'; simp only [List.mem_append]
    exact .inl (.inl (.inl (.inl (.inl (.inl (.inl (.inr (List.mem_map_of_mem hp))))))))
  · rw [Eff.apply_xb, foldl_set_ne]; intro h'; apply h; unfold Eff.writes
    rw [List.mem_map] at h'; obtain ⟨p, hp, rfl⟩ := h'; simp only [List.mem_append]
    exact .inl (.inl (.inl (.inl (.inl (.inl (.inr (List.mem_map_of_mem hp)))))))
  · rw [Eff.apply_xl, foldl_set_ne]; intro h'; apply h; unfold Eff.writes
    rw [List.mem_map] at h'; obtain ⟨p, hp, rfl⟩ := h'; simp only [List.mem_append]
    exact .inl (.inl (.inl (.inl (.inl (.inr (List.mem_map_of_mem hp))))))
  · rw [Eff.apply_tcr]
    cases ht : e.tcr with
    | none => rfl
    | some w => exact absurd (by unfold Eff.writes; simp [ht]) h
  · have hc : ∀ p, e.cr = some p → p.1 ≠ n := by
      intro p hp hp0; apply h; unfold Eff.writes; simp [hp, hp0]
    have base : ∀ (l : List (Nat × Word)) (u : CoreSt), (l.foldl (fun s p => s.wg p.1 p.2) u).readCr k n = u.readCr k n :=
      fun l u => CoreSt.readCr_congr k n hn (by simp) (by simp) (by simp) (by simp) (by simp) (by simp) (by simp) (by simp) (by simp)
    unfold Eff.apply
    simp only
    split
    · next p hp =>
      rw [CoreSt.writeCr_readCr _ _ _ _ _ hn (hc p hp), ← base e.g s]
      exact CoreSt.readCr_congr k n hn rfl rfl rfl rfl rfl rfl rfl rfl rfl
    · rw [← base e.g s]
      exact CoreSt.readCr_congr k n hn rfl rfl rfl rfl rfl rfl rfl rfl rfl
  · rw [Eff.apply_mem, foldl_insert_ne _ _ _ h]
end Sys2Proof.Machine
end

