-- ==== Sys2Proof/Laws/Memory.lean ====
section
/-! SUPPORT. What the memory operations keep: the canonical form of the DRAM, the chute pool, the mix store and the local
memories; and what a word of DRAM reads as after a write. -/
namespace Sys2Proof.Machine

open Sys2Proof

variable (c : Chip)

/-! ## Tables -/

theorem Cells.rising_filter {β : Type} (f : Nat × β → Bool) (m : Cells β) (o : Option Nat) (h : Cells.rising o m = true) :
    Cells.rising o (m.filter f) = true := by
  induction m generalizing o with
  | nil => exact h
  | cons p r ih =>
    obtain ⟨a, x⟩ := p
    rw [Cells.rising_cons] at h
    rw [List.filter_cons]
    split_ifs
    · rw [Cells.rising_cons]; exact ⟨h.1, ih (some a) h.2⟩
    · have := ih (some a) h.2
      cases hf : r.filter f with
      | nil => rfl
      | cons q t =>
        obtain ⟨b, y⟩ := q
        rw [hf, Cells.rising_cons] at this
        rw [Cells.rising_cons]
        exact ⟨fun j hj => lt_trans (h.1 j hj) (this.1 a rfl), this.2⟩

/-- Removing a range of keys keeps the canonical form. -/
theorem Cells.wf_clear {β : Type} [DecidableEq β] (d : Nat → β) (a b : Nat) (m : Cells β) (h : Cells.wf d m = true) :
    Cells.wf d (Cells.clear a b m) = true := by
  rw [Cells.wf_iff] at h ⊢
  exact ⟨Cells.rising_filter _ m none h.1, fun p hp => h.2 p (List.mem_filter.1 hp).1⟩

theorem foldl_insert_rising {β γ : Type} (key : γ → Nat) (val : γ → β) (l : List γ) (m : Cells β)
    (h : Cells.rising none m = true) :
    Cells.rising none (l.foldl (fun m p => Cells.insert (key p) (val p) m) m) = true := by
  induction l generalizing m with
  | nil => exact h
  | cons p r ih => exact ih _ (Cells.rising_insert _ _ m none h (fun j hj => by cases hj))

/-! ## The DRAM -/

theorem Chip.dramWf_iff : c.dramWf = true ↔
    Cells.rising none c.dram = true ∧ ∀ p ∈ c.dram, ¬(p.2 = zeroBurst ∧ c.isZeroed p.1 = true) := by
  simp only [Chip.dramWf, Bool.and_eq_true, List.all_eq_true, Bool.not_eq_true', Bool.and_eq_false_iff, decide_eq_false_iff_not,
    Bool.not_eq_true, not_and_or]

/-- Two devices with the same DRAM have the same canonical form of it. -/
theorem Chip.dramWf_congr {a b : Chip} (h1 : a.dram = b.dram) (h2 : a.zeroed = b.zeroed) : a.dramWf = b.dramWf := by
  unfold Chip.dramWf Chip.isZeroed; rw [h1, h2]

theorem Chip.dramWf_setBurst (b : Nat) (x : Burst) (h : c.dramWf = true) : (c.setBurst b x).dramWf = true := by
  rw [Chip.dramWf_iff] at h ⊢
  unfold Chip.setBurst
  simp only
  split_ifs with hz
  · exact ⟨Cells.rising_erase b c.dram none h.1, fun p hp => h.2 p (Cells.mem_erase hp)⟩
  · refine ⟨Cells.rising_insert b x c.dram none h.1 (fun j hj => by cases hj), fun p hp => ?_⟩
    rcases Cells.mem_insert hp with rfl | hp
    · exact hz
    · exact h.2 p hp

theorem Chip.dramWf_putBurst (b : Nat) (ws : List Word) (h : c.dramWf = true) : (c.putBurst b ws).dramWf = true := by
  unfold Chip.putBurst; split_ifs
  · exact Chip.dramWf_setBurst c _ _ h
  · exact h

theorem Chip.dramWf_poison (b : Nat) (h : c.dramWf = true) : (c.poison b).dramWf = true := by
  unfold Chip.poison; split_ifs
  · exact Chip.dramWf_setBurst c _ _ h
  · exact h

@[simp] theorem Chip.setElog_dram (l : List (List Word)) : (c.setElog l).dram = c.dram := (rfl)
@[simp] theorem Chip.setElog_zeroed (l : List (List Word)) : (c.setElog l).zeroed = c.zeroed := (rfl)

theorem Chip.pushElog_dram (ty : Nat) (e : List Word) :
    (c.pushElog ty e).dram = c.dram ∧ (c.pushElog ty e).zeroed = c.zeroed := by
  unfold Chip.pushElog
  simp only
  split_ifs
  · exact ⟨rfl, rfl⟩
  · exact ⟨rfl, rfl⟩
  · split <;> exact ⟨rfl, rfl⟩

/-- Logging an event about a burst leaves the DRAM. -/
theorem Chip.logDram_dram (ty src b dev beat : Nat) :
    (c.logDram ty src b dev beat).dram = c.dram ∧ (c.logDram ty src b dev beat).zeroed = c.zeroed := by
  unfold Chip.logDram
  simp only
  have h := Chip.pushElog_dram
  have h2 : ∀ (b : Bool) (d : Chip), (d.iff b (Chip.bump F.fault_CNT_COUNT 1 0)).dram = d.dram ∧
      (d.iff b (Chip.bump F.fault_CNT_COUNT 1 0)).zeroed = d.zeroed := by
    intro b d; cases b <;> exact ⟨rfl, rfl⟩
  rw [(h _ _ _).1, (h _ _ _).2, (h2 _ _).1, (h2 _ _).2]
  split <;> exact ⟨rfl, rfl⟩

theorem Chip.dramWf_putSlice (src b off : Nat) (ws : List Word) (h : c.dramWf = true) :
    (c.putSlice src b off ws).dramWf = true := by
  unfold Chip.putSlice
  split_ifs
  · rw [Chip.dramWf_congr (Chip.logDram_dram c _ _ _ _ _).1 (Chip.logDram_dram c _ _ _ _ _).2]; exact h
  · exact Chip.dramWf_putBurst c _ _ h
  · exact Chip.dramWf_putBurst c _ _ h
  all_goals
    rw [Chip.dramWf_congr (Chip.logDram_dram _ _ _ _ _ _).1 (Chip.logDram_dram _ _ _ _ _ _).2]
    exact Chip.dramWf_poison c _ h

/-- A write of words to DRAM keeps its canonical form. -/
theorem Chip.dramWf_putWords (a : Nat) (ws : List Word) (src : Nat) (h : c.dramWf = true) :
    (c.putWords a ws src).dramWf = true := by
  unfold Chip.putWords
  generalize List.range _ = l
  induction l generalizing c with
  | nil => exact h
  | cons i r ih => exact ih _ (Chip.dramWf_putSlice c _ _ _ _ h)

/-! ## The other memories -/

/-- An entry stored in the chute pool keeps its canonical form. -/
theorem Chip.poolWf_putEntry (a : Nat) (e : Entry) (h : Cells.wf (fun _ => ({ word := 0 } : Entry)) c.pool = true) :
    Cells.wf (fun _ => ({ word := 0 } : Entry)) (c.putEntry a e).pool = true := Cells.wf_set (fun _ => _) a e _ h

/-- A cell of the mix store written keeps its canonical form. -/
theorem Chip.mixWf_setCell (a : Nat) (v : Int) (h : Cells.wf (fun _ => (0 : Int)) c.mix = true) :
    Cells.wf (fun _ => (0 : Int)) (c.setCell a v).mix = true := Cells.wf_set (fun _ => 0) a _ _ h

/-- Local words written by an engine keep the rising order. -/
theorem Chip.localWf_putLocal (k a : Nat) (ws : List Word) (h : Cells.rising none (c.core k).mem = true) :
    Cells.rising none ((c.putLocal k a ws).core k).mem = true := by
  unfold Chip.putLocal
  rw [Chip.core_modCore_same]
  exact foldl_insert_rising (fun p : Word × Nat => (a + p.2) % 65536) (fun p => p.1) _ _ h

/-- The words that an instruction stores keep the rising order. -/
theorem Eff.localWf_apply (e : Eff) (s : CoreSt) (h : Cells.rising none s.mem = true) :
    Cells.rising none (e.apply s).mem = true := by
  rw [Eff.apply_mem]
  exact foldl_insert_rising (fun p : Nat × Word => p.1 % 65536) (fun p => p.2) _ _ h

/-- Every memory of the device after reset is in its canonical form. -/
theorem reset_memoryWf : State.reset.memoryWf = true := by decide

/-! ## Reading back -/

/-- A burst in terms of what is listed for it. -/
theorem Chip.burst_eq (b : Nat) : c.burst b = (Cells.find? b c.dram).getD (if c.isZeroed b = true then zeroBurst
    else { ws := (List.range 16).map (fun i => Config.dramWord (16 * b + i)), bad := if Config.dramUncorrectable b then 2 else 0 }) := by
  unfold Chip.burst; cases Cells.find? b c.dram <;> rfl

theorem Chip.setBurst_zeroed (b d : Nat) (x : Burst) : (c.setBurst b x).isZeroed d = c.isZeroed d := rfl

theorem Chip.burst_setBurst_same (b : Nat) (x : Burst) : (c.setBurst b x).burst b = x := by
  rw [Chip.burst_eq, Chip.setBurst_zeroed]
  unfold Chip.setBurst
  by_cases h : x = zeroBurst ∧ c.isZeroed b = true
  · obtain ⟨rfl, hz⟩ := h
    simp only [hz, and_self, if_true, Cells.find?_erase_same, Option.getD_none]
  · simp only [if_neg h, Cells.find?_insert_same, Option.getD_some]

theorem Chip.burst_setBurst_ne {b d : Nat} (h : d ≠ b) (x : Burst) : (c.setBurst b x).burst d = c.burst d := by
  rw [Chip.burst_eq, Chip.burst_eq, Chip.setBurst_zeroed]
  congr 1
  unfold Chip.setBurst
  simp only
  split_ifs
  · exact Cells.find?_erase_ne h _
  · exact Cells.find?_insert_ne h _ _

theorem Chip.setBurst_bursts (b : Nat) (x : Burst) : (c.setBurst b x).dramBursts = c.dramBursts := by
  unfold Chip.dramBursts
  congr 1

theorem Chip.putBurst_eq (b : Nat) (ws : List Word) (h : b < c.dramBursts) : c.putBurst b ws = c.setBurst b { ws := ws } := by
  unfold Chip.putBurst; simp only [h, if_true]

theorem burstSpan_one (a : Nat) : burstSpan a 1 = 1 := by
  unfold burstSpan; simp

/-- One word written inside a burst that can be read. -/
theorem Chip.putSlice_one (src b off : Nat) (w : Word) (h : c.burstOk b = true) (hl : b < c.dramBursts) :
    c.putSlice src b off [w] = c.setBurst b { ws := mergeWords off [w] (c.burst b).ws } := by
  unfold Chip.putSlice
  have hn : ¬ c.dramBursts ≤ b := Nat.not_le.2 hl
  have h16 : ¬ ([w] : List Word).length = 16 := by simp only [List.length_singleton]; decide
  rw [if_neg hn, if_neg h16, if_pos h, Chip.putBurst_eq _ _ _ hl]

theorem Chip.putWord_slice (a src : Nat) (w : Word) : c.putWord a w src = c.putSlice src (a / 16) (a % 16) [w] := by
  have ht : ([w] : List Word).take (16 - a % 16) = [w] := List.take_of_length_le (by
    have := Nat.mod_lt a (by decide : 16 > 0); simp only [List.length_singleton]; omega)
  unfold Chip.putWord Chip.putWords
  rw [List.length_singleton, burstSpan_one, List.range_one, List.foldl_cons, List.foldl_nil]
  show c.putSlice src (a / 16) (a % 16) (([w] : List Word).take (16 - a % 16)) = _
  rw [ht]

/-- A write of one word to a burst that can be read. -/
theorem Chip.putWord_eq (a : Nat) (w : Word) (src : Nat) (h : c.burstOk (a / 16) = true) :
    c.putWord a w src = c.setBurst (a / 16) { ws := mergeWords (a % 16) [w] (c.burst (a / 16)).ws } := by
  have hl : a / 16 < c.dramBursts := by
    unfold Chip.burstOk at h; simp only [Bool.and_eq_true, decide_eq_true_eq] at h; exact h.1
  rw [Chip.putWord_slice]
  exact Chip.putSlice_one c src _ _ w h hl

theorem Chip.putWord_ok (a d : Nat) (w : Word) (src : Nat) (h : c.burstOk (a / 16) = true) :
    (c.putWord a w src).burstOk d = c.burstOk d := by
  rw [Chip.putWord_eq c a w src h]
  unfold Chip.burstOk
  rw [Chip.setBurst_bursts]
  by_cases hd : d = a / 16
  · subst hd
    rw [Chip.burst_setBurst_same]
    unfold Chip.burstOk at h
    rw [h]
    simp only [Bool.and_eq_true] at h
    rw [h.1]; rfl
  · rw [Chip.burst_setBurst_ne c hd]

theorem mergeWords_get (off i : Nat) (w : Word) (old : List Word) (hi : i < 16) :
    (mergeWords off [w] old).getD i 0 = if i = off then w else old.getD i 0 := by
  unfold mergeWords
  rw [List.getD_eq_getElem?_getD, List.getElem?_map, List.getElem?_range hi]
  simp only [Option.map_some, Option.getD_some, List.length_singleton]
  by_cases h : i = off
  · subst h; simp
  · rw [if_neg (by omega), if_neg h]

/-- A word written to a burst that can be read: it reads back, and every other word stands. -/
theorem Chip.word_putWord (a b : Nat) (w : Word) (src : Nat) (h : c.burstOk (a / 16) = true) :
    (c.putWord a w src).word b = if b = a then w else c.word b := by
  unfold Chip.word
  rw [Chip.putWord_ok c a (b / 16) w src h, Chip.putWord_eq c a w src h]
  by_cases hd : b / 16 = a / 16
  · rw [hd, if_pos h, Chip.burst_setBurst_same, if_pos h, mergeWords_get _ _ _ _ (Nat.mod_lt _ (by decide))]
    by_cases hba : b = a
    · subst hba; rw [if_pos rfl, if_pos rfl]
    · rw [if_neg hba, if_neg (by omega)]
  · have hne : b ≠ a := fun e => hd (by rw [e])
    rw [if_neg hne, Chip.burst_setBurst_ne c hd]

end Sys2Proof.Machine
end

