-- ==== Sys2Proof/WellFormed.lean ====
section
/-! DEFINITION. Which commands can be sent: the loader is no sender (R516), an offset of a 36-bit or 32-bit access names a
slot (R9, R432), octets are present where a command carries some, and a list of readings has its full length. exec is total:
an ill-formed command is one that no sender sends. -/
namespace Sys2Proof

/-- A requester that sends commands: the PCIe link or a control core. -/
def sends (q : Requester) : Bool := decide (q ≠ .loader)

/-- The offset of a slot (R9). -/
def aligned (off : BitVec 26) : Bool := decide (off.toNat % 8 = 0)

/-- Octets that a command carries. -/
def whole (l : List Octet) : Bool := !l.isEmpty

/-- A command that a sender can send.
[DESIGN CHOICE, log entry 114: safe] -/
def Instr.wf (i : Instr) : Bool :=
  match i with
  | .registerWrite q off _ => sends q && aligned off
  | .readAndClear q off => sends q && aligned off
  | .bar0LowWrite q off _ => sends q && aligned off
  | .bar0HighWrite q off _ => sends q && aligned off
  | .bar0LowRead off _ => aligned off
  | .bar0BadAccess _ _ => true
  | .bar2Read _ _ => true
  | .bar2Write _ _ _ => true
  | .timeNowRead q => sends q
  | .macCounterLowRead q _ _ => sends q
  | .faultLastRead q => sends q
  | .coredbgLastexcRead q => sends q
  | .mcElogRead q => sends q
  | .kerfCoefdataAccess q _ => sends q
  | .sampleTick => true
  | .blockBoundary => true
  | .timeRateWrite q _ => sends q
  | .stepGo q _ => sends q
  | .timeSourceWrite q _ => sends q
  | .servoExchange _ _ _ _ _ _ _ _ _ => true
  | .holdoverTimeout => true
  | .ppsInEdge _ => true
  | .ppsOutEdge => true
  | .wclkOutEdge => true
  | .freqOutEdge => true
  | .activate q _ => sends q
  | .update q _ => sends q
  | .deactivate q _ => sends q
  | .restart q _ => sends q
  | .read q _ => sends q
  | .channelFirstFrame _ => true
  | .updateApply _ => true
  | .channelRestartResume _ => true
  | .channelIngressFrame => true
  | .jbWindowEnd => true
  | .kerfSwapRequest q _ _ => sends q
  | .kerfSwapPoint _ => true
  | .ringLaneEnable q _ _ => sends q
  | .ringLaneStop q _ _ => sends q
  | .ringLaneRelease _ => true
  | .ringBlockCompute _ _ => true
  | .kerfRequestComplete _ _ => true
  | .busEnable q _ _ => sends q
  | .busDisable q _ _ => sends q
  | .mixBlockOpen _ => true
  | .mixBlockClose _ => true
  | .balerSubmit q _ => sends q
  | .balerJobStart _ => true
  | .balerJobComplete _ _ => true
  | .nop _ _ => true
  | .add _ _ _ _ _ _ => true
  | .sub _ _ _ _ _ _ => true
  | .neg _ _ _ _ _ => true
  | .abs _ _ _ _ _ => true
  | .and _ _ _ _ _ => true
  | .or _ _ _ _ _ => true
  | .xor _ _ _ _ _ => true
  | .andn _ _ _ _ _ => true
  | .shl _ _ _ _ _ _ _ => true
  | .asr _ _ _ _ _ _ => true
  | .lsr _ _ _ _ _ _ => true
  | .asrr _ _ _ _ _ _ => true
  | .min _ _ _ _ _ => true
  | .max _ _ _ _ _ => true
  | .cmp _ _ _ _ => true
  | .cls _ _ _ _ => true
  | .brev _ _ _ _ _ => true
  | .mulf _ _ _ _ _ _ => true
  | .muli _ _ _ _ _ _ => true
  | .mulh _ _ _ _ _ => true
  | .addi _ _ _ _ _ _ => true
  | .andi _ _ _ _ _ => true
  | .ori _ _ _ _ _ => true
  | .lui _ _ _ _ => true
  | .cmpi _ _ _ _ => true
  | .ld _ _ _ _ => true
  | .st _ _ _ _ => true
  | .ldp _ _ _ _ _ => true
  | .ldpl _ _ _ _ _ => true
  | .mac _ _ _ _ _ _ => true
  | .msu _ _ _ _ _ _ => true
  | .mpy _ _ _ _ _ _ => true
  | .clra _ _ _ => true
  | .accr _ _ _ _ _ _ => true
  | .accw _ _ _ _ => true
  | .adda _ _ _ _ _ => true
  | .aget _ _ _ _ _ => true
  | .aput _ _ _ _ _ => true
  | .tapm _ _ _ _ _ _ => true
  | .br _ _ _ _ _ => true
  | .jr _ _ _ _ => true
  | .loop _ _ _ _ _ _ => true
  | .movxSetX _ _ _ _ => true
  | .movxGetX _ _ _ _ => true
  | .movxSetXB _ _ _ _ => true
  | .movxGetXB _ _ _ _ => true
  | .movxSetXL _ _ _ _ => true
  | .movxGetXL _ _ _ _ => true
  | .movxSetTcr _ _ _ => true
  | .movxGetTcr _ _ _ => true
  | .csrr _ _ _ _ => true
  | .csrw _ _ _ _ => true
  | .take _ _ => true
  | .spawn _ _ _ => true
  | .push _ _ _ _ _ => true
  | .pop _ _ _ _ => true
  | .chcDroprest _ _ _ => true
  | .chcCount _ _ _ _ => true
  | .chcPkts _ _ _ _ => true
  | .dmovIn _ _ _ _ _ => true
  | .dmovOut _ _ _ _ _ => true
  | .kreq _ _ _ _ => true
  | .bsub _ _ _ _ _ => true
  | .mxadd _ _ _ _ _ => true
  | .mxrd _ _ _ _ _ => true
  | .txp _ _ _ => true
  | .waite _ _ => true
  | .rdtMt _ _ _ => true
  | .rdtSubtick _ _ _ => true
  | .rdtNs _ _ _ => true
  | .rdtCount _ _ _ => true
  | .rgr _ _ _ _ => true
  | .rgw _ _ _ _ => true
  | .reti _ _ => true
  | .trap _ _ => true
  | .wfi _ _ => true
  | .interruptTaken _ _ => true
  | .watchdog _ => true
  | .timerCompare _ => true
  | .mboxWrite q _ _ => sends q
  | .engineTransferComplete _ _ => true
  | .itemRelease _ => true
  | .readyListSpace _ => true
  | .itemAssign _ => true
  | .itemLanded _ => true
  | .itemDispatch _ => true
  | .writeBackComplete _ => true
  | .sqSubmit q => sends q
  | .sqCancel q => sends q
  | .sqbaseWrite q _ => sends q
  | .sqsizeWrite q _ => sends q
  | .sqtailWrite q _ => sends q
  | .chutePushWrite q _ _ => sends q
  | .chutePushendWrite q _ _ => sends q
  | .chutePopRead q _ => sends q
  | .chuteWordArrive _ => true
  | .chuteDroprestWrite q _ => sends q
  | .chuteCfgWrite q _ _ => sends q
  | .chuteCfgForce q _ _ => sends q
  | .chuteCfgApply _ => true
  | .frameReceive _ octets _ _ => whole octets
  | .flowCacheMissComplete _ => true
  | .flowInsert q => sends q
  | .flowDelete q => sends q
  | .flowLookup q => sends q
  | .flowModify q => sends q
  | .v6set q _ => sends q
  | .v6clear q _ => sends q
  | .launchTimeReached _ => true
  | .gateChangeRequest q _ _ => sends q
  | .gateChangeAbort q _ _ => sends q
  | .gateListExchange _ => true
  | .gateIntervalEnd _ => true
  | .cutThroughThreshold _ => true
  | .boomSelect _ => true
  | .frameTransmitEnd _ => true
  | .shaperWrite q _ _ => sends q
  | .bquotaWrite q _ _ => sends q
  | .tenantCfgWrite q _ _ => sends q
  | .serviceCfgWrite q _ _ => sends q
  | .policerCfgWrite q _ _ => sends q
  | .portEnable q _ _ => sends q
  | .portDisable q _ _ => sends q
  | .linkAligned _ _ _ _ _ => true
  | .linkAlignmentLost _ _ => true
  | .linkFault _ _ _ _ => true
  | .linkFaultClear _ _ => true
  | .txUnderrun _ => true
  | .ctadaptClear q _ => sends q
  | .preemptEnable q _ _ => sends q
  | .verifyTimerExpiry _ => true
  | .verifyMpacketReceived _ => true
  | .respondMpacketReceived _ => true
  | .fragmentReceived _ _ _ octets _ _ => whole octets
  | .segmentEnable q _ _ => sends q
  | .segmentDisable q _ _ => sends q
  | .segmentRecall q _ _ => sends q
  | .hedgerowCycleStart _ => true
  | .pollTimeout _ => true
  | .hgReplyReceived _ octets => whole octets
  | .hgAudioReceived _ octets => whole octets
  | .hgControlReceived _ octets => whole octets
  | .hgControlSend _ => true
  | .hgCollision _ => true
  | .hgBackoffExpiry => true
  | .hgDownEnable q _ _ _ => sends q
  | .mdioWrite q _ => sends q
  | .mdioRead q _ => sends q
  | .mdioComplete _ => true
  | .tdmEnable q _ _ => sends q
  | .tdmFrame _ ins => decide (ins.length ≤ 32)
  | .madiEnable q _ _ => sends q
  | .madiFrameReceived _ ins => decide (ins.length ≤ 64)
  | .madiFrameTransmit _ => true
  | .outputEntryEnable q _ _ => sends q
  | .gpioInputEdge _ _ => true
  | .gpioDebounceExpiry _ => true
  | .gpioTimedQueue q _ => sends q
  | .gpioTimedApply => true
  | .dramRequest _ _ write _ _ ws => decide (ws.length = if write then 16 else 0)
  | .dramCommandIssue _ => true
  | .dramReadComplete _ _ => true
  | .refreshDue _ _ => true
  | .refreshWindowEnd => true
  | .caParityAlert _ _ => true
  | .scrubRead _ => true
  | .driftPauseStart _ _ => true
  | .driftPauseEnd _ _ _ => true
  | .freqPointRequest q _ => sends q
  | .freqChangeStart => true
  | .freqChangeComplete => true
  | .pcieFlr => true
  | .perstNFall => true
  | .d3hotEntry => true
  | .ringEnable q _ _ => sends q
  | .ringDisable q _ _ => sends q
  | .ringTailWrite q _ _ => sends q
  | .ringTx _ _ _ _ octets => whole octets
  | .ringRxFrame _ => true
  | .ringCopy _ _ _ _ octets => whole octets
  | .ringCapture _ _ _ _ _ => true
  | .descriptorComplete _ => true
  | .hostReadTimeout _ _ _ _ => true
  | .msixModerationExpiry _ => true
  | .msixUnmask _ _ => true
  | .mgmtDatagram => true
  | .railsRise => true
  | .railsFall => true
  | .resetOrPwrokFall _ => true
  | .bringupStart _ _ => true
  | .fuseReadComplete => true
  | .flashSetupComplete _ _ => true
  | .imageHeader octets => whole octets
  | .imageRecordRead octets => whole octets
  | .slotResetComplete => true
  | .signatureBlock octets => whole octets
  | .regsRecord => true
  | .programRecord => true
  | .patchRecord => true
  | .customRecord => true
  | .tonesetRecord => true
  | .kerfsetRecord => true
  | .mgmtkeyRecord => true
  | .bootRecord => true
  | .rangerRecord => true
  | .dramzeroRecord => true
  | .dramfillRecord => true
  | .v6addrRecord => true
  | .flowsRecord => true
  | .pass1Complete => true
  | .trainingComplete _ => true
  | .release => true
  | .faultAreaScanEnd => true
  | .requestRun q => sends q
  | .requestEco q => sends q
  | .requestDrain q => sends q
  | .requestTest q => sends q
  | .recoverChannel q => sends q
  | .recoverForwarding q => sends q
  | .recoverBoth q => sends q
  | .stepRequest q => sends q
  | .fatalFault _ _ => true
  | .recoveryFlushEnd _ => true
  | .recoveryCheckEnd _ _ => true
  | .recoveryComplete _ => true
  | .faultRecordWritten => true
  | .flashHalfErased => true
  | .pfailNFall => true
  | .sensorSample temps domains _ => decide (temps.length = 64) && decide (domains.length = 18)
  | .throttleStep => true
  | .throttleRestore => true
  | .tdpCapStep => true
  | .tdpCapRestore => true
  | .utilisationPeriod uses => decide (uses.length = 13)
  | .oppChangeComplete _ => true
  | .clusterGate => true
  | .thermalTrip => true
  | .pmbAlert faults => decide (faults.length = 4)
  | .perstNRise => true
  | .d3hotExit => true
  | .hgFrameFormatDiscard _ octets => whole octets
  | .jtagTckEdge _ _ _ _ => true
  | .jtagTrstNFall => true

end Sys2Proof
end

