-- ==== Sys2Proof/Tests/Slice0.lean ====
section
/-! SUPPORT. Smoke tests of the checks of a command, each with a command that its check refuses; words of the cores' instructions
and what they decode to; known answers of published algorithms; and, for every statement with hypotheses, a concrete state and
operands that meet them, at boundary values. -/
set_option Elab.async false

namespace Sys2Proof.Tests

open Sys2Proof Sys2Proof.Machine

/-- Fields set in registers. -/
def withFields (l : List (Fld × Nat × Nat)) (c : Chip) : Chip := l.foldl (fun c p => c.put p.1 p.2.2 p.2.1) c

/-- The device released, its PCIe link trained. -/
def up : Chip := { State.reset.chip with dev := { released := true, pcieUp := true, perstN := true, resetN := true } }

/-- The device released, in a mode. -/
def upIn (m : Nat) : Chip := withFields [(F.global_MODE_MODE, 0, m), (F.fault_BASE_BASE, 0, m)] up

/-- A core running at program address 0x1000, with registers. -/
def withCore (k : Nat) (f : CoreSt → CoreSt) (c : Chip) : Chip :=
  { c with cores := Cells.set {} k (f { wait := .run, pc := 0 }) c.cores }

/-- A state of a device, with no command waiting. -/
def idle (c : Chip) : State := { pending := [], chip := c }

/-- A requester is answered and holds no half of a write: what most statements about a write assume. -/
abbrev Asks (q : Requester) (c : Chip) : Prop := c.answers q = true ∧ Cells.find? q.idx c.host.held = none

/-- The device with 16 Mi bursts of DRAM, all zero. -/
def zeroed (c : Chip) : Chip := { withFields [(F.mc_STATUS_GIB, 0, 1)] c with zeroed := [(0, 2 ^ 24)] }

/-- The device at the instant of a sample tick. -/
def atTick (n : Nat) (c : Chip) : Chip := { c with time := { c.time with cur := { t := tickInstant n } } }

/-- The key of an L2 frame of zeros on port 0, as KEYSEL selects it after reset. -/
def zeroFrame : FrameSt := { src := 0, data := List.replicate 60 0, missed := true, whole := false }

/-- An entry that drops it. -/
def flowEntry : List Word := (up.keyOf zeroFrame) ++ [0, 2 ^ 34, 0]

/-! ## Commands that no sender sends -/

/-- The loader sends no command (R516). -/
theorem test_wf_loader_sends_none :
    [Instr.registerWrite .loader 0 0, .readAndClear .loader 0, .bar0LowWrite .loader 0 0, .bar0HighWrite .loader 0 0,
      .timeNowRead .loader, .macCounterLowRead .loader 0 0, .faultLastRead .loader, .coredbgLastexcRead .loader,
      .mcElogRead .loader, .kerfCoefdataAccess .loader none, .timeRateWrite .loader 0, .stepGo .loader 0,
      .timeSourceWrite .loader 0, .activate .loader 0, .update .loader 0, .deactivate .loader 0, .restart .loader 0,
      .read .loader 0, .kerfSwapRequest .loader 0 0, .ringLaneEnable .loader 0 0, .ringLaneStop .loader 0 0,
      .busEnable .loader 0 0, .busDisable .loader 0 0, .balerSubmit .loader 0, .mboxWrite .loader 0 0, .sqSubmit .loader,
      .sqCancel .loader, .sqbaseWrite .loader 0, .sqsizeWrite .loader 0, .sqtailWrite .loader 0,
      .chutePushWrite .loader 0 0, .chutePushendWrite .loader 0 0, .chutePopRead .loader 0, .chuteDroprestWrite .loader 0,
      .chuteCfgWrite .loader 0 0, .chuteCfgForce .loader 0 0].all (fun c => !c.wf) = true := by decide

theorem test_wf_loader_sends_none_to_ports :
    [Instr.flowInsert .loader, .flowDelete .loader, .flowLookup .loader, .flowModify .loader, .v6set .loader 0,
      .v6clear .loader 0, .gateChangeRequest .loader 0 0, .gateChangeAbort .loader 0 0, .shaperWrite .loader (.port 0) 0,
      .bquotaWrite .loader 0 0, .tenantCfgWrite .loader 0 0, .serviceCfgWrite .loader 0 0, .policerCfgWrite .loader 0 0,
      .portEnable .loader 0 0, .portDisable .loader 0 0, .ctadaptClear .loader 0, .preemptEnable .loader 0 0,
      .segmentEnable .loader 0 0, .segmentDisable .loader 0 0, .segmentRecall .loader 0 0, .hgDownEnable .loader 0 0 0,
      .mdioWrite .loader 0, .mdioRead .loader 0, .tdmEnable .loader 0 0, .madiEnable .loader 0 0,
      .outputEntryEnable .loader (.tdm 0 0) 0, .gpioTimedQueue .loader 0, .freqPointRequest .loader 0,
      .ringEnable .loader 0 0, .ringDisable .loader 0 0, .ringTailWrite .loader 0 0, .requestRun .loader,
      .requestEco .loader, .requestDrain .loader, .requestTest .loader, .recoverChannel .loader,
      .recoverForwarding .loader, .recoverBoth .loader, .stepRequest .loader].all (fun c => !c.wf) = true := by decide

/-- An offset between two slots is no offset of a 36-bit or a 32-bit access. -/
theorem test_wf_offset_names_a_slot :
    [Instr.registerWrite .kc0 7 0, .readAndClear .kc0 1, .bar0LowWrite .kc0 2 0, .bar0HighWrite .pcie 4 0,
      .bar0LowRead 3 false].all (fun c => !c.wf) = true ∧ (Instr.registerWrite .kc0 8 0).wf = true := by decide

/-- A command that carries octets carries at least one. -/
theorem test_wf_octets_present :
    [Instr.frameReceive 0 [] true false, .fragmentReceived 0 true 0 [] true true, .hgReplyReceived 0 [],
      .hgAudioReceived 0 [], .hgControlReceived 0 [], .hgFrameFormatDiscard 0 [], .ringTx 0 0 0 0 [],
      .ringCopy 0 0 0 0 [], .imageHeader [], .imageRecordRead [], .signatureBlock []].all (fun c => !c.wf) = true ∧
      (Instr.imageHeader [0]).wf = true := by decide

/-- Lists of a fixed or a greatest length. -/
theorem test_wf_lengths :
    [Instr.tdmFrame 0 (List.replicate 33 0), .madiFrameReceived 0 (List.replicate 65 (false, false, 0)),
      .dramRequest 0 false true 0 0 [0], .dramRequest 0 false false 0 0 [0], .sensorSample [0] [0] 0,
      .sensorSample (List.replicate 64 0) [0] 0, .utilisationPeriod [0], .pmbAlert [true]].all (fun c => !c.wf) = true ∧
      [Instr.tdmFrame 0 (List.replicate 32 0), .dramRequest 0 false true 0 0 (List.replicate 16 0),
        .sensorSample (List.replicate 64 0) (List.replicate 18 0) 0].all Instr.wf = true := by decide

/-! ## The bundles of the cores: what the statements assume can be met -/

/-- A control core at address 0 with nothing in its registers. -/
def kcState : State := idle (withCore 96 id up)

/-- A channel core at the highest bundle address. -/
def ccState : State := idle (withCore 95 (fun a => { a with pc := 0x5FFFE }) up)

theorem witness_CoreBundleFrame :
    (∀ op ∈ [CoreOp.add true 31 31 31, .ld 1 ⟨true, 7, 0, 0, 1⟩, .br 0 true 0], Issues 95 op .nop ccState ∧ actsInCore 95 op = true) ∧
      actsInCore 95 .nop = true ∧ Issues 96 .nop (.mac true 7 31 31) kcState := by
  unfold Issues Proceeds; decide

theorem witness_CoreArithmetic :
    ∀ op ∈ [CoreOp.add true 31 31 31, .sub false 1 2 3, .neg true 31 0, .abs true 0 31, .addi true 31 0 0x40000,
        .shl true 1 1 1 63, .muli false 31 31 31, .asr 1 2 3 0, .asrr 1 2 3 63, .mulf true 1 1 1, .mulh 31 1 1,
        .min 1 1 2, .max 1 1 2, .cls 31 31], Issues 95 op .nop ccState := by
  unfold Issues Proceeds; decide

theorem witness_CoreLogicAndCompare :
    ∀ op ∈ [CoreOp.and 31 31 31, .or 1 2 3, .xor 1 1 1, .andn 1 2 3, .lsr 1 2 3 63, .andi 31 0 0x7FFFF, .ori 1 1 0,
        .lui 31 0x7FFFF, .brev 31 31 36, .brev 1 1 0, .cmp 31 31, .cmpi 31 0x40000], Issues 95 op .nop ccState := by
  unfold Issues Proceeds; decide

theorem witness_CoreLoadsAndStores :
    (∀ op ∈ [CoreOp.ld 31 ⟨false, 7, 0, 0, 0xBFFF⟩, .ld 30 ⟨false, 0, 0, 1, 0⟩, .ld 24 ⟨true, 1, 0, 2, 8⟩,
        .st 31 ⟨false, 7, 0, 0, 0xBFFF⟩, .st 24 ⟨true, 7, 0, 2, 8⟩, .ldp 31 0 0, .ldpl 24 0 0], Issues 95 op .nop ccState) ∧
      Issues 99 (.ld 31 ⟨false, 7, 0, 0, 0xFFFF⟩) .nop (idle (withCore 99 id up)) ∧
      ∀ op ∈ [CoreOp.ld 8 ⟨true, 1, 1, 2, 8⟩, .st 8 ⟨true, 1, 2, 2, 0x1FFF8⟩],
        Issues 0 op .nop (idle (withCore 0 (fun a => { a with xl := [(1, 65536)] }) up)) := by
  unfold Issues Proceeds; decide

theorem witness_CoreAccumulatorsAndTapLine :
    ∀ op ∈ [CoreOp.mac true 7 31 31, .msu false 0 1 2, .mpy true 1 2 3, .adda true 7 0, .clra 7, .accw 7 31,
        .accr true 7 31 0, .aget 7 31 2, .aput 7 31 0, .tapm true 7 0 0], Issues 95 op .nop ccState := by
  unfold Issues Proceeds; decide

theorem witness_CoreMoves :
    (∀ op ∈ [CoreOp.setX 7 31, .setXB 0 0, .setXL 7 1, .setTcr 31, .getX 31 7, .getXB 1 0, .getXL 1 7, .getTcr 31, .rdtMt 31,
        .rdtSubtick 1, .rdtNs 1, .rdtCount 31, .csrr 1 0, .csrr 1 3, .csrr 31 0x0F, .csrw 1 0], Issues 95 op .nop ccState) ∧
      ∀ op ∈ [CoreOp.csrr 1 3, .csrr 1 0x10, .csrr 1 0x16, .csrr 1 0x18, .csrr 1 0x1F, .csrw 1 0x10, .csrw 1 0x11,
        .csrw 1 0x13, .csrw 1 0x14, .csrw 1 0x15, .csrw 1 0x16, .csrw 1 0x1F], Issues 96 op .nop kcState := by
  unfold Issues Proceeds; decide

/-- A core at the last bundle of a loop body of one bundle, with one iteration left or two. -/
def loopState (n : Nat) : State := idle (withCore 0 (fun a => { a with pc := 2, loop0 := some ⟨2, 2, n⟩ }) up)

theorem witness_CoreControlFlow :
    (∀ op ∈ [CoreOp.br 0 false 0, .br 14 true 0x20000, .jr 0 0, .jr 31 1, .loop 0 none 1 16383, .loop 0 (some 31) 0 1,
        .loop 0 none 0 1], Issues 95 op .nop ccState) ∧
      (∀ n ∈ [1, 2], Issues 0 .nop .nop (loopState n) ∧ ((loopState n).chip.core 0).loop0 = some ⟨2, 2, n⟩ ∧
        ((loopState n).chip.core 0).loop1 = none) ∧ branches CoreOp.nop = false ∧
      Issues 0 (.loop 1 none 16383 1) .nop (idle (withCore 0 (fun a => { a with pc := 2, loop0 := some ⟨2, 20, 1⟩ }) up)) := by
  unfold Issues Proceeds; decide

/-- A core with the item of channel 5, whose descriptor has FUNC.CUSTOM and a custom function at a position. -/
def customState (pos enc : Nat) : State :=
  let c := withCore 0 (fun a => { a with item := some 5, g := [(31, 0x20000)] }) (zeroed up)
  let c := (c.putWords (c.descAddr 5 + 1) [wofNat (2 ^ 9 + enc * 2 ^ 16)]).putWords (c.descAddr 5 + 23) [wofNat (pos * 2 ^ 6)]
  idle { c with
    chans := [(5, { life := 2 })]
    customs := [(0, { mask := 0, load := 0, entry := 0x20000, cost := 0, state := 0, words := 0 })] }

/-- The library calls the custom function of an item's channel: at each position, the last with an encoder. -/
theorem witness_CoreControlFlow_custom :
    ∀ p ∈ [(0, 0), (2, 0), (3, 1)],
      let s := customState p.1 p.2
      let a := s.chip.core 0
      Proceeds 0 (.jr 27 31) .nop s ∧ inCustom a.pc = false ∧ a.call = none ∧ a.item = some 5 ∧
        (Cells.find? 5 s.chip.chans).map ChanSt.life = some 2 ∧ dFunc (s.chip.desc 5) 9 = true ∧
        dbits (s.chip.desc 5) 23 5 0 = 0 ∧ (Cells.find? 0 s.chip.customs).map CustomSt.entry = some ((a.rg 31).toNat % 2 ^ 19) ∧
        dbits (s.chip.desc 5) 23 7 6 = p.1 ∧ dEncoder (s.chip.desc 5) = p.2 := by
  unfold Proceeds; decide +kernel

theorem witness_CoreAccessReturnAndWait :
    (kcState.chip.core 96).loop0 = none ∧ kcState.chip.dev.released = true ∧
      (∀ op ∈ [CoreOp.rgw 1 2, .rgr 1 2, .reti, .wfi], Issues 96 op .nop kcState) := by
  unfold Issues Proceeds; decide

/-- A control core with interrupts enabled, and channel cores with a pool item and a channel's that cannot be fetched to the
end; a bundle that the image has written, and a word of it that is no instruction. -/
theorem witness_CoreExceptions :
    let c := withCore 99 (fun a => { a with ie := true, sup := false }) (withCore 95 (fun a => { a with item := some 32768 })
      (withCore 94 (fun a => { a with item := some 32767 }) up))
    let s := idle c
    let bad := { c with boot := { c.boot with prog := [(progMem 99 * 2 ^ 18, 1), (progMem 99 * 2 ^ 18 + 1, 0)] } }
    (s.chip.core 99).wait = .run ∧ fetchable (s.chip.core 99).pc = true ∧ s.chip.stands 99 .trap .nop = true ∧
      s.chip.fetchCauses 99 = [] ∧ bad.fetchCauses 99 ≠ [] ∧ bad.bundleCauses 99 (bad.core 99) .nop .nop = bad.fetchCauses 99 ∧
      s.chip.bundleCauses 99 (s.chip.core 99) .trap .nop = [5] ∧ s.chip.stands 95 .reti .nop = true ∧
      s.chip.bundleCauses 95 (s.chip.core 95) .reti .nop = [0] ∧ (s.chip.core 95).item = some 32768 ∧
      s.chip.bundleCauses 94 (s.chip.core 94) .reti .nop = [0] ∧ (s.chip.core 94).item = some 32767 := by decide

theorem witness_CoreEngineStarts :
    let s (n : Word) : State := idle (withCore 95 (fun a => { a with mem := (0, n) :: (List.range 15).map (fun i => (i + 1, 0)) }) up)
    (∀ op ∈ [CoreOp.dmovIn 0 0 0, .dmovIn 0 0 1, .dmovOut 0 0 0xFF, .mxadd 0 0 0, .mxadd 0 0 4, .mxrd 0 0 8, .txp 0, .kreq 0 0,
        .bsub 1 0 3, .waite], Issues 95 op .nop (s 0) ∧ opStores ((s 0).chip.core 95) .nop = []) ∧ Issues 95 (.txp 0) .nop (s 64) := by
  unfold Issues Proceeds; decide

theorem witness_CoreChutesAndItems :
    (∀ op ∈ [CoreOp.push 0 0 true, .pop 31 0, .dropRest 31 0, .chcCount 1 0, .chcPkts 1 0, .take, .spawn 0],
      Issues 95 op .nop ccState) ∧
      (ccState.chip.trySpawn 11 (ccState.chip.localWords 95 0 4)).isSome = true := by
  unfold Issues Proceeds; decide +kernel

/-! ## Decoding: words written out from Table 9.6 and Table 9.7, some of the examples of Table 9.11 -/

theorem test_decode_slots :
    decodeSlot 0 = some .nop ∧
      decodeSlot 0x221200001 = some (.ld 1 { upd := true, xa := 1, mode := 0, sz := 0, off := 1 }) ∧
      decodeSlot 0x262400001 = some (.st 2 { upd := true, xa := 2, mode := 0, sz := 0, off := 1 }) ∧
      decodeSlot 0x400000300 = some (.clra 0) ∧ decodeSlot 0x800080600 = some (.setTcr 1) ∧
      decodeSlot 0x460080000 = some (.tapm true 0 0 1) ∧ decodeSlot 0x420100400 = some (.accr true 0 2 0) ∧
      decodeSlot 0x6800C000C = some (.loop 0 none 48 12) := by decide

/-- A reserved bit, an OP or FN of no row, S where the row has none (R245, R246). -/
theorem test_decode_illegal :
    ∀ w ∈ [1, 0x040000001, 0x040001F00, 0xFC0000000, 0x060000400], decodeSlot w = none := by decide

/-! ## Registers, time, channels and the sample engines: what the statements assume can be met -/

/-- A register of each kind: at the last place of an array, and an offset that names none. -/
theorem witness_RegisterAccessCodes :
    Asks .kc3 up ∧ Asks .pcie up ∧ regAt (0x3FFFFF8 : BitVec 26).toNat = none ∧
      regAt (BitVec.ofNat 26 (RegName.addr .time_STEPLIMIT 0 0)).toNat = some (.time_STEPLIMIT, 0, 0) ∧
      regAt (BitVec.ofNat 26 (RegName.addr .mac_STAT 63 42)).toNat = some (.mac_STAT, 63, 42) ∧
      actsOnWrite .time_STEPLIMIT = false ∧ plainRange .time_STEPLIMIT 0 = false ∧ plainRange .chan_TQUOTA 32768 = false ∧
      actsOnRead .mac_STAT 63 42 = false ∧ actsOnRead .mc_ELOG 1 0 = false := by decide

theorem witness_SplitAccesses :
    let c := { up with host := { held := [(0, (5, 1))], highLatch := some (0x7FFFFF, 15) } }
    c.answers .pcie = true ∧ Cells.find? Requester.pcie.idx c.host.held = some (5, 1) ∧
      c.host.highLatch = some ((0x3FFFFFF : BitVec 26).toNat / 8, 15) := by decide

theorem witness_Bar2Window :
    let c := zeroed (withFields [(F.hostdma_BAR2BASE_BASE, 0, 2 ^ 24 - 1), (F.chan_DESCBASE_BASE, 0, 65536)] up)
    c.answers .pcie = true ∧ (0x3FFFFFFF : BitVec 40).toNat < 2 ^ (c.fld F.hostdma_CFG_BAR2SIZE + 30) ∧
      c.burstOk (2 ^ 24 - 1) = true ∧ c.burstOk (2 ^ 24) = false ∧ c.inDescTable ((2 ^ 24 - 1) * 16) 1 = false ∧
      c.inFlowTable ((2 ^ 24 - 1) * 16 + 15) 1 = false ∧ c.inDescTable (2 ^ 24 * 16) 1 = false ∧
      c.inFlowTable (2 ^ 24 * 16) 1 = false ∧ c.inDescTable (65536 * 16) 1 = true ∧ c.inDescTable 0 1 = false ∧
      c.inFlowTable 0 1 = true ∧ c.inFlowTable ((2 * 2 ^ c.fld F.flume_FTSIZE_K) * 16) 1 = false ∧ c.host.held2 = none := by decide

theorem witness_LatchedReads :
    let c := { up with mc := { elog := [[1, 2, 3, 4]] } }
    Asks .pcie c ∧ c.mc.elog = [[1, 2, 3, 4]] ∧
      c.setInUse (c.fld F.kerf_COEFADDR_BANK) (c.fld F.kerf_COEFADDR_SET) = false := by decide

theorem witness_BadAccessHasNoEffect : up.answers .pcie = true := by decide

theorem witness_CounterHighLatch : up.answers .kc3 = true ∧ (22 = 22 ∨ 22 = 24 ∨ 22 = 42) := by decide

/-- The least and the greatest rate that are accepted, the nearest that are not, and each state and source. -/
theorem witness_TimeWrites :
    let c := withFields [(F.time_STATUS_ARMED, 0, 1)] up
    let h := withFields [(F.time_STATUS_STATE, 0, 3)] up
    Asks .kc0 c ∧ Asks .kc0 h ∧ (∀ n ∈ [0xCCCCCCCD - 3435974, 0xCCCCCCCD + 3435974],
        ¬((BitVec.ofNat 36 n).toNat + 3435974 < 0xCCCCCCCD ∨ 0xCCCCCCCD + 3435974 < (BitVec.ofNat 36 n).toNat)) ∧
      (BitVec.ofNat 36 (0xCCCCCCCD - 3435975)).toNat + 3435974 < 0xCCCCCCCD ∧
      0xCCCCCCCD + 3435974 < (BitVec.ofNat 36 (0xCCCCCCCD + 3435975)).toNat ∧
      c.fld F.time_STATUS_STATE ≠ 3 ∧ h.fld F.time_STATUS_STATE = 3 ∧ (999999999 : Word).toNat % 2 ^ 30 ≤ 999999999 ∧
      999999999 < (1000000000 : Word).toNat % 2 ^ 30 ∧ c.stepBad (999999999 * 65536) = false ∧
      c.flag F.time_STATUS_ARMED = true ∧ up.stepBad 0 = false ∧ up.flag F.time_STATUS_ARMED = false ∧
      c.time.evt.length + 4 ≤ 16384 ∧ (3 : Word).toNat % 4 = 3 ∧ (4 : Word).toNat % 4 ≠ 3 ∧
      up.fld F.time_CTRL_SOURCE = (4 : Word).toNat % 4 := by decide

theorem witness_ServoAndHoldover :
    let c := withFields [(F.time_STATUS_STATE, 0, 2), (F.time_SERVO_HOLDMS, 0, 1)] up
    let h := { c with count := 125000000, time := { lastValid := some 0 } }
    let e := { c with count := 124999999, time := { lastValid := some 0 } }
    c.fld F.time_CTRL_SOURCE = 0 ∧ c.live = true ∧ c.time.gapPopped = none ∧ c.time.delays = [] ∧
      c.fld F.time_STATUS_STATE = 2 ∧ c.time.runBeyond < 7 ∧ c.time.runLoose < 3 ∧
      -7 ≤ (-7 : Int) ∧ (4 : Int) ≤ 4 ∧ (-8 : Int) < -7 ∧ (4 : Int) < 5 ∧ (0 : Int) ≤ ((10 : Nat) - (0 : Nat)) + ((30 : Nat) - (20 : Nat)) ∧
      ((10 : Nat) : Int) - (20 : Nat) + (0 - 0) < 0 ∧ (∀ x ∈ [(14 : Int)], 2 * (20 : Int) ≤ 3 * x) ∧ (0 : Int) ≤ 2 * (5 : Nat) ∧
      (withFields [(F.time_CTRL_SOURCE, 0, 1)] up).fld F.time_CTRL_SOURCE ≠ 0 ∧
      h.holdoverAt = some 125000000 ∧ 125000000 ≤ h.count ∧ e.holdoverAt = some 125000000 ∧ e.count < 125000000 ∧
      up.holdoverAt = none := by decide

theorem witness_TicksAndEdges :
    let c := atTick 0 (withFields [(F.global_MODE_MODE, 0, Md.RUN), (F.time_PPSI_EN, 0, 1), (F.time_PPSI_EDGE, 0, 0),
      (F.time_PPSI_TOCHUTE, 0, 1)] { up with count := 125, time := { lastPps := some 0 } })
    c.running = true ∧ State.reset.chip.running = false ∧ c.fault.storm = none ∧ 0 < c.time.newest.rate ∧ c.live = true ∧
      c.time.newest.c ≤ c.count + 1 ∧ c.count < 27000 ∧ 27000 < 2 ^ 72 ∧ tickInstant (c.mt + 1) ≤ c.time.newest.eval 27000 ∧
      c.mt % c.blockB = 0 ∧ c.time.lastBlock ≠ some c.mt ∧ c.flag F.time_PPSI_EN = true ∧ c.flag F.time_PPSI_EDGE ≠ true ∧
      c.fld F.time_CTRL_SOURCE ≠ 1 ∧ c.time.lastPps = some 0 ∧ 0 + 125 ≤ c.count ∧ ({ c with count := 124 } : Chip).count < 0 + 125 ∧
      c.flag F.time_PPSI_TOCHUTE = true ∧ c.time.evt.length + 4 ≤ 16384 ∧ 262144 ≤ c.now := by decide

theorem witness_RateWriteRange :
    Asks .kc1 up ∧ (0 : Word).toNat + 3435974 < 0xCCCCCCCD ∧ 0xCCCCCCCD + 3435974 < (0xFFFFFFFFF : Word).toNat := by decide

/-- A descriptor of a channel with source MADI port 0, channel 0, and no encoder: 72 state words beyond the common 32. -/
def madiDesc : List Word := (((List.replicate 24 (0 : Word)).set 1 (wofNat (4 * 2 ^ 24))).set 6 (wofNat (5 * 2 ^ 22)))

/-- RUN, with descriptors at burst 65536, and the words of a descriptor staged by KC0. -/
def chanChip : Chip :=
  let c := zeroed (withFields [(F.chan_DESCBASE_BASE, 0, 65536)] (upIn Md.RUN))
  { c with preqs := [1, 6].foldl (fun m w => Cells.set 0 (slotOf .chan_STAGE w 0 * 8 + 1) (madiDesc.getD w 0) m) c.preqs }

/-- The same with a channel in a state of its life. -/
def chanAt (life : Nat) (c : Chip) : Chip := { c with chans := [(32767, { life := life, charge := 1 })] }

theorem witness_ChannelCommands :
    let c := chanChip
    let on (life : Nat) := chanAt life ((c.putWords (c.descAddr 32767) madiDesc).putq .kc0 F.chan_STAGEMASK_WORDS 0x42)
    let c1 := (c.putq .kc0 F.chan_CMD_OP 1).putq .kc0 F.chan_CMD_CHANNEL 32767
    let c2 := ((on 2).putq .kc0 F.chan_CMD_OP 2).putq .kc0 F.chan_CMD_CHANNEL 32767
    Asks .kc0 c ∧ Asks .kc0 (on 2) ∧ c1.staged .kc0 = madiDesc ∧ c1.activateStatus 32767 madiDesc = St.OK ∧
      c1.activateStatus 32767 (List.replicate 24 0) ≠ St.OK ∧
      c2.updateStatus 32767 (c2.staged .kc0) (c2.fldq .kc0 F.chan_STAGEMASK_WORDS) = St.OK ∧
      c2.fldq .kc0 F.chan_STAGEMASK_WORDS ≠ 0 ∧ c1.updateStatus 32767 [] 1 ≠ St.OK ∧
      ¬ c.fld F.chan_CFG_SLOTS ≤ 32767 ∧ c.chanRec = false ∧
      (∀ life ∈ [1, 2, 3, 4], (Cells.find? 32767 (on life).chans).map (fun y => y.life) = some life) ∧
      Cells.find? 32767 c.chans = none ∧ 32767 < c.fld F.chan_CFG_SLOTS ∧ c.rangeOk (c.descAddr 32767) 32 = true := by
  decide +kernel

theorem witness_ChannelEvents :
    let c := atTick 48000 chanChip
    let u : UpdSt := { words := [], at_ := 48000, stateWords := 0, charge := 0 }
    let y : ChanSt := { life := 2, first := 48000, frame := 48000, update := [u] }
    let on (y : ChanSt) : Chip := { c with chans := [(5, y)] }
    let d : Delivered := { dest := 5, src := 0, octets := [], inTime := 0 }
    (∀ life ∈ [1, 2, 3], Cells.find? 5 (on { y with life := life }).chans = some { y with life := life }) ∧ y.first ≤ c.mt ∧
      (atTick 47999 c).mt < y.first ∧ c.chanRec = false ∧ Cells.find? 5 c.slots = none ∧ u.at_ ≤ c.mt ∧ u.at_ ≤ y.frame ∧
      (on y).writingBack 5 = false ∧ { y with update := [] }.update = [] ∧
      ({ c with flume := { toChan := [d] } } : Chip).flume.toChan = [d] ∧
      (on y).takesPackets 5 ((on y).desc 5) = false ∧ c.flume.toChan = [] ∧ c.live = true ∧ c.mt % 48000 = 0 ∧
      c.time.lastWindow ≠ some c.mt ∧
      dSource ((c.putWords (c.descAddr 5) [0, wofNat (2 ^ 24)]).desc 5) = 1 := by
  decide +kernel

/-- A frame with an IPv4 and a UDP header and an RTP packet of 40 octets: the first octet of its header, PT and timestamp. -/
def rtpFrame (b0 pt : Octet) (ts : List Octet) : List Octet :=
  List.replicate 12 0 ++ [8, 0] ++ [0x45, 0, 0, 80, 0, 0, 0, 0, 64, 17, 0, 0, 0, 0, 0, 0, 0, 0, 0, 0] ++
    [0, 0, 0, 0, 0, 60, 0, 0] ++ [b0, pt, 0, 0] ++ ts ++ [0, 0, 0, 9] ++ List.replicate 40 0

/-- Channel 5 receives G.711 packets of 5 ms and SSRC 9 without delay at MT 48,000. -/
def rtpChip : Chip :=
  let c := atTick 48000 chanChip
  let c := c.putWords (c.descAddr 5) [0, wofNat (2 ^ 24 + 3 * 2 ^ 20), 0, 0, 1000, 100]
  { c with
    chans := [(5, { life := 2 })]
    jbs := [(5, { rxp := [wofNat (2 ^ 26 + 3 * 2 ^ 22), wofNat (9 * 16), 0, 0] })] }

/-- Packets of another version, of another type, late, and in time for the first cell of the ring. -/
theorem witness_ChannelEvents_packets :
    let c := rtpChip
    let d := c.desc 5
    let j := c.jb 5
    let x := j.rxp
    let p (l : List Octet) : Rtp := parseRtp (match udpOf l with
      | some (_, o, _, _) => (l.drop (o + 8)).take (be16 l (o + 4) - 8)
      | none => [])
    let pos := j.readPos (subtickOf (tickInstant 48000) / 16)
    let late := p (rtpFrame 0x80 0 [0, 0, 0x1F, 0x3F])
    let good := p (rtpFrame 0x80 0 [0, 0, 0x1F, 0x40])
    let m (q : Rtp) := senderMt d j q.ts pos
    let accepted (p : Rtp) : Prop := p.ver = 2 ∧ p.whole = true ∧ p.pt = rxPt x ∧ payOk d x p.pay = true ∧ rxSsrcChk x = true ∧
      p.ssrc = rxSsrc x ∧ dDecoder d ≠ 8 ∧ rxChans x = 1 ∧ rxFree x = false ∧ nCells d x ≠ 0
    c.chanRec = false ∧ c.takesPackets 5 d = true ∧ (p (rtpFrame 0x40 0 [0, 0, 0, 0])).ver ≠ 2 ∧
      (p (rtpFrame 0x80 1 [0, 0, 0, 0])).pt ≠ rxPt x ∧ (p (rtpFrame 0x80 1 [0, 0, 0, 0])).ver = 2 ∧
      (p (rtpFrame 0x80 1 [0, 0, 0, 0])).whole = true ∧ accepted late ∧ pos - 48000 ≤ m late ∧ m late < pos ∧ accepted good ∧
      pos ≤ m good ∧ m good + rxSpp d x ≤ pos + (nCells d x * rxSpp d x : Nat) ∧
      (c.cellHead d x (cellIndex d x (m good))).1 = false ∧
      c.writeOk (cellAddr d x (cellIndex d x (m good))) (8 + 8 * ceilDiv good.pay.length 36) = true := by
  decide +kernel

/-- A ring lane of its own gang, from 44.1 to 48 kHz, with set 0 of both banks: N and LAT of each. -/
def ringLane (n0 lat0 n1 lat1 : Nat) (c : Chip) : Chip :=
  let c := withFields [(F.kerf_LRATE_OWNER, 16383, 2), (F.kerf_LRATE_INRATE, 16383, 3), (F.kerf_LRATE_OUTRATE, 16383, 2),
    (F.kerf_LRATE_EN, 16383, 1)] c
  [(F.kerf_SETHDR_N, 0, n0), (F.kerf_SETHDR_N, 1, n1), (F.kerf_SETHDR_M, 0, 1), (F.kerf_SETHDR_M, 1, 1),
    (F.kerf_SETHDR_LAT, 0, lat0), (F.kerf_SETHDR_LAT, 1, lat1)].foldl (fun c p => c.put p.1 p.2.2 p.2.1 0) c

theorem witness_KerfBankSwap :
    let g := 16383
    let c := ringLane 2 20 34 20 up
    let p := c.put F.kerf_GANG_PENDING 1 g
    let q := c.put F.kerf_XUSE_EXTRA 9216
    let new := c.setHdr 1 0
    let old := c.setHdr 0 0
    let w := { (p.put F.kerf_GANG_OUTRATE 2 g) with kerf := { swapAt := [(g, [5])] } }
    let both := q.put F.kerf_GANG_PENDING 1 g
    Asks .kc0 up ∧ Asks .kc0 c ∧ Asks .kc0 p ∧ Asks .kc0 q ∧ up.ownedLanes g = [] ∧ c.ownedLanes g = [g] ∧
      wbits (2 ^ 32 : Word) 35 32 ≠ c.fld F.kerf_GANG_SET g ∧ wbits (0 : Word) 35 32 = c.fld F.kerf_GANG_SET g ∧
      new.usable 44100 48000 0 = true ∧ c.owner g = 2 ∧ old.lat = new.lat ∧
      (ringLane 2 20 34 19 up).setHdr 1 0 ≠ new ∧ ((ringLane 2 20 34 19 up).setHdr 1 0).usable 44100 48000 0 = false ∧
      old.extra 44100 48000 = 0 ∧ new.extra 44100 48000 = 1 ∧ 9216 < q.fld F.kerf_XUSE_EXTRA + 1 - 0 ∧
      c.fld F.kerf_XUSE_EXTRA + 1 - 0 ≤ 9216 ∧ p.flag F.kerf_GANG_PENDING g = true ∧ c.flag F.kerf_GANG_PENDING g = false ∧
      both.flag F.kerf_GANG_PENDING g = true ∧ 9216 < both.fld F.kerf_XUSE_EXTRA + 1 - 0 ∧
      Cells.get [] g c.kerf.swapAt = [] ∧ Cells.get [] g w.kerf.swapAt = [5] ∧ w.flag F.kerf_GANG_PENDING g = true ∧
      outputAfter (kerfOut (w.fld F.kerf_GANG_OUTRATE g)) 5 ≤ (atTick 6 w).mt ∧
      (atTick 5 w).mt < outputAfter (kerfOut (w.fld F.kerf_GANG_OUTRATE g)) 5 := by
  decide +kernel

theorem witness_KerfRingLanes :
    let l := 16383
    let c := ringLane 2 20 2 20 up
    let free := c.put F.kerf_LRATE_OWNER 0 l
    let v := wput (wput (wput (0 : Word) 32 30 3) 29 28 2) 33 33 1
    let stopped := { c with kerf := { lanes := [(l, { stopAt := some 5 })] } }
    let chan := c.put F.kerf_LRATE_OWNER 1 l
    let off := c.put F.kerf_LRATE_EN 0 l
    let due := atTick c.blockB { c with kerf := { lanes := [(l, {})] } }
    let bad := { due with upsets := [.lane l] }
    let k := withCore 95 (fun a => { a with item := some 5, wait := .waite, xfers := [.kreq l 0 1 0 1] })
      { up with chans := [(5, { life := 2 })], kerf := { reqs := [95] } }
    Asks .kc0 c ∧ Asks .kc0 free ∧ Asks .kc0 k ∧ free.owner l = 0 ∧ free.ringStatus l v = St.OK ∧
      free.ringStatus l (wput v 32 30 7) ≠ St.OK ∧ c.owner l = 2 ∧ chan.owner l = 1 ∧
      wbits (c.rd .kerf_LRATE l) 32 20 = wbits (c.rd .kerf_LRATE l) 32 20 ∧ wbit (c.rd .kerf_LRATE l) 33 = true ∧
      off.owner l = 2 ∧ wbit (off.rd .kerf_LRATE l) 33 = false ∧ wbits (wput v 32 30 7) 32 20 ≠ wbits (c.rd .kerf_LRATE l) 32 20 ∧
      (stopped.lane l).stopAt = some 5 ∧ stopped.owner l = 2 ∧ (c.lane l).stopAt = none ∧
      (5 / c.blockB + 1) * c.blockB ≤ (atTick ((5 / c.blockB + 1) * c.blockB) stopped).mt ∧
      (atTick ((5 / c.blockB + 1) * c.blockB - 1) stopped).mt < (5 / c.blockB + 1) * c.blockB ∧
      due.ringDue l = true ∧ due.kerfServing = none ∧ due.upset (.lane l) = false ∧ bad.upset (.lane l) = true ∧
      c.ringDue l = false ∧ (k.core 95).xfers = [.kreq l 0 1 0 1] ∧ (k.core 95).wait = .waite ∧ k.kerfTurn 95 = true ∧
      (k.core 95).item = some 5 ∧ (Cells.find? 5 k.chans).isSome = true ∧ KerfErr.none ≠ .lane ∧ k.upset (.lane l) = false ∧
      up.kerfTurn 95 = false := by
  decide +kernel

theorem witness_MixBuses :
    let b := 4095
    let on := wput (0 : Word) 35 35 1
    let c := up.wr .chan_BUS on b
    let used := c.put F.chan_BUSGAIN_INPUTS 1 b
    let k := c.busSt b
    Asks .pcie up ∧ Asks .pcie c ∧ up.busOn b = false ∧ up.busEnableStatus b on = St.OK ∧
      up.busEnableStatus b (wput on 32 30 5) ≠ St.OK ∧ c.busOn b = true ∧
      wbits on 34 18 = wbits (c.rd .chan_BUS b) 34 18 ∧
      wbits (wput on 34 33 2) 34 18 ≠ wbits (c.rd .chan_BUS b) 34 18 ∧ c.fld F.chan_BUSGAIN_INPUTS b = 0 ∧ c.fld F.chan_BUSGAIN_READERS b = 0 ∧
      used.fld F.chan_BUSGAIN_INPUTS b ≠ 0 ∧ c.busOpens b k.opened ≤ c.busNow b ∧
      (k.closed + 2) * c.busBlock b ≤ (atTick 10000 c).busNow b ∧ c.busNow b < (k.closed + 2) * c.busBlock b ∧
      (c.busNow b : Int) < c.busOpens b 500 ∧ ({ c with buses := [(b, { opened := 500 })] } : Chip).busSt b = { opened := 500 } := by
  decide +kernel

theorem witness_BalerJobs :
    let q := Requester.kc0
    let u := 3
    let job (n : Nat) (f : JobFrom) : BalerJob := { serial := n, frm := f, ws := [] }
    let first := job 2 (.core 0)
    let second := job 1 (.host q)
    let c (b : BalerSt) : Chip := { up with balers := [(u, b)] }
    let ok := (zeroed up).wrq q .baler_SUBW (2 ^ 32) 0
    let full := ok.put F.baler_U_OCC_SHARED 880 u
    let st (c : Chip) : Nat := St.pick [c.jobStatus ((List.range 8).map (fun i => c.rdq q .baler_SUBW i)) false,
      if c.flag F.baler_U_CTRL_EN u = false ∨ c.chanRec = true then St.NOTREADY else St.OK,
      if 880 ≤ c.fld F.baler_U_OCC_SHARED u then St.BUSY else St.OK]
    let ws : List Word := [2 ^ 10, 0, 0, 0, 0, 0, 0, 0]
    let done := c { jobs := [{ serial := 1, frm := .host q, ws := ws }], running := some 1 }
    let ofCore := withCore 95 (fun a => { a with wait := .waite, xfers := [.bsub u 1] })
      (c { jobs := [{ serial := 1, frm := .core 95, ws := ws }], running := some 1 })
    Asks q ok ∧ Asks q full ∧ st ok = St.OK ∧ st full = St.BUSY ∧ first.frm.first = true ∧ second.frm.first = false ∧
      ((c { jobs := [second, first] }).baler u).running = none ∧
      [second, first].find? (fun j => j.frm.first) = some first ∧ [second].find? (fun j => j.frm.first) = none ∧
      [second].find? (fun j => !j.frm.first) = some second ∧ ((c { jobs := [second] }).baler u).suspended = none ∧
      ((c { jobs := [second, first], running := some 1 }).baler u).running = some 1 ∧
      [second, first].find? (fun j => j.serial == 1) = some second ∧ first.serial ≠ 1 ∧ second.frm = .host q ∧
      ((c { jobs := [second], suspended := some 1 }).baler u).suspended = some 1 ∧
      (done.baler u).running = some 1 ∧ (ofCore.core 95).xfers = [.bsub u 1] ∧ (ofCore.core 95).wait = .waite ∧
      jobDstLocal ws = true ∧ done.cores = [] ∧ ofCore.cores.all (fun p => decide (p.2.wait ≠ .takeDrain)) = true ∧
      (c {}).cores = [] := by
  decide +kernel

theorem witness_CoreEvents :
    let kc (ie : Bool) (w : CoreWait) (pend : Nat) : Chip := withCore 99 (fun a => { a with ie := ie, imask := 0xFF, ipend := pend, wait := w }) up
    let m (c : Chip) := (c.core 99).ipend &&& (c.core 99).imask
    let slot : SlotSt := { w3 := 16 }
    let item (n : Nat) : Chip := { withCore 95 (fun a => { a with item := some 32768, takeSub := 0 }) up with
      slots := [(32768, slot)], time := { cur := { t := tickInstant n } } }
    let timer (v : Nat) : Chip := withCore 99 (fun a => { a with tarmed := true, tcmp := v }) up
    let xfer (w : CoreWait) (l : List Transfer) : Chip := zeroed (withCore 95 (fun a => { a with wait := w, xfers := l }) up)
    ((kc true .run 0x80).core 99).ie = true ∧ ((kc true .run 0x80).core 99).wait = .run ∧ (m (kc true .run 0x80)).testBit 7 = true ∧
      (∀ j, j < 7 → (m (kc true .run 0x80)).testBit j = false) ∧ (m (kc true .run 1)).testBit 0 = true ∧
      ((kc false .run 1).core 99).ie = false ∧ m (kc true .run 0) = 0 ∧ ((kc true .wfi 1).core 99).wait ≠ .run ∧
      ((kc false .run 0).core 99).sup = true ∧ ((item 0).core 95).item = some 32768 ∧ Cells.find? 32768 (item 0).slots = some slot ∧
      4 * slot.period < (item 5).subtick - ((item 5).core 95).takeSub ∧ (item 4).subtick - ((item 4).core 95).takeSub ≤ 4 * slot.period ∧
      ((timer 0).core 99).tarmed = true ∧ 0 ≤ halfDist 36 (launchForm (timer 0).now) ((timer 0).core 99).tcmp ∧
      ((kc true .run 0).core 99).tarmed = false ∧ Asks .kc0 (kc true .wfi 0) ∧ Requester.isKc .kc0 3 = false ∧
      ((xfer .run [.dmovIn 0 1 1]).core 95).xfers[0]? = some (.dmovIn 0 1 1) ∧ 16 * 1 ≤ 65536 ∧
      (xfer .run []).rangeOk (1 * 16) (16 * 1) = true ∧ ((xfer .run [.txp [], .dmovOut 0 (2 ^ 24 - 1) 1]).core 95).xfers[1]? = some (.dmovOut 0 (2 ^ 24 - 1) 1) ∧
      (xfer .run []).writeOk ((2 ^ 24 - 1) * 16) (16 * 1) = true ∧
      ((xfer .run [.mxadd 4095 0 0 15]).core 95).xfers[0]? = some (.mxadd 4095 0 0 15) ∧
      ((xfer .run [.mxrd 4095 0 0 15]).core 95).xfers[0]? = some (.mxrd 4095 0 0 15) ∧
      ((xfer .waite [.dmovIn 0 1 1]).core 95).xfers = [.dmovIn 0 1 1] ∧ (Transfer.dmovIn 0 1 1).separate = false ∧
      (xfer .waite []).txpWaits (.dmovIn 0 1 1) = false ∧ (xfer .waite []).txpWaits (.txp []) = false ∧
      ((xfer .waite [.kreq 0 0 0 0 0]).core 95).xfers[0]? = some (.kreq 0 0 0 0 0) ∧
      (Transfer.kreq 0 0 0 0 0).separate = true ∧ ((xfer .run []).core 95).xfers[15]? = none := by
  decide +kernel

/-- A cluster's ready list that is full. -/
def fullReady (cl : Nat) (c : Chip) : Chip :=
  { c with slots := (List.range 8192).map (fun i => (i, { w0 := wofNat (cl * 2 ^ 32), stage := .ready })) }

theorem fullReady_full (cl : Nat) (c d : Chip) (more : Cells SlotSt) (h : cl < 16)
    (hs : d.slots = (fullReady cl c).slots ++ more) : d.readyFull cl = true := by
  have e : SlotSt.cluster { w0 := wofNat (cl * 4294967296), w1 := 0#36, w2 := 0#36, w3 := 0#36, stage := .ready } = cl := by
    interval_cases cl <;> decide
  simp [Chip.readyFull, Chip.readyLen, hs, fullReady, List.filter_map, Function.comp_def, e]

theorem witness_ItemLifecycle :
    let x : SlotSt := { w0 := wofNat (11 * 2 ^ 32 + 2 ^ 19), w1 := wofNat (2 * 2 ^ 34), tick := 5 }
    let at_ (st : SlotStage) : SlotSt := { x with stage := st }
    let c (y : SlotSt) : Chip := zeroed { up with slots := [(65535, y)] }
    let two : Chip := { up with slots := [(3, at_ .held), (65535, x)] }
    let one : Chip := { fullReady 11 up with slots := (fullReady 11 up).slots ++ [(65535, x)] }
    let bufs (b : BufSt) (y : SlotSt) : Chip := { c y with bufs := [(190, b)] }
    let far : SlotSt := { at_ .landing with w1 := wofNat (2 * 2 ^ 34 + 2 ^ 24) }
    (Cells.find? 65535 (c x).slots = some x ∧ x.stage = .delayed ∧ (c x).chanRec = false ∧ x.tick ≤ (atTick 5 (c x)).mt ∧
      (atTick 5 (c x)).blocksClosed = true ∧ (atTick 5 (c x)).listedBefore 65535 x = false ∧
      (atTick 5 (c x)).heldBack x.cluster = false ∧ Cells.find? 65535 two.slots = some x ∧ x.tick ≤ (atTick 5 two).mt ∧
      (atTick 5 two).blocksClosed = true ∧ (atTick 5 two).listedBefore 65535 x = false ∧ (atTick 5 two).heldBack x.cluster = true ∧
      (atTick 4 (c x)).mt < x.tick ∧ (c x).nextHeld 11 = none ∧ (c x).cores = [] ∧
      (c (at_ .held)).nextHeld 11 = some ((65535, at_ .held), .slot 65535) ∧
 (c (at_ .held)).readyFull 11 = false ∧
      (c (at_ .ready)).readyHead 11 = some (65535, at_ .ready) ∧ (c (at_ .ready)).pickBuffer 11 = some 176 ∧
      (c (at_ .ready)).writingBack 65535 = false ∧ (c (at_ .ready)).updateDue 65535 = false ∧
      (bufs (.writing 65535) (at_ .ready)).writingBack 65535 = true ∧
      (bufs (.landing 65535) (at_ .landing)).buf 190 = .landing 65535 ∧ (at_ .landing).kind ≠ 1 ∧
      (c x).rangeOk (x.arg * 16) (x.landb * 16) = true ∧ (c far).rangeOk (far.arg * 16) (far.landb * 16) = false ∧
      (bufs (.landed 65535) (at_ .landed)).buf (95 * 2) = .landed 65535 ∧
      ((withCore 95 (fun a => { a with wait := .take }) (bufs (.landed 65535) (at_ .landed))).core 95).wait = .take ∧
      fetchable x.entry = true ∧ ((c x).core 95).wait ≠ .take ∧
      (bufs (.writing 65535) (at_ .ended)).buf 190 = .writing 65535 ∧ (at_ .ended).stage = .ended ∧ (at_ .delayed).stage ≠ .ended ∧
      (c x).writeOk (x.arg * 16) (x.landb * 16) = true) ∧
      one.readyFull 11 = true :=
  ⟨by decide +kernel, fullReady_full 11 up _ _ (by decide) rfl⟩

/-- A SPAWN and a SUBMIT that wait for a ready list, and the item of a channel that lands and is written back. -/
theorem witness_ItemLifecycle_waiters :
    let spawning := withCore 95 (fun a => { a with wait := .spawn, spawning := [wofNat (15 * 2 ^ 32)] }) up
    let pool := spawning.poolSlot.getD 0
    let queued : Chip := { up with sqs := [(4, { entry := some { addr := 0, ws := [wofNat (11 * 2 ^ 32)] } })] }
    let item : SlotSt := { w1 := wofNat (2 ^ 34) }
    let chan (b : BufSt) : Chip := { up with
      slots := [(32767, item)], bufs := [(190, b)], heads := [(190, { ws := List.replicate 9 0 })] }
    let cc := withFields [(F.chan_DESCBASE_BASE, 0, 65536)] (zeroed (chan (.landing 32767)))
    spawning.nextHeld 11 = some ((pool, spawning.spawnSlot [wofNat (15 * 2 ^ 32)] 11 pool), .spawn 95) ∧
      (spawning.core 95).spawning = [wofNat (15 * 2 ^ 32)] ∧ spawning.readyFull 11 = false ∧ Cells.find? pool spawning.slots = none ∧
      (queued.nextHeld 11).map (fun p => p.2) = some (.sq .kc3) ∧ queued.readyFull 11 = false ∧
      cc.buf 190 = .landing 32767 ∧ item.kind = 1 ∧ cc.rangeOk (cc.descAddr 32767) 32 = true ∧
      cc.rangeOk (dbits (cc.desc 32767) 3 33 0 * 16) (stateBursts (cc.desc 32767) * 16) = true ∧
      ((chan (.landing 32767)).put F.mc_STATUS_GIB 0).rangeOk ((chan (.landing 32767)).descAddr 32767) 32 = false ∧
      (chan (.writing 32767)).buf 190 = .writing 32767 ∧ 9 ≤ (Cells.get {} 190 cc.heads).ws.length ∧
      cc.writeOk (cc.descAddr 32767 + 16) 16 = true ∧ cc.writeOk 0 0 = true ∧ (Cells.get {} 190 cc.heads).words = 0 := by
  decide +kernel

theorem witness_SubmissionQueues :
    let q := Requester.kc3
    let k : SqSt := { base := 1000, size := 4096, tail := 1, head := 0 }
    let c (ws : List Word) : Chip := (zeroed { upIn Md.RUN with sqs := [(4, k)] }).putWords (1000 * 16) ws
    let sub (slot period : Nat) : List Word := [0, wofNat 0, 16, wofNat (slot * 2 ^ 20 + period), wofNat (2 ^ 32)]
    let can (op slot : Nat) : List Word := [0, 0, 0, wofNat (slot * 2 ^ 20), wofNat (op * 2 ^ 32)]
    let ws (l : List Word) : List Word := ((c l).fetchEntry q).ws
    let op (l : List Word) : Nat := wbits ((ws l).getD 4 0) 35 32
    let slot (l : List Word) : Nat := wbits ((ws l).getD 3 0) 35 20
    let st (l : List Word) := (c l).submitStatus (ws l)
    let x : SlotSt := {}
    let held := { c (can 2 49151) with slots := [(49151, x)] }
    let late := atTick 5 { c (sub 32768 16) with slots := [(65535, { stage := .held })] }
    let none_ : Chip := { (upIn Md.RUN).put F.mc_STATUS_GIB 0 with sqs := [(4, k)] }
    Asks q (c []) ∧ wbits (4096 : Word) 12 0 ≤ 4096 ∧ 4096 < wbits (4097 : Word) 12 0 ∧ wbits (4095 : Word) 12 0 < k.size ∧
      k.size ≤ wbits (4096 : Word) 12 0 ∧ up.sqServed q = false ∧ (c []).sqServed q = true ∧ none_.sqServed q = true ∧
      none_.rangeOk (none_.fetchEntry q).addr 5 = false ∧ (c []).rangeOk ((c []).fetchEntry q).addr 5 = true ∧
      op (sub 32768 16) = 1 ∧ op (can 2 49151) = 2 ∧ op (can 3 49151) = 3 ∧ st (sub 32768 16) = St.OK ∧ st (sub 32767 16) ≠ St.OK ∧
      (c (sub 32768 16)).heldBack 0 = false ∧ late.submitStatus (late.fetchEntry q).ws = St.OK ∧ late.sqServed q = true ∧
      late.releaseTick 16 16 < late.mt ∧ late.heldBack 0 = true ∧
      wbits ((ws (can 2 49151)).getD 4 0) 31 0 = 0 ∧ wbits ((ws [0, 0, 0, 0, wofNat (2 * 2 ^ 32 + 1)]).getD 4 0) 31 0 ≠ 0 ∧
      slot (can 2 32767) < 32768 ∧ 49151 < slot (can 2 49152) ∧ slot (can 2 49151) = 49151 ∧ slot (can 2 32768) = 32768 ∧
      Cells.find? 32768 (c (can 2 32768)).slots = none ∧ Cells.find? 49151 held.slots = some x ∧ x.stage = .delayed ∧
      held.sqServed q = true ∧ held.writingBack 49151 = false ∧
      ({ held with bufs := [(191, .writing 49151)] } : Chip).writingBack 49151 = true ∧
      ¬ (({ x with stage := .running } : SlotSt).stage = .delayed ∨ ({ x with stage := .running } : SlotSt).stage = .held) := by
  decide +kernel

/-! ## Chutes, the Flume and the Boom: what the statements assume can be met -/

/-- Chute 2047 with 16 entries at the top of the pool, of the forwarding domain. -/
def chuteAt (k : ChuteSt) (c : Chip) : Chip := { c with chutes := [(2047, { k with len := 1, base := 65535 })] }

theorem witness_ChuteTraffic :
    let q := Requester.kc3
    let a (fin : Bool) : Arriving := { chute := 2047, word := 7, fin := fin }
    let c (fin : Bool) (k : ChuteSt) : Chip := chuteAt k { up with arriving := [a fin] }
    let k (k : ChuteSt) : ChuteSt := (chuteAt k up).chute 2047
    let live (k : ChuteSt) : Prop := (chuteAt k up).flag F.chute_C_CFG_PENDING 2047 = false ∧ k.len ≠ 0 ∧
      (chuteAt k up).chuteRec k = false ∧ k.discarding = false
    let tagged (i : Nat) : Chip := (chuteAt { wr := 16 } up).putEntry (65535 * 16 + i) ⟨1, true, false⟩
    Asks q (c true {}) ∧ Asks q (tagged 0) ∧ up.arriving.find? (fun a => a.chute == 2047) = none ∧
      (c true {}).arriving.find? (fun a => a.chute == 2047) = some (a true) ∧
      (c false {}).arriving.find? (fun a => a.chute == 2047) = some (a false) ∧
      live (k {}) ∧ (k {}).lenMode = false ∧ (k {}).dropping = false ∧ (k { wr := 15 }).count ≠ chuteL 1 ∧
      live (k { wr := 16 }) ∧ (k { wr := 16 }).count = chuteL 1 ∧ (k { wr := 16 }).openPkt = false ∧
      (k { wr := 16, openPkt := true }).count = chuteL 1 ∧
      live (k { lenMode := true, openPkt := true, reserved := true, wr := 1 }) ∧
      (k { lenMode := true, openPkt := true, reserved := true, wr := 1 }).count ≠ chuteL 1 ∧
      (k { lenMode := true, wr := 16 }).count = chuteL 1 ∧ (up.chute 2047).len = 0 ∧ (k {}).count = 0 ∧
      ((k { reserved := true, wr := 1 }).reserved = true ∧ (k { reserved := true, wr := 1 }).rd = (k { reserved := true, wr := 1 }).start) ∧
      ¬ ((k { wr := 1 }).len = 0 ∨ (chuteAt { wr := 1 } up).chuteRec (k { wr := 1 }) = true ∨ (k { wr := 1 }).count = 0 ∨
        ((k { wr := 1 }).reserved = true ∧ (k { wr := 1 }).rd = (k { wr := 1 }).start)) ∧
      (k { lenMode := true, left := 3, wr := 4 }).left ≠ 0 ∧
      (∀ i ∈ [0, 15], i < (k { wr := 16 }).count ∧
        ((tagged i).entry ((k { wr := 16 }).place ((k { wr := 16 }).adv (k { wr := 16 }).rd i))).fin = true ∧
        ∀ j < i, ((tagged i).entry ((k { wr := 16 }).place ((k { wr := 16 }).adv (k { wr := 16 }).rd j))).fin = false) ∧
      ∀ j < (k { wr := 16 }).count, ((chuteAt { wr := 16 } up).entry ((k { wr := 16 }).place ((k { wr := 16 }).adv 0 j))).fin = false := by
  decide +kernel

/-- A chute that is discarding, one with a packet being dropped, one with room for the first word of a packet in length mode,
and a word that comes with a pop at depth 0, 1 and L. -/
theorem witness_ChuteTraffic_paired :
    let q := Requester.kc3
    let a (now : Bool) : Arriving := { chute := 2047, word := 7, fin := true, now := now }
    let both (now : Bool) (k : ChuteSt) : Chip := chuteAt k { up with arriving := [a now] }
    let k (k : ChuteSt) : ChuteSt := (chuteAt k up).chute 2047
    (∀ k ∈ [({} : ChuteSt), { wr := 1 }, { wr := 16 }], Asks q (both true k) ∧
        (both true k).arriving.find? (fun a => a.chute == 2047 && a.now) = some (a true) ∧
        (both true k).flag F.chute_C_CFG_PENDING 2047 = false ∧ ((both true k).chute 2047).count ≤ chuteL 1 ∧
        ((both true k).chute 2047).wr < 2 * chuteL 1 ∧ ((both true k).chute 2047).rd < 2 * chuteL 1 ∧
        ((both true k).chute 2047).openPkt = false ∧ ((both true k).chute 2047).reserved = false) ∧
      (both false {}).arriving.find? (fun a => a.chute == 2047 && a.now) = none ∧
      (both false {}).flag F.chute_C_CFG_PENDING 2047 = false ∧
      (k { dropping := true, lenMode := true, openPkt := true, reserved := true }).dropping = true ∧
      (k { lenMode := true, wr := 14 }).wr < 2 * chuteL 1 ∧ (k { lenMode := true, wr := 14 }).count + 1 < chuteL 1 ∧
      (k { discarding := true }).discarding = true ∧ (k { discarding := true }).len ≠ 0 ∧
      (chuteAt {} up).chuteRec (k { discarding := true }) = false := by
  decide +kernel

theorem witness_ChuteSettings :
    let v : Word := wput (wput 0 33 30 1) 27 12 65535
    let c (n : Nat) : Chip := (chuteAt { wr := n } up).put F.chute_C_CFG_PENDING 1 2047
    Asks .pcie up ∧ up.chuteCfgStatus 2047 (wput v 35 35 0) = St.OK ∧ up.chuteCfgStatus 2047 (wput v 35 35 1) = St.OK ∧
      up.chuteCfgStatus 2047 (wput v 33 30 0xE) ≠ St.OK ∧ up.chuteCfgStatus 2047 (wput v 33 30 2) ≠ St.OK ∧
      (up.chute 2047).count = 0 ∧ ((c 1).chute 2047).count ≠ 0 ∧ (c 0).flag F.chute_C_CFG_PENDING 2047 = true ∧
      ((c 0).chute 2047).count = 0 ∧ up.flag F.chute_C_CFG_PENDING 2047 = false ∧ (up.settleChute 2047) = up ∧
      ((c 0).settleChute 2047).flag F.chute_C_CFG_PENDING 2047 = false ∧ (((c 1).settleChute 2047).chute 2047).count ≠ 0 ∧
      Asks .pcie (c 1) ∧ (c 1).chuteCfgStatus 2047 (wput v 35 35 0) = St.OK := by
  decide +kernel

theorem witness_FlowTableCommands :
    let q := Requester.kc1
    let stage (l : List Word) (c : Chip) : Chip :=
      { c with preqs := l.zipIdx.foldl (fun m p => Cells.set 0 (slotOf .flume_FSTAGE p.2 0 * 8 + q.idx) p.1 m) c.preqs }
    let c := stage flowEntry (zeroed up)
    let key := flowEntry.take 5
    let held := c.putWords ((c.entryAddrs key).getD 0 0) flowEntry
    let full := (c.entryAddrs key).foldl (fun c a => c.putWords a [2 ^ 35, 1]) c
    let v6 (c : Chip) : Chip := { c with flume := { v6 := [(5, 0)] } }
    Asks q c ∧ Asks q held ∧ c.fstage q = flowEntry ∧ c.checkEntry flowEntry = St.OK ∧ c.checkEntry [0] ≠ St.OK ∧ c.tableOk ([0] : List Word) = true ∧
      (up.put F.mc_STATUS_GIB 0).tableOk key = false ∧ Asks q (up.put F.mc_STATUS_GIB 0) ∧ c.tableOk key = true ∧ c.findEntry key = none ∧
      (∃ a ∈ c.entryAddrs key, wbit (c.word a) 35 = false) ∧ full.tableOk key = true ∧ full.findEntry key = none ∧
      (∀ a ∈ full.entryAddrs key, wbit (full.word a) 35 = true) ∧ held.tableOk key = true ∧
      held.findEntry key = some ((c.entryAddrs key).getD 0 0) ∧ (65534 : Nat) ≠ 0xFFFF ∧ c.flume.v6 = [] ∧
      (∃ x ∈ (v6 c).flume.v6, x.2 = (v6 c).v6stage q ∧ x.1 ≠ 65534) ∧ Cells.find? 5 (v6 c).flume.v6 ≠ none ∧
      Cells.find? 5 c.flume.v6 = none := by
  decide +kernel

theorem witness_FrameForwarding :
    let l := List.replicate 60 (0 : Octet) ++ fcsOctets (crc32 (List.replicate 60 0))
    let c := withFields [(F.mac_LINK_STATE, 63, 3), (F.mac_LINK_STATE, 0, 3), (F.mc_STATUS_GIB, 0, 0)] up
    let fl (p id : Nat) (f : FrameSt) (c : Chip) : Chip :=
      { c with flume := { next := 9, frames := [(id, f)], waiting := [(p, [id])], queues := [(0, [id])] } }
    let tbl := (zeroed c).putWords (((zeroed c).entryAddrs (flowEntry.take 5)).getD 0 0) flowEntry
    let f1 : FrameSt := { zeroFrame with whole := true, missed := false }
    let late : FrameSt := { f1 with launch := some 1, judged := true }
    let half : FrameSt := { f1 with whole := false }
    let sel (p : Nat) (f : FrameSt) : Chip := (fl 0 1 f c).put F.boom_TEN_CFG_PORT p 0
    let down : Chip := (sel 63 f1).put F.mac_LINK_STATE 0 63
    let tx : Chip := { fl 0 1 f1 c with flume := { frames := [(1, f1)], tx := [(63, { cur := some ⟨1, 0, 0, false⟩ })] } }
    State.reset.chip.live = false ∧ up.linkUp 63 = false ∧ c.live = true ∧ c.linkUp 63 = true ∧ c.fwdRec = false ∧
      Cells.find? 63 c.flume.rx = none ∧ (List.replicate 131 (0 : Octet)).length < 132 ∧ c.rxRow 63 l true = 1 ∧
      c.rxRow 63 (List.replicate 1523 0) false = 3 ∧ c.rxRow 63 (List.replicate 64 1) false = 4 ∧
      Cells.get [] 63 (fl 63 1 zeroFrame c).flume.waiting = [1] ∧ Cells.find? 1 (fl 63 1 zeroFrame c).flume.frames = some zeroFrame ∧
      zeroFrame.missed = true ∧ zeroFrame.act = none ∧ 1 ≠ (fl 63 1 zeroFrame c).flume.next ∧ 64 ≤ l.length ∧
      c.macRefuses 63 l = false ∧ c.rxRow 63 l false = 7 ∧
      c.cached (c.keyOf { src := 63, data := List.replicate 60 0 }) = none ∧ tbl.keyOf zeroFrame = flowEntry.take 5 ∧
      (fl 66 1 zeroFrame c).tableOk (flowEntry.take 5) = false ∧ (fl 66 1 zeroFrame tbl).tableOk (flowEntry.take 5) = true ∧
      (fl 66 1 zeroFrame tbl).matched zeroFrame ((fl 66 1 zeroFrame tbl).tableAct (flowEntry.take 5)) = some [0, 2 ^ 34, 0] ∧ wbit (2 ^ 34 : Word) 34 = true ∧
      zeroFrame.whole = false ∧ Cells.get [] 66 c.flume.waiting = [] ∧ (fl 0 1 late c).queue 0 = [1] ∧ late.judged = true ∧
      late.launch ≠ none ∧ ({ fl 0 1 late c with count := 2 } : Chip).launchMet late = true ∧ (fl 0 1 late c).launchMet late = false ∧
      (fl 0 1 f1 c).cutMet ((fl 0 1 f1 c).svcPort 0) f1 = true ∧
      ((fl 0 1 half c).put F.flume_PORT_CUT_STORE 1 0).cutMet 0 half = false ∧
      (∀ p ∈ [64, 65, 66], ((sel p f1).portTx p).busy ≤ c.count ∧ (sel p f1).shaperOpen .port p = true ∧
        ((sel p f1).pickQueue p ((sel p f1).selectable p false)).map (fun x => x.1) = some 0) ∧
      ((sel 63 f1).portTx 63).cur = none ∧ ((sel 63 f1).portTx 63).held = none ∧ (sel 63 f1).shaperOpen .port 63 = true ∧
      (sel 63 f1).linkUp 63 = true ∧ down.linkUp 63 = false ∧ down.live = true ∧ (down.portTx 63).cur = none ∧ (down.portTx 63).busy ≤ down.count ∧
      down.shaperOpen .port 63 = true ∧ (down.settleGates 63).dropGated 63 = down ∧
      (down.pickQueue 63 (down.selectable 63 false)).map (fun x => x.1) = some 0 ∧
      ((sel 63 f1).settleGates 63).dropGated 63 = sel 63 f1 ∧
      ((sel 63 f1).pickQueue 63 ((sel 63 f1).selectable 63 false)).map (fun x => x.1) = some 0 ∧
      (tx.portTx 63).cur = some ⟨1, 0, 0, false⟩ ∧ (tx.portTx 63).held = none ∧ f1.whole = true ∧ tx.lenAt 63 f1 ≤ tx.maxLen 63 ∧
      (c.portTx 63).cur = none := by
  decide +kernel

/-- A lookup that drops and one that forwards, with a frame in the queue that the forwarded one joins. -/
theorem witness_FrameForwarding_lookup :
    let c := withFields [(F.mac_LINK_STATE, 63, 3), (F.mac_LINK_STATE, 0, 3)] up
    let fl (p id : Nat) (f : FrameSt) (c : Chip) : Chip :=
      { c with flume := { next := 9, frames := [(id, f)], waiting := [(p, [id])], queues := [(0, [id])] } }
    let f1 : FrameSt := { zeroFrame with whole := true, missed := false }
    let entry (a : Nat) : List Word := flowEntry.take 5 ++ [wofNat a, 0, 0]
    let look (a : Nat) : Chip :=
      let z := withFields [(F.boom_SVC_CFG_EN, 0, 1), (F.boom_Q_CFG_LIMIT, 0, 9)] (zeroed c)
      (fl 66 1 zeroFrame z).putWords ((z.entryAddrs (flowEntry.take 5)).getD 0 0) (entry a)
    let wf : FrameSt := { zeroFrame with whole := true }
    let fwd : Chip := { look (2 ^ 33) with flume := {
      next := 9, frames := [(1, wf), (2, { f1 with judged := true })], waiting := [(66, [1])], queues := [(0, [2])] } }
    (∀ a ∈ [0, 2 ^ 33], (look a).keyOf zeroFrame = flowEntry.take 5 ∧ (look a).tableOk (flowEntry.take 5) = true ∧
        (look a).matched zeroFrame ((look a).tableAct (flowEntry.take 5)) = some [wofNat a, 0, 0] ∧
        wbits (wofNat a) 35 33 = a / 2 ^ 33 ∧ (look a).fld F.time_TC_PORT_MODE 0 ≠ 2 ∧ (look a).base ≠ Md.TEST) ∧
      Cells.get [] 66 fwd.flume.waiting = [1] ∧ Cells.find? 1 fwd.flume.frames = some wf ∧ wf.missed = true ∧ wf.whole = true ∧
      fwd.keyOf wf = flowEntry.take 5 ∧ fwd.tableOk (flowEntry.take 5) = true ∧
      fwd.matched wf (fwd.tableAct (flowEntry.take 5)) = some [wofNat (2 ^ 33), 0, 0] ∧
      fwd.flag F.boom_SVC_CFG_EN 0 = true ∧ fwd.svcPort 0 < 64 ∧ fwd.queue 0 = [2] ∧
      (Cells.find? 2 fwd.flume.frames).map FrameSt.judged = some true ∧
      ceilDiv wf.have 256 ≤ fwd.fld F.flume_BUFFREE_CELLS ∧
      fwd.fld F.boom_Q_STAT_OCC 0 + ceilDiv (fwd.lenAt (fwd.svcPort 0) wf) 256 ≤ fwd.fld F.boom_Q_CFG_LIMIT 0 := by
  decide +kernel

theorem witness_GatesAndShapers :
    let q := Requester.kc2
    let c := up.put F.flume_PORT_GT3_CYCLE 1000 63
    let pend := { c.put F.flume_PORT_GCTRL_PENDING 1 63 with flume := { gates := [(63, { pend := some (7, 5) })] } }
    let long : FrameSt := { src := 0, data := List.replicate 200 0, whole := true }
    let closing : Chip := { withFields [(F.flume_PORT_GCTRL_DEFGATES, 63, 0), (F.mac_PREEMPT_VSTATE, 63, 2)] up with
      flume := { frames := [(1, long)], tx := [(63, { cur := some { frame := 1, start := 0, before := 0, pre := true } })] } }
    let ten := withFields [(F.boom_TEN_CFG_EN, 4095, 1)] up
    let rate : Word := wofNat (24 * 2 ^ 30 + maxKbps)
    Asks q up ∧ Asks q c ∧ Asks q pend ∧ Asks q ten ∧ up.fld F.flume_PORT_GT3_CYCLE 63 < 1000 ∧
      1000000000 < (up.put F.flume_PORT_GT3_CYCLE 1000000001 63).fld F.flume_PORT_GT3_CYCLE 63 ∧ 1024 < wbits (1025 : Word) 10 0 ∧
      ¬ (c.fld F.flume_PORT_GT3_CYCLE 63 < 1000 ∨ 1000000000 < c.fld F.flume_PORT_GT3_CYCLE 63 ∨ 1024 < wbits (1024 : Word) 10 0) ∧
      c.gatePending 63 = false ∧ pend.gatePending 63 = true ∧ (pend.gate 63).pend = some (7, 5) ∧ (c.gate 63).pend = none ∧
      (c.portTx 63).cur = none ∧ (c.portTx 63).held = none ∧ (closing.gate 63).pend = none ∧
      (closing.portTx 63).held = none ∧ closing.frame 1 = some long ∧ closing.preVerified 63 = true ∧
      closing.gateOpen 63 long.cls closing.now = false ∧
      (closing.closingBoundary 63 { frame := 1, start := 0, before := 0, pre := true } long).isSome = true ∧
      pend.fld F.flume_PORT_GCTRL_ADMINLEN 63 ≤ 1024 ∧ 5 * 65536 ≤ (atTick 48000 pend).now ∧ pend.now < 7 * 65536 ∧ (1 ≤ wbits (wofNat (5 * 2 ^ 30)) 34 30 ∧ wbits (wofNat (5 * 2 ^ 30)) 34 30 ≤ 5) ∧
      25 ≤ wbits (wofNat (25 * 2 ^ 30)) 34 30 ∧ maxKbps < wbits (wofNat (maxKbps + 1)) 28 0 ∧
      (wbits (0 : Word) 34 30 = 0 ∧ 6 ≤ wbits rate 34 30 ∧ wbits rate 34 30 < 25) ∧ wbits rate 28 0 ≤ maxKbps ∧
      c.fld F.boom_TEN_BQUOTA_KBPS 4095 < wbits rate 28 0 + 1 ∧
      (up.put F.boom_TEN_BQUOTA_KBPS 5 4095).fld F.boom_TEN_BQUOTA_KBPS 4095 < wbits rate 28 0 ∧
      66 < wbits (wofNat (67 * 2 ^ 27)) 33 27 ∧ wbits (wofNat (66 * 2 ^ 27)) 33 27 ≤ 66 ∧ up.flag F.boom_TEN_CFG_EN 4095 = false ∧
      up.flag F.boom_TEN_CFG_DRAINED 4095 = true ∧ wbit (wofNat (2 ^ 35 + 4095 * 2 ^ 22)) 35 = true ∧
      up.flag F.boom_TEN_CFG_EN (wbits (wofNat (2 ^ 35 + 4095 * 2 ^ 22)) 33 22) = false ∧
      ten.flag F.boom_TEN_CFG_EN (wbits (wofNat (2 ^ 35 + 4095 * 2 ^ 22)) 33 22) = true ∧
      up.flag F.boom_SVC_CFG_EN 32767 = false ∧ up.flag F.boom_SVC_CFG_DRAINED 32767 = true := by
  decide +kernel

/-! ## Ports, Hedgerow and the local audio: what the statements assume can be met -/

theorem witness_PortLinks :
    let q := Requester.kc0
    let w : Word := wput (wput 0 34 31 0) 30 16 64
    let en := wput w 35 35 1
    let on := ((up.put F.mac_CFG_MODE 1 63).put F.mac_CFG_EN 1 63).put F.mac_LINK_STATE 1 63
    let st (n : Nat) : Chip := up.put F.mac_LINK_STATE n 63
    let mode := wput (0 : Word) 34 31
    Asks q up ∧ Asks q on ∧ (∃ m ∈ List.range 16, up.checkMacCfg 63 (wput (mode m) 30 16 64) = St.OK) ∧
      (∃ m ∈ List.range 16, up.checkMacCfg 63 (wput (wput (mode m) 30 16 64) 35 35 1) = St.OK) ∧
      up.checkMacCfg 63 (wput en 30 16 63) ≠ St.OK ∧ up.checkMacCfg 63 (wput en 30 16 16385) ≠ St.OK ∧
      on.checkMacCfg 63 (wput (wput (on.rd .mac_CFG 63) 30 16 63) 35 35 0) ≠ St.OK ∧
      on.checkMacCfg 63 (wput (on.rd .mac_CFG 63) 35 35 1) = St.OK ∧ up.portOn 63 = false ∧
      up.live = true ∧ on.portOn 63 = true ∧ wbits (on.rd .mac_CFG 63) 34 16 = wbits (on.rd .mac_CFG 63) 34 16 ∧
      (∀ n ∈ [0, 1, 2, 3], (st n).fld F.mac_LINK_STATE 63 = n) ∧ (false || false || false) = false ∧ (true || false || false) = true := by
  decide +kernel

theorem witness_PreemptionAndUnderrun :
    let q := Requester.kc0
    let c (en v : Nat) : Chip := withFields [(F.mac_PREEMPT_EN, 63, en), (F.mac_PREEMPT_VSTATE, 63, v), (F.mac_LINK_STATE, 63, 3)] up
    let tries (n : Nat) : Chip := { c 1 1 with flume := { verified := [(63, n)] } }
    let soon : Chip := { c 1 1 with flume := { verified := [(63, 1)], verifyBy := [(63, 1)] } }
    let a : AsmSt := { data := [1], inCount := 0, inTime := 0, count := 3 }
    let asm : Chip := { c 1 2 with flume := { asm := [(63, a)] } }
    let f (whole : Bool) : FrameSt := { src := 0, data := [1, 2], whole := whole }
    let tx (whole : Bool) : Chip := { up with flume := { frames := [(1, f whole)], tx := [(63, { cur := some ⟨1, 0, 0, false⟩ })] } }
    Asks q (c 0 0) ∧ wbits (wofNat (2 ^ 23)) 29 23 ≠ 0 ∧ wbits (0 : Word) 29 23 = 0 ∧ (c 0 0).flag F.mac_PREEMPT_EN 63 = false ∧
      (c 0 0).linkUp 63 = true ∧ (c 0 0).fld F.mac_PREEMPT_VSTATE 63 = 0 ∧ (tries 2).fld F.mac_PREEMPT_VSTATE 63 = 1 ∧
      Cells.get 0 63 (tries 2).flume.verifyBy ≤ (tries 2).count ∧ soon.count < Cells.get 0 63 soon.flume.verifyBy ∧
      Cells.get 0 63 (tries 2).flume.verified < 3 ∧ 3 ≤ Cells.get 0 63 (tries 3).flume.verified ∧ (c 1 2).fld F.mac_PREEMPT_VSTATE 63 ≠ 1 ∧
      (c 1 2).flag F.mac_PREEMPT_EN 63 = true ∧ ¬ (c 0 0).flag F.mac_PREEMPT_EN 63 = true ∧ (c 1 2).live = true ∧
      Cells.find? 63 (c 1 2).flume.asm = none ∧ Cells.find? 63 asm.flume.asm = some a ∧ (3 : Fin 4).val = a.count ∧ (0 : Fin 4).val ≠ a.count ∧
      State.reset.chip.live = false ∧ up.linkUp 63 = false ∧ ((tx true).portTx 63).cur = some ⟨1, 0, 0, false⟩ ∧
      ((tx true).portTx 63).held = none ∧ Cells.find? 1 (tx true).flume.frames = some (f true) ∧ (f true).whole = true ∧
      (f false).whole = false := by
  decide +kernel

/-- Segment 23 in a state, with what it keeps. -/
def segAt (n : Nat) (h : HedgeSt) (c : Chip) : Chip :=
  { withFields [(F.hedge_SEG_CFG_EN, 23, if n = 0 then 0 else 1), (F.hedge_SEG_STAT_STATE, 23, n)] c with audio := { hedges := [(23, h)] } }

theorem witness_HedgerowStates :
    let q := Requester.pcie
    let w : Word := wput 0 31 28 8
    let down : Word := wput (wput (wput (wput 0 34 30 1) 29 25 23) 24 24 1) 23 12 4095
    let bus := up.wr .chan_BUS (wput (wput (wput (0 : Word) 35 35 1) 34 33 2) 32 30 4) 4095
    let held := bus.wr .hedge_SEG_DOWN (wput (wput down 35 35 1) 11 0 0) 23 23
    let run := upIn Md.RUN
    let polled : HedgeSt := { polled := 31, awaiting := true }
    let reply := hgFrame 3 0 31 0 0 ([24, 0, 0, 0] ++ List.replicate 4 0)
    let clock (n : Nat) (c : Chip) : Chip := { c with count := n }
    Asks q up ∧ Asks q bus ∧ wbits (wput w 31 28 7) 31 28 < 8 ∧ 8 ≤ wbits w 31 28 ∧ up.flag F.hedge_SEG_CFG_EN 23 = false ∧
      up.segState 23 = 0 ∧ (segAt 1 {} up).flag F.hedge_SEG_CFG_EN 23 = true ∧ (segAt 2 {} up).segState 23 = 2 ∧
      wbit (wput w 35 35 1) 35 = true ∧ bus.flag F.hedge_SEG_DOWN_EN 23 23 = false ∧ wbits down 34 30 ≠ 0 ∧ wbits down 29 25 ≤ 23 ∧
      bus.segState 23 ≠ 2 ∧ bus.readerStatus (wbits down 23 12) (192 + bus.blockB) = St.OK ∧ wbits (wput down 34 30 0) 34 30 = 0 ∧
      23 < wbits (wput down 29 25 24) 29 25 ∧ bus.busOn 4095 = true ∧ up.live = true ∧ (up.hedge 23).cur = none ∧
      (up.hedge 23).cycle ≠ some (hgCycle up.mt) ∧ (segAt 1 {} up).segState 23 = 1 ∧ (segAt 1 {} up).hgServes = false ∧
      (clock 12999 (segAt 1 { quiet := 1000 } up)).count < max ((segAt 1 { quiet := 1000 } up).hedge 23).ended ((segAt 1 { quiet := 1000 } up).hedge 23).quiet + 12000 ∧
      max (up.hedge 23).ended (up.hedge 23).quiet + 12000 ≤ (clock 12000 up).count ∧
      (clock 375000 up).count ≤ ((segAt 1 polled up).hedge 23).ended + 375000 + hgCounts reply ∧
      ¬ (clock 999999 up).count ≤ ((segAt 1 polled up).hedge 23).ended + 375000 + hgCounts reply ∧
      (clock 374999 up).count < ((segAt 1 polled up).hedge 23).ended + 375000 ∧ (segAt 1 polled up).hedge 23 = polled ∧
      held.flag F.hedge_SEG_DOWN_EN 23 23 = true ∧ Asks q held ∧ wbits down 34 12 = wbits (held.rd .hedge_SEG_DOWN 23 23) 34 12 ∧
      wbits (wput down 34 30 2) 34 12 ≠ wbits (held.rd .hedge_SEG_DOWN 23 23) 34 12 ∧ wbit w 34 = false ∧
      (segAt 1 { round := true } run).hgServes = true ∧ ((segAt 1 { round := true } run).hedge 23).round = true ∧
      State.reset.chip.live = false ∧ ((segAt 1 { cycle := some 0 } up).hedge 23).cycle = some (hgCycle up.mt) ∧
      ((segAt 1 polled up).hedge 23).awaiting = true ∧ ((segAt 1 polled up).hedge 23).ended + 375000 ≤ (clock 375000 up).count ∧
      ((segAt 1 {} up).hedge 23).awaiting = false ∧
      (parseHg reply).map (fun f => (f.type, f.src, (f.payload.getD 0 0).toNat)) = some (3, 31, 24) ∧ reply.length = 64 ∧
      parseHg [0] = none := by
  decide +kernel

set_option maxRecDepth 10000 in
theorem witness_HedgerowTraffic :
    let nodes : List (Fld × Nat) := [(F.hedge_SEG_NODE_ADMITTED, 1), (F.hedge_SEG_NODE_NUP, 1)]
    let c := nodes.foldl (fun c p => c.put p.1 p.2 23 31) (segAt 2 {} up)
    let audio := hgFrame 6 0 31 0 0 ([0, 0, 1, 0] ++ List.replicate 72 0)
    let ctl (n : Nat) := hgFrame 7 0 31 0 0 (List.replicate n 1)
    let sending (a : Nat) (b : Option Nat) : HedgeSt :=
      { attempts := a, backoff := b, cur := some { kind := .time, octets := [0], start := 0 } }
    let pkt (head : Word) : Chip :=
      let c := { segAt 2 (sending 15 none) up with chutes := [(0, { len := 1, wr := 2, base := 0 })] }
      ((c.putEntry 0 ⟨head, false, false⟩).putEntry 1 ⟨0, true, false⟩).put F.chute_C_PKTS_PACKETS 1 0
    let packet (head : Word) := (pkt head).popPacket 0 (((pkt head).chute 0).count + 1) []
    (c.hedge 23).cur = none ∧ c.segState 23 = 2 ∧ (parseHg audio).map (fun f => (f.type, f.src, f.cycle)) = some (6, 31, 0) ∧
      c.flag F.hedge_SEG_NODE_ADMITTED 23 31 = true ∧ ((c.hedge 23).node 31).heard ≠ some (extendHalf 32 0 (hgCycle c.mt)) ∧
      ((parseHg audio).map (fun f => (hgEntries (c.fld F.hedge_SEG_NODE_NUP 23 31) (c.fld F.hedge_SEG_NODE_UP48 23 31) 25 f.payload).isSome))
        = some true ∧
      (parseHg (ctl 38)).map (fun f => (f.type, f.src, f.payload.length)) = some (7, 31, 38) ∧
      (parseHg (hgFrame 3 0 31 0 0 [])).map (fun f => f.type) = some 3 ∧ State.reset.chip.live = false ∧ up.segState 23 ≠ 2 ∧
      c.fld F.chute_C_PKTS_PACKETS (c.fld F.hedge_SEG_CFG_CTLTX 23) = 0 ∧ (pkt 0).live = true ∧ (pkt 0).segState 23 = 2 ∧
      (pkt 0).fld F.hedge_SEG_CFG_CTLTX 23 = 0 ∧ (pkt 0).fld F.chute_C_PKTS_PACKETS 0 ≠ 0 ∧ ((pkt 0).hedge 23).cur = (sending 15 none).cur ∧
      (pkt 0).count < 0 + hgCounts [0] ∧ (packet (wofNat (4 * 256 + 0xFF))).1 = [wofNat (4 * 256 + 0xFF), 0] ∧
      1 ≤ wbits (wofNat (4 * 256 + 0xFF)) 18 8 ∧ 1 + packCount 4 = 2 ∧ wbits (wofNat (4 * 256 + 0xFF)) 7 0 = 0xFF ∧
      wbits ((packet 0).1.getD 0 0) 18 8 = 0 ∧ 1400 < wbits ((packet (wofNat (1401 * 256))).1.getD 0 0) 18 8 ∧
      ((pkt 0).hedge 23).backoff = none ∧ ((pkt 0).hedge 23).attempts < 16 ∧ 16 ≤ (sending 16 none).attempts ∧
      (sending 1 (some 0)).backoff = some 0 ∧ 0 ≤ up.count ∧ up.count < 1 := by
  decide +kernel

theorem witness_AudioPorts :
    let q := Requester.kc3
    let ok : Word := wput (wput (wput 0 33 32 1) 30 26 31) 21 7 20832
    let tdm (en m : Nat) : Chip := withFields [(F.audioio_TDM_CFG_EN, 7, en), (F.audioio_TDM_CFG_MASTER, 7, m)] up
    let madi := withFields [(F.audioio_MADI_CFG_EN, 3, 1)] up
    let bus := up.wr .chan_BUS (wput (wput (wput (0 : Word) 35 35 1) 34 33 2) 32 30 4) 4095
    Asks q up ∧ Asks q bus ∧
      ¬ (wbits ok 33 32 = 3 ∨ wbits ok 25 24 = 3 ∨ (wbits ok 33 32 = 0 ∧ wbits ok 30 26 + 1 ≠ 2) ∨
        (wbit ok 31 = true ∧ 16 < wbits ok 30 26 + 1) ∨ 20832 < wbits ok 21 7) ∧
      20832 < wbits (wput ok 21 7 20833) 21 7 ∧ wbits (wput ok 33 32 3) 33 32 = 3 ∧ wbits (wput ok 25 24 3) 25 24 = 3 ∧
      (wbit (wput ok 31 31 1) 31 = true ∧ 16 < wbits (wput ok 31 31 1) 30 26 + 1) ∧ up.flag F.audioio_TDM_CFG_EN 7 = false ∧
      20832 < wbits (wput (0 : Word) 33 19 20833) 33 19 ∧ wbits (wput (0 : Word) 33 19 20832) 33 19 ≤ 20832 ∧
      up.flag F.audioio_MADI_CFG_EN 3 = false ∧ wbit (bus.rd .audioio_TDM_OUT 7 31) 35 = false ∧
      wbit (bus.rd .audioio_MADI_OUT 3 63) 35 = false ∧ bus.readerStatus (wbits (wput (0 : Word) 34 23 4095) 34 23) bus.blockB = St.OK ∧
      up.busOn 4095 = false ∧ State.reset.chip.live = false ∧ up.live = true ∧ (tdm 1 0).flag F.audioio_TDM_CFG_EN 7 = true ∧
      (tdm 1 0).flag F.audioio_TDM_CFG_MASTER 7 = false ∧ (Cells.get {} 7 (tdm 1 0).audio.tdm).ref = none ∧
      (tdm 1 1).flag F.audioio_TDM_CFG_MASTER 7 = true ∧ madi.flag F.audioio_MADI_CFG_EN 3 = true ∧
      (Cells.get {} 3 madi.audio.madi).ref = none := by
  decide +kernel

theorem witness_GpioAndMdio :
    let q := Requester.pcie
    let deb (n : Nat) : Chip := up.put F.audioio_GPIO_CFG_DEBOUNCE n 31
    let fresh (n : Nat) : Chip := { deb 1 with count := n, audio := { gpio := { pins := 2 ^ 31, fresh := [(31, (0, 0))] } } }
    let tset (v : Nat) (c : Chip) : Chip := c.putq q F.audioio_GPIO_TSET_MT v
    let timed (l : List (Nat × Nat × Bool)) (c : Chip) : Chip := { c with audio := { gpio := { timed := l } } }
    let d (c : Chip) := halfDist 36 (c.rdq q .audioio_GPIO_TSET).toNat c.mt
    let mdio : Chip := { up with audio := { mdio := some (0, false, 23, 31) } }
    up.audio.gpio.pins.testBit 31 = false ∧ up.live = true ∧ up.flag F.audioio_GPIO_CFG_DIR 31 = false ∧
      (up.fld F.audioio_GPIO_LEVEL_LEVEL).testBit 31 ≠ true ∧ (deb 0).fld F.audioio_GPIO_CFG_DEBOUNCE 31 = 0 ∧
      (deb 1).fld F.audioio_GPIO_CFG_DEBOUNCE 31 ≠ 0 ∧ ((up.put F.audioio_GPIO_LEVEL_LEVEL (2 ^ 31)).fld F.audioio_GPIO_LEVEL_LEVEL).testBit 31 = true ∧
      Cells.find? 31 up.audio.gpio.fresh = none ∧ Cells.find? 31 (fresh 0).audio.gpio.fresh = some (0, 0) ∧
      0 + 1250 * (fresh 1250).fld F.audioio_GPIO_CFG_DEBOUNCE 31 ≤ (fresh 1250).count ∧
      (fresh 1249).count < 0 + 1250 * (fresh 1249).fld F.audioio_GPIO_CFG_DEBOUNCE 31 ∧ (fresh 0).flag F.audioio_GPIO_CFG_DIR 31 = false ∧
      Asks q (tset 1 up) ∧ 0 < d (tset 1 up) ∧ d up ≤ 0 ∧ up.audio.gpio.timed.length < 64 ∧
      64 ≤ (timed (List.replicate 64 (5, 0, true)) up).audio.gpio.timed.length ∧
      0 < d (tset 1 (timed (List.replicate 64 (5, 0, true)) up)) ∧ wbits (wput (0 : Word) 31 27 23) 31 27 < 24 ∧ up.audio.mdio = none ∧
      Asks q mdio ∧ mdio.audio.mdio = some (q.idx, false, 23, 31) ∧ (∀ x ∈ (timed [(1, 0, true)] up).audio.gpio.timed, up.mt < x.1) ∧
      (timed [(0, 31, true)] up).audio.gpio.timed = [(0, 31, true)] ∧ 0 ≤ up.mt := by
  decide +kernel

/-- A TDM port at its 48th good frame in a row, and output entries that are on. -/
theorem witness_AudioPorts_lock :
    let c := withFields [(F.audioio_TDM_CFG_EN, 7, 1), (F.audioio_TDM_CFG_MASTER, 7, 0)] up
    let l : LockSt := { ref := some (0, 0), good := 47 }
    let lk := { c with audio := { tdm := [(7, l)] }, time := { c.time with cur := { t := tSec / 48000 } } }
    let on := (up.wr .chan_BUS (wput (wput (wput (0 : Word) 35 35 1) 34 33 2) 32 30 4) 4095).wr .audioio_TDM_OUT
      (wput (wput (0 : Word) 35 35 1) 34 23 4095) 7 31
    Asks .kc3 c ∧ Asks .kc3 on ∧ lk.live = true ∧ lk.flag F.audioio_TDM_CFG_EN 7 = true ∧ lk.flag F.audioio_TDM_CFG_MASTER 7 = false ∧
      Cells.get {} 7 lk.audio.tdm = l ∧ l.bad = 0 ∧ lk.tdmRate 7 = 48000 ∧ lk.now = 0 + (l.k + 1) * tSec / 48000 ∧
      wbits (c.rd .audioio_TDM_CFG 7) 34 7 = wbits (c.rd .audioio_TDM_CFG 7) 34 7 ∧ wbit (on.rd .audioio_TDM_OUT 7 31) 35 = true ∧
      wbits (on.rd .audioio_TDM_OUT 7 31) 34 23 = 4095 ∧ on.readerStatus 4095 on.blockB = St.OK ∧
      on.readerStatus 4094 on.blockB ≠ St.OK := by
  decide +kernel

/-- A pin whose new level has stood long enough when it falls again, one whose level has not, and an MDIO access under way. -/
theorem witness_GpioAndMdio_stood :
    let c (n : Nat) : Chip := { up.put F.audioio_GPIO_CFG_DEBOUNCE 1 31 with
      count := n, audio := { gpio := { pins := 2 ^ 31, fresh := [(31, (0, 0))] }, mdio := some (1, true, 23, 31) } }
    Asks .pcie (c 0) ∧ (c 1250).audio.gpio.pins.testBit 31 = true ∧ Cells.find? 31 (c 1250).audio.gpio.fresh = some (0, 0) ∧
      0 + 1250 * (c 1250).fld F.audioio_GPIO_CFG_DEBOUNCE 31 ≤ (c 1250).count ∧
      (c 1250).flag F.audioio_GPIO_CFG_DIR 31 = false ∧ (c 1249).count < 0 + 1250 * (c 1249).fld F.audioio_GPIO_CFG_DEBOUNCE 31 ∧
      ((c 0).fld F.audioio_GPIO_LEVEL_LEVEL).testBit 31 = false ∧ (c 0).audio.mdio ≠ none ∧
      wbits (wput (0 : Word) 31 27 23) 31 27 < 24 ∧ 24 ≤ wbits (wput (0 : Word) 31 27 24) 31 27 ∧
      ({ c 0 with audio := { gpio := { timed := [(5, 0, true), (0, 31, false)] } } } : Chip).audio.gpio.timed[1]? = some (0, 31, false) := by
  decide +kernel

/-- A packet of CTLTX on a wire that has been quiet for long enough, to a node that is admitted. -/
theorem witness_HedgerowTraffic_idle :
    let c := { segAt 2 {} up with count := 12000, chutes := [(0, { len := 1, wr := 2, base := 0 })] }
    let c := (c.put F.hedge_SEG_NODE_ADMITTED 1 23 31).put F.chute_C_PKTS_PACKETS 1 0
    let c := (c.putEntry 0 ⟨wofNat (4 * 256 + 31), false, false⟩).putEntry 1 ⟨0, true, false⟩
    let p := c.popPacket 0 (((c.chute 0).count) + 1) []
    c.live = true ∧ c.segState 23 = 2 ∧ (c.hedge 23).cur = none ∧ (c.hedge 23).queue = [] ∧
      max (c.hedge 23).ended (c.hedge 23).quiet + 12000 ≤ c.count ∧ c.fld F.hedge_SEG_CFG_CTLTX 23 = 0 ∧
      c.fld F.chute_C_PKTS_PACKETS 0 ≠ 0 ∧ wbits (p.1.getD 0 0) 18 8 = 4 ∧ p.1.length = 1 + packCount 4 ∧
      wbits (p.1.getD 0 0) 7 0 = 31 ∧ c.flag F.hedge_SEG_NODE_ADMITTED 23 31 = true := by
  decide +kernel

/-! ## Memory, the host link, modes, faults and the Ranger: what the statements assume can be met -/

/-- Only one bank is listed: every other has an empty queue and no neighbour to refresh. -/
theorem one_bank (k j : Nat) (b : BankSt) (h : j ≠ k) :
    (Cells.get {} j [(k, b)] : BankSt).queue = [] ∧ (Cells.get {} j [(k, b)] : BankSt).nbr = [] := by
  have h' : ¬ k = j := fun e => h e.symm
  simp [Cells.get, Cells.find?, h']

theorem witness_DramAccesses :
    let c := zeroed up
    let rq (b : Nat) (write : Bool) : DramReq := { src := 8, host := true, burst := b, write := write, mask := 0x8001, ws := [1] }
    let top := 2 ^ 24 - 1
    let mc (m : McSt) : Chip := { c with mc := m }
    let full : Chip := mc { banks := [(c.bankOf (rq top true), { queue := List.replicate 8 (rq top true) })] }
    let busy : Chip := mc { hostNext := [(8, 1)] }
    let nbr : Chip := mc { banks := [(15 * 128 + 127, { nbr := [5] })] }
    let r : DramReq := { rq 0 true with host := false }
    let queued (row : Option Nat) : Chip := mc { banks := [(0, { queue := [r], row := row })] }
    let flight (b : Nat) : Chip :=
      mc { subs := [(15, { flight := [{ rq b false with id := 7 }] })], reads := [{ id := 7, src := 8, burst := b }] }
    c.mc.held = [] ∧ full.mustHold (rq top true) = true ∧ full.mc.held = [] ∧ busy.mustHold (rq 0 false) = true ∧
      c.mustHold (rq top true) = false ∧ top < c.dramBursts ∧ c.burstOk top = true ∧ c.dramBursts ≤ top + 1 ∧
      c.mustHold (rq (top + 1) false) = false ∧ c.mc.reads = [] ∧ (mc { changing := true }).subStopped 15 = true ∧
      nbr.subStopped 15 = false ∧ nbr.mc.held = [] ∧
      (nbr.banksOf 15).find? (fun k => !(nbr.bankSt k).nbr.isEmpty) = some (15 * 128 + 127) ∧
      (nbr.bankSt (15 * 128 + 127)).nbr = [5] ∧ (queued none).subStopped 0 = false ∧ 0 ∈ (queued none).banksOf 0 ∧
      ((queued none).bankSt 0).queue = [r] ∧ ((queued none).bankSt 0).nbr = [] ∧ r.host = false ∧
      some ((queued (some 0)).place r.burst).row = ((queued (some 0)).bankSt 0).row ∧
      some ((queued none).place r.burst).row ≠ ((queued none).bankSt 0).row ∧ (c.sub 15).flight = [] ∧
      ((flight top).sub 15).flight = [{ rq top false with id := 7 }] ∧ (flight top).burstOk top = true ∧
      (flight (top + 1)).dramBursts ≤ top + 1 := by
  decide +kernel

theorem witness_DramUpkeep :
    let q := Requester.pcie
    let c := zeroed up
    let mc (m : McSt) : Chip := { c with mc := m }
    let r : DramReq := { src := 8, host := false, burst := 2 ^ 24 - 1, write := true }
    let sent : Chip := mc { subs := [(15, { sent := [r] })] }
    let scrub : Chip := { withFields [(F.mc_SCRUB_EN, 0, 1)] c with mc := { scrub := 2 ^ 24 - 1 } }
    let due (n : Nat) : Chip := { mc { subs := [(15, { nextPause := some 5 })] } with count := n }
    let fp (en ch : Nat) : Chip := (withFields [(F.mc_STATUS_CHANGING, 0, ch)] up).put F.mc_FP_CFG_EN en 3
    let going : Chip := { fp 1 1 with mc := { changing := true, subs := [(15, {})] } }
    (mc { changing := true }).mc.changing = true ∧ c.mc.changing = false ∧ (mc { pause := some 15 }).mc.pause = some 15 ∧
      c.mc.pause ≠ some 15 ∧ c.count < c.mc.winStart + c.mc.window ∧
      (fun d : Chip => d.mc.winStart + d.mc.window ≤ d.count) { c with count := c.mc.window } ∧ (sent.sub 15).sent = [r] ∧
      sent.writeQueued r.burst = false ∧ r.burst < sent.dramBursts ∧ (0 : Fin 65).val = 0 ∧ 1 ≤ (64 : Fin 65).val ∧
      (withFields [(F.mc_STATUS_GIB, 0, 0)] up).dramBursts = 0 ∧ (withFields [(F.mc_SCRUB_EN, 0, 0)] c).flag F.mc_SCRUB_EN = false ∧ scrub.flag F.mc_SCRUB_EN = true ∧ scrub.dramBursts ≠ 0 ∧
      scrub.burstOk (scrub.mc.scrub % scrub.dramBursts) = true ∧ ((due 5).sub 15).nextPause = some 5 ∧ 5 ≤ (due 5).count ∧
      (due 5).mc.pause = none ∧ (due 5).mc.changing = false ∧ (c.sub 15).nextPause = none ∧ Asks q up ∧
      (fp 0 0).flag F.mc_FP_CFG_EN (wbits 3 1 0) = false ∧ (fp 1 1).flag F.mc_FP_CFG_EN 3 = true ∧ Asks q (fp 1 1) ∧
      (fp 1 1).flag F.mc_STATUS_CHANGING = true ∧ (fp 1 0).flag F.mc_STATUS_CHANGING = false ∧ (fp 1 1).mc.changing = false ∧
      (fp 1 1).mc.pause = none ∧ going.mc.changing = true ∧ (∀ x ∈ going.mc.subs, x.2.flight = []) ∧ going.ranger.fpWanted = none ∧
      (∃ x ∈ (mc { changing := true, subs := [(15, { flight := [r] })] }).mc.subs, x.2.flight ≠ []) := by
  decide +kernel

theorem witness_HostLinkResets :
    up.live = true ∧ State.reset.chip.live = false ∧ up.dev.pcieUp = true ∧ State.reset.chip.dev.pcieUp = false := by
  decide +kernel

/-- Ring 15 enabled with a type and size, its TAIL one ahead. -/
def ringed (ty n : Nat) (x : RingSt) (c : Chip) : Chip :=
  let c := (((c.put F.hostdma_R_CFG_EN 1 15).put F.hostdma_R_CFG_TYPE ty 15).put F.hostdma_R_SIZE_ENTRIES n 15).put
    F.hostdma_R_TAIL_TAIL 1 15
  { c with host := { c.host with rings := [(15, x)] } }

theorem witness_HostRings :
    let q := Requester.kc1
    let cfg (ty : Nat) : Word := wput (wput 0 35 35 1) 34 32 ty
    let on (ty : Nat) : Chip := ringed ty 65536 {} (zeroed up)
    let copy (op len : Nat) : Nat := op * 2 ^ 32 + len
    let q2 := 2 ^ 28 - 1
    let cap (nblk size : Nat) : Nat := nblk * 2 ^ 44 + size * 2 ^ 41 + 3 * 2 ^ 32
    let d : DescSt := { idx := 65535, q0 := 0, q1 := 0, q2 := 0, done := some (0, none, 0) }
    let fetched : Chip := ringed 1 65536 { fetched := [d] } up
    Asks q up ∧ Asks q (on 1) ∧ up.ringOn 15 = false ∧ wbits (cfg 1) 34 32 = 1 ∧ wbits (cfg 4) 34 32 = 4 ∧ wbits (cfg 0) 34 32 = 0 ∧
      4 < wbits (cfg 5) 34 32 ∧ (on 1).ringOn 15 = true ∧
      wbits ((on 1).rd .hostdma_R_CFG 15) 34 23 = wbits ((on 1).rd .hostdma_R_CFG 15) 34 23 ∧
      wbits (65535 : Word) 15 0 < (on 1).fld F.hostdma_R_SIZE_ENTRIES 15 ∧
      (ringed 1 65535 {} up).fld F.hostdma_R_SIZE_ENTRIES 15 ≤ wbits (65535 : Word) 15 0 ∧ up.ringFetches 15 = false ∧
      (∀ ty ∈ [1, 3, 4], (on ty).ringFetches 15 = true ∧ (on ty).ringType 15 = ty) ∧ (on 1).descStatus 1 0 16385 0 = St.RANGE ∧
      (on 1).descStatus 1 0 16384 0 = St.OK ∧ qLen 0 = 0 ∧ (on 1).descStatus 1 0 0 0 = St.OK ∧ (on 3).descStatus 3 0 (copy 3 1) 0 = St.RANGE ∧
      (on 3).descStatus 3 0 (copy 1 0) 0 = St.OK ∧ ([] : List Octet).length < qLen 16384 ∧
      (List.replicate 16384 (0 : Octet)).length = qLen 16384 ∧ (on 1).fwdRec = false ∧ (on 1).flag F.boom_SVC_CFG_EN 5 = false ∧
      ((on 1).put F.boom_SVC_CFG_EN 1 5).flag F.boom_SVC_CFG_EN (nbits (5 * 2 ^ 36) 50 36) = true ∧
      (on 3).descStatus 3 8 (copy 1 1) q2 = St.OK ∧ qOp (copy 1 1) = 1 ∧ qMap (copy 1 1) = 0 ∧ (on 3).writeOk q2 1 = true ∧
      (on 3).descStatus 3 8 (copy 2 1) q2 = St.OK ∧ qOp (copy 2 1) = 2 ∧ (on 3).rangeOk q2 1 = true ∧
      (on 4).descStatus 4 0 (cap 1 0) 0 = St.OK ∧ (on 4).descStatus 4 0 (cap 6 0) (2 ^ 24) = St.OK ∧ qMap (cap 6 0) ≤ 1 ∧
      (on 4).rangeOk 16 36 = true ∧ (on 4).rangeOk ((2 ^ 24 + 1) * 16) (4 + 6 * 32) = false ∧ (on 4).descStatus 4 0 (cap 7 0) 0 = St.RANGE ∧
      (fetched.ring 15).fetched = [d] ∧ d.done = some (0, none, 0) ∧ (fetched.ring 15).discarded = false ∧ fetched.flume.txDone = [] ∧
      d.stale = false ∧ (up.ring 15).fetched = [] := by
  decide +kernel

/-- A management datagram: Ethernet, IPv4 to 10.0.0.2, UDP to a port, with a payload. -/
def mgmtFrame (port : Nat) (pay : List Octet) : List Octet :=
  [2, 0, 0, 0, 0, 1, 2, 0, 0, 0, 0, 2, 8, 0] ++ [0x45, 0] ++ beOctets 2 (28 + pay.length) ++ [0, 1, 0, 0, 64, 17, 0, 0] ++
    [10, 0, 0, 1, 10, 0, 0, 2] ++ [0x12, 0x34] ++ beOctets 2 port ++ beOctets 2 (8 + pay.length) ++ [0, 0] ++ pay

/-- A request without operations, with key 3 of 32 zeros, a SEQ and a tag. -/
def mgmtRequest (seq dev : Nat) (spoil : Octet) : List Octet :=
  let body := mgmtHead 1 3 0 seq dev
  body ++ (hmac256 (List.replicate 32 0) body).map (fun o => o ^^^ spoil)

theorem witness_HostFramesAndMessages :
    let d (src dest : Nat) : Delivered := { dest := dest, src := src, octets := [1, 2], inTime := 0 }
    let c (ty : Nat) : Chip := { ringed ty 65536 {} up with flume := { toHost := [d 63 15] } }
    let held (n : Nat) : Chip :=
      let c := (ringed 1 1 { msgHeld := true, lastMsg := some 0 } up).put F.hostdma_R_CFG_MODUS 1 15
      { c with count := n, host := { c.host with unmasked := 2 ^ 255 } }.put F.hostdma_R_CFG_VEC 255 15
    let masked : Chip := { up with host := { msixPending := 2 ^ 255 } }
    let pay (seq : Nat) := mgmtRequest seq (up.fld F.global_DEVNUM_DEVNUM) 0
    let msg (en : Nat) (p : List Octet) : Chip :=
      { withFields [(F.hostdma_MGMT_EN, 0, en)] up with
        host := { keys := [(3, List.replicate 32 0)] }
        flume := { toCtl := [{ d 0 64 with octets := mgmtFrame (up.fld F.hostdma_MGMT_UDPPORT) p }] } }
    let frame (p : List Octet) := mgmtFrame (up.fld F.hostdma_MGMT_UDPPORT) p
    let bad := mgmtRequest 1 (up.fld F.global_DEVNUM_DEVNUM) 1
    let port (l : List Octet) := (udpOf l).map (fun x => (x.1, x.2.1, x.2.2.2))
    up.flume.toHost = [] ∧ (c 1).flume.toHost = [d 63 15] ∧ (d 63 15).dest % 16 = 15 ∧ (c 1).ringOn 15 = true ∧ (c 1).ringType 15 ≠ 2 ∧
      (c 2).ringType 15 = 2 ∧ (c 2).ringFetches 15 = true ∧ (c 2).descStatus 2 0 1 0 = St.OK ∧ qLen 1 ≠ 0 ∧ (up.ring 15).msgHeld = false ∧
      ((held 0).ring 15).msgHeld = true ∧ ((held 0).ring 15).lastMsg = some 0 ∧
      0 + (held 1250).fld F.hostdma_R_CFG_MODUS 15 * 1250 ≤ (held 1250).count ∧ (held 1250).host.funcMask = false ∧
      (held 1250).host.unmasked.testBit ((held 1250).fld F.hostdma_R_CFG_VEC 15) = true ∧
      (held 1249).count < 0 + (held 1249).fld F.hostdma_R_CFG_MODUS 15 * 1250 ∧ masked.host.msixPending.testBit 255 = true ∧
      masked.host.funcMask = false ∧ masked.dev.d3hot = false ∧ State.reset.chip.live = false ∧ up.live = true ∧
      port (frame (pay 1)) = some (1, 34, up.fld F.hostdma_MGMT_UDPPORT) ∧ (msg 0 []).flag F.hostdma_MGMT_EN = false ∧
      (msg 1 []).flag F.hostdma_MGMT_EN = true ∧ ((frame (pay 1)).drop 42).take (be16 (frame (pay 1)) 38 - 8) = pay 1 ∧
      (msg 1 []).mgmtFormatOk [] = false ∧ (msg 1 bad).mgmtFormatOk bad = true ∧ (msg 1 (pay 1)).mgmtFormatOk (pay 1) = true ∧
      hmac256 (Cells.get [] (at8 bad 2) (msg 1 bad).host.keys) (bad.take 32) ≠ bad.drop 32 ∧
      hmac256 (Cells.get [] (at8 (pay 1) 2) (msg 1 (pay 1)).host.keys) ((pay 1).take 32) = (pay 1).drop 32 ∧ bad.length - 32 = 32 ∧
      ofBeOctets (((pay 1).drop 4).take 8) = 1 ∧ 1 / 2 ^ 32 = (msg 1 (pay 1)).fault.epoch ∧ at8 (pay 1) 3 = 0 ∧
      Cells.get 0 3 (msg 1 (pay 1)).host.seqs < 1 % 2 ^ 32 ∧ ofBeOctets (((pay 0).drop 4).take 8) % 2 ^ 32 ≤ Cells.get 0 3 up.host.seqs ∧
      up.fwdRec = false := by
  decide +kernel

theorem witness_ModeRequests :
    let q := Requester.kc2
    let stepped := withFields [(F.time_STATUS_STEPPED, 0, 1)] (upIn Md.TEST)
    Asks q (upIn Md.RUN) ∧ Asks q (upIn Md.ECO) ∧ Asks q stepped ∧ (upIn Md.ECO).modeStatus 1 = St.OK ∧
      (upIn Md.DRAIN).modeStatus 1 = St.OK ∧ stepped.modeStatus 1 = St.OK ∧ (upIn Md.TEST).modeStatus 1 ≠ St.OK ∧
      (upIn Md.RUN).modeStatus 1 ≠ St.OK ∧ (upIn Md.RUN).modeStatus 2 = St.OK ∧ (upIn Md.ECO).modeStatus 2 ≠ St.OK ∧
      (upIn Md.RUN).modeStatus 3 = St.OK ∧ (upIn Md.DRAIN).modeStatus 4 = St.OK ∧
      (∀ r ∈ [5, 6, 7, 8], (upIn Md.RUN).modeStatus r = St.OK ∧
        (((upIn Md.RUN).put F.global_RECOVERING_CHANNEL 1).put F.global_RECOVERING_FORWARDING 1).modeStatus r ≠ St.OK) := by
  decide +kernel

theorem witness_FaultsRecoveryAndRecords_recovery :
    let ph (p : RecPhase) : Chip := { up with fault := { chan := { phase := p }, fwd := { phase := p } } }
    State.reset.chip.live = false ∧ up.live = true ∧ (∀ n ∈ [1, 0xC], 1 ≤ n ∧ n ≤ 0xC) ∧ 0xC < (0xD : Fin 64).val ∧
      (∃ n ∈ List.range 13, faultClass n true = 3) ∧ (∃ n ∈ List.range 13, faultClass n false = 2) ∧
      (∃ n ∈ List.range 13, faultClass n true = 4) ∧
      (∀ d ∈ [true, false], ((ph .flush).recSt d).phase = .flush ∧ ((ph .check).recSt d).phase = .check ∧
        ((ph .complete).recSt d).phase = .complete ∧ (up.recSt d).phase = .none) := by
  decide +kernel

theorem witness_FaultsRecoveryAndRecords_area :
    let e (ty : Nat) : FaultEntry :=
      { ty := ty, payload := [], seq := 0, epoch := 0, sec := 0, ns := 0, mode := 0, recovering := 0 }
    let c (q h0 h1 : List FaultEntry) : Chip := { up with fault := { queue := q, half0 := h0, half1 := h1, scanned := true } }
    let last (n : Nat) : Chip := { up with count := n, fault := { scanned := true, lastPfail := some 0 } }
    let most := List.replicate 2046 (e 1)
    let full := List.replicate 2048 (e 1)
    let erasing := withFields [(F.fault_FLASH_ERASING, 0, 1)] (c [] [] [e 1])
    (c [e 1] most []).fault.queue = [e 1] ∧ (e 1).ty ≠ 6 ∧ 1 < (c [e 1] most []).freeEntries ∧ (e 6).ty = 6 ∧
      (c [e 6] (most ++ [e 1]) []).freeEntries ≠ 0 ∧ (c [e 1] full []).freeEntries = 0 ∧ up.fault.queue = [] ∧
      erasing.flag F.fault_FLASH_ERASING = true ∧ erasing.freeEntries ≠ 0 ∧ up.flag F.fault_FLASH_ERASING = false ∧
      up.fault.scanned = false ∧ (c [] most []).fault.scanned = true ∧ (c [] most []).fault.lastPfail = none ∧
      (last 1249999).fault.lastPfail = some 0 ∧ (last 1249999).count < 0 + 1250000 := by
  decide +kernel

theorem witness_RangerControl :
    let hot (t : Nat) (c : Chip) : Chip := c.put F.ranger_TEMP_TEMP t 47
    let used (k n : Nat) (c : Chip) : Chip := c.put F.chan_CLUSE_USE n k
    let rg (f : RangerSt → RangerSt) (n : Nat) (c : Chip) : Chip := { c with ranger := f c.ranger, count := n }
    let thr := hot 840 (used 11 1 up)
    let thr0 (n : Nat) := rg (fun r => { r with lastThrottle := some 0 }) n thr
    let cool (n : Nat) := (rg (fun r => { r with coolSince := some 0, thrSteps := [(11, 1)] }) n up).put F.ranger_OPP_OPP 3 11
    let cap := (used 11 1 up).put F.ranger_POWER_MW (up.fld F.ranger_POL0_TDPCAP * 1000 + 1)
    let capCool (n : Nat) := (rg (fun r => { r with capCool := some 0, capSteps := [(11, 1)] }) n up).put F.ranger_OPP_OPP 3 11
    let idle_ (n : Nat) := ((rg (fun r => { r with idleSince := [(11, 0)] }) n up).put F.ranger_OPP_OPP 3 11).put F.ranger_POL2_GATEOK (2 ^ 11)
    let lst := up.put F.ranger_POL4_LIST (2 ^ 31)
    State.reset.chip.live = false ∧ up.live = true ∧ (hot 839 up).tmax < 840 ∧ 840 ≤ thr.tmax ∧
      (thr0 1249999).spaced (thr0 0).ranger.lastThrottle 1250000 = false ∧
      (thr0 1250000).spaced (thr0 0).ranger.lastThrottle 1250000 = true ∧ thr.throttled = some 11 ∧ up.ranger.coolSince = none ∧
      (cool 12499999).spaced (cool 0).ranger.coolSince 12500000 = false ∧ (cool 12500000).spaced (cool 0).ranger.coolSince 12500000 = true ∧
      (cool 0).ranger.coolSince ≠ none ∧ (cool 0).ranger.thrSteps = [(11, 1)] ∧ 1 ≤ (cool 0).oppOf 11 ∧ cap.live = true ∧
      cap.fld F.ranger_POL0_TDPCAP * 1000 < cap.fld F.ranger_POWER_MW ∧ cap.spaced cap.ranger.lastCap 12500000 = true ∧
      up.fld F.ranger_POWER_MW ≤ up.fld F.ranger_POL0_TDPCAP * 1000 ∧
      pickMost (fun k => cap.fld F.ranger_DOMPWR_MW k) cap.lowerable = some 11 ∧ up.ranger.capCool = none ∧
      (capCool 0).ranger.capCool ≠ none ∧ (capCool 125000000).spaced (capCool 0).ranger.capCool 125000000 = true ∧
      (capCool 124999999).spaced (capCool 0).ranger.capCool 125000000 = false ∧ (capCool 0).ranger.capSteps = [(11, 1)] ∧
      1 ≤ (capCool 0).oppOf 11 ∧ Cells.find? 12 (rg (fun r => { r with changing := [(12, 7)] }) 0 up).ranger.changing = some 7 ∧
      Cells.find? 12 up.ranger.changing = none ∧ up.charged 11 = false ∧ up.oppOf 12 ≠ 4 ∧
      up.fld F.ranger_POL3_DOWNTHR + 1 < up.fld F.ranger_POL3_UPTHR ∧ Cells.get 0 12 up.ranger.downRun + 1 < 10 ∧
      10 ≤ Cells.get 0 12 (rg (fun r => { r with downRun := [(12, 9)] }) 0 up).ranger.downRun + 1 ∧
      Cells.find? 11 (idle_ 0).ranger.idleSince = some 0 ∧ (idle_ 12500000).fld F.ranger_OPP_OPP 11 = 3 ∧
      (idle_ 12500000).charged 11 = false ∧ (idle_ 12500000).readyLen 11 = 0 ∧
      ((idle_ 12500000).fld F.ranger_POL2_GATEOK).testBit 11 = true ∧ 0 + 12500000 ≤ (idle_ 12500000).count ∧
      (idle_ 12500000).live = true ∧ up.ranger.idleSince = [] ∧ (rg (fun r => { r with trip := true }) 0 up).ranger.trip = true ∧
      (upIn Md.RUN).mode ≠ Md.HELD ∧ (upIn Md.RUN).mode ≠ Md.OFF ∧ up.ranger.trip = false ∧ (lst.fld F.ranger_POL4_LIST).testBit (8 * 3 + 7) = true ∧
      lst.live = true ∧ [false, false, false, true].getD 3 false = true ∧ (∀ i ∈ List.range 4, ([] : List Bool).getD i false = false) := by
  decide +kernel

/-- A read that met each kind of error pattern, a masked write to a bad burst, and a bank at the limit of its host activates. -/
theorem witness_DramAccesses_errors :
    let c := zeroed up
    let top := 2 ^ 24 - 1
    let rd (bad : Nat) : DramReq := { src := 8, host := true, burst := top, write := false, bad := bad, id := 7 }
    let flight (bad : Nat) : Chip :=
      { c with mc := { subs := [(15, { flight := [rd bad] })], reads := [{ id := 7, src := 8, burst := top }] } }
    let bad := c.poison top
    let host : Chip := { c with mc := { banks := [(0, { queue := [{ rd 0 with burst := 0 }], hostActs := c.mc.winMax - 1 })] } }
    bad.mc.held = [] ∧ bad.mustHold { rd 0 with write := true, mask := 0x7FFF } = false ∧ top < bad.dramBursts ∧ bad.burstOk top = false ∧
      (∀ n ∈ [0, 1], ((flight n).sub 15).flight = [rd n] ∧ (flight n).mc.reads = [{ id := 7, src := 8, burst := top }] ∧
        top < (flight n).dramBursts ∧ (rd n).bad = n) ∧
      oneBeat (2 ^ 636) = some (9, 15) ∧ oneBeat (2 ^ 636 + 1) = none ∧ (rd 0).host = true ∧
      (host.bankSt 0).throttled = false ∧ (host.bankSt 0).hostActs + 1 = host.mc.winMax ∧ host.mc.held = [] ∧
      some (host.place 0).row ≠ (host.bankSt 0).row ∧ host.subStopped 0 = false ∧ 0 ∈ host.banksOf 0 := by
  decide +kernel

/-- A drift pause that falls due during a change of frequency point, or during another's, and a change that the Ranger follows by
another. -/
theorem witness_DramUpkeep_pauses :
    let c (m : McSt) : Chip := { up with mc := m, count := 12500005 }
    let due : Cells SubSt := [(15, { nextPause := some 5 })]
    let follow : Chip := { (withFields [(F.mc_STATUS_CHANGING, 0, 1), (F.mc_FP_CFG_EN, 2, 1), (F.mc_FPREQ_POINT, 0, 3)] up) with
      mc := { changing := true }, ranger := { up.ranger with fpWanted := some 2 } }
    ((c { subs := due, changing := true }).sub 15).nextPause = some 5 ∧ 5 ≤ (c { subs := due, changing := true }).count ∧
      (c { subs := due, changing := true }).mc.pause = none ∧ ((c { subs := due, pause := some 3 }).mc.pause).isSome = true ∧
      follow.mc.changing = true ∧ follow.mc.subs = [] ∧ follow.ranger.fpWanted = some 2 ∧ follow.flag F.mc_FP_CFG_EN 2 = true ∧
      2 ≠ follow.fld F.mc_FPREQ_POINT ∧ (1 : BitVec 4) ≠ 0 := by
  decide +kernel

/-- The link is trained in FUSE, LOAD and TRAIN. -/
theorem witness_HostLinkResets_early :
    ∀ m ∈ [Md.FUSE, Md.LOAD, Md.TRAIN],
      (up.put F.global_MODE_MODE m).mode = m ∧ (up.put F.global_MODE_MODE m).dev.pcieUp = true ∧
        ¬ (up.mode = Md.FUSE ∨ up.mode = Md.LOAD ∨ up.mode = Md.TRAIN) := by
  decide +kernel

/-- A frame that finds no room, captures with and without room and as samples, a frame whose transmission has ended, and a ring
whose descriptors RECOVERY discards. -/
theorem witness_HostRings_work :
    let d : DescSt := { idx := 65535, q0 := 0, q1 := 5, q2 := 0, tag := 9 }
    let c (x : RingSt) : Chip := { ringed 1 65536 x up with flume := { txDone := [(15, 9, St.OK)] } }
    let none_ := (ringed 1 65536 {} (zeroed up)).put F.flume_BUFFREE_CELLS 0
    let cap (map nblk : Nat) : Nat := map * 2 ^ 36 + nblk * 2 ^ 44 + 3 * 2 ^ 41 + 3 * 2 ^ 32
    let on := (ringed 4 65536 {} (zeroed up)).put F.baler_U_CTRL_EN 1 0
    none_.fullFor 1 = true ∧ none_.descStatus 1 0 1 0 = St.OK ∧ up.fullFor 16384 = false ∧
      (c { fetched := [d] }).flume.txDone.find? (fun y => y.1 == 15 && y.2.1 == d.tag) = some (15, d.tag, St.OK) ∧
      ((c { fetched := [d] }).ring 15).fetched = [d] ∧ d.done = none ∧ ((c { discarded := true }).ring 15).discarded = true ∧
      ((ringed 1 65536 { fetched := [{ d with tag := 8 }] } up).ring 15).fetched = [{ d with tag := 8 }] ∧
      qMap (cap 2 1) = 2 ∧ on.fld F.baler_U_OCC_SHARED 0 < 880 ∧
      on.fld F.baler_U_OCC_STAGE 0 + 7 * balerS 7 ≤ 65536 ∧ on.flag F.baler_U_CTRL_EN 0 = true ∧
      ¬ (on.put F.baler_U_OCC_SHARED 880 0).fld F.baler_U_OCC_SHARED 0 < 880 ∧ on.ringFetches 15 = true ∧
      on.descStatus 4 0 (cap 2 1) 0 = St.OK ∧ on.ringType 15 = 4 ∧
      wbits (0 : Word) 34 23 ≠ wbits (on.rd .hostdma_R_CFG 15) 34 23 := by
  decide +kernel

/-- The datagram that is found, and one of another epoch. -/
theorem witness_HostFramesAndMessages_datagram :
    let p (e : Nat) := mgmtRequest (e * 2 ^ 32 + 1) (up.fld F.global_DEVNUM_DEVNUM) 0
    let d (e : Nat) : Delivered :=
      { dest := 0, src := 63, octets := mgmtFrame (up.fld F.hostdma_MGMT_UDPPORT) (p e), inTime := 0, mgmt := true }
    let c (e : Nat) : Chip := { withFields [(F.hostdma_MGMT_EN, 0, 1)] up with
      host := { keys := [(3, List.replicate 32 0)] }, flume := { toCtl := [d e] } }
    let isMgmt (c : Chip) (d : Delivered) : Bool := d.mgmt && match udpOf d.octets with
      | some (_, _, _, dst) => dst == c.fld F.hostdma_MGMT_UDPPORT
      | none => false
    (c 0).flume.toCtl.find? (isMgmt (c 0)) = some (d 0) ∧ (c 1).flume.toCtl.find? (isMgmt (c 1)) = some (d 1) ∧ up.flume.toCtl = [] ∧
      ({ c 0 with flume := { toCtl := [{ d 0 with mgmt := false }] } } : Chip).flume.toCtl.find? (isMgmt (c 0)) = none ∧
      (c 1).mgmtFormatOk (p 1) = true ∧ hmac256 (Cells.get [] 3 (c 1).host.keys) ((p 1).take 32) = (p 1).drop 32 ∧
      ofBeOctets (((p 1).drop 4).take 8) / 2 ^ 32 ≠ (c 1).fault.epoch ∧ at8 (p 1) 2 = 3 := by
  decide +kernel

/-- A mix cell that the Check finds bad, a Check in a device that is not released, and a record area that is full. -/
theorem witness_FaultsRecoveryAndRecords_checks :
    let bad : Chip := { up with upsets := [.mixCell 1048575], fault := { chan := { phase := .check } } }
    let held : Chip := { State.reset.chip with fault := { chan := { phase := .check }, fwd := { phase := .check } } }
    let e : FaultEntry := { ty := 1, payload := [], seq := 0, epoch := 0, sec := 0, ns := 0, mode := 0, recovering := 0 }
    let full : Chip := { up with fault := { scanned := true, half0 := List.replicate 2048 e } }
    bad.upset (.mixCell 1048575) = true ∧ (bad.recSt true).phase = .check ∧ held.live = false ∧ (held.recSt false).phase = .check ∧
      full.freeEntries = 0 ∧ full.fault.scanned = true ∧ full.fault.lastPfail = none ∧ up.freeEntries ≠ 0 ∧
      (∀ r ∈ [3, 4], (upIn Md.TEST).modeStatus r ≠ St.OK) := by
  decide +kernel

/-- The clusters whose steps go back first, and no cluster to lower. -/
theorem witness_RangerControl_restores :
    let rg (f : RangerSt → RangerSt) : Chip := { up with ranger := f up.ranger }
    let thr := rg (fun r => { r with coolSince := some 0, thrSteps := [(0, 1), (11, 2)] })
    let cap := (rg (fun r => { r with capCool := some 0, capSteps := [(0, 1), (11, 1)] })).put F.ranger_OPP_OPP 3 11
    pickMost (fun k => Cells.get 0 k thr.ranger.thrSteps) (thr.ranger.thrSteps.map (·.1)) = some 11 ∧
      pickMost (fun k => cap.oppOf k) (cap.ranger.capSteps.map (·.1)) = some 11 ∧ up.lowerable = [] ∧
      (up.put F.ranger_OPP_OPP 4 11).oppOf 11 = 4 := by
  decide +kernel

/-! ## Bring-up, the test port, the queue and the clock: what the statements assume can be met -/

/-- The device in HELD or on its way, with its bring-up state and mode. -/
def booting (m : Nat) (b : BootSt) (c : Chip) : Chip := { c.put F.global_MODE_MODE m with boot := b }

theorem witness_RailsAndBringup :
    let c (m : Nat) (p : BootPhase) : Chip := booting m { phase := p } State.reset.chip
    let dev (m : Nat) (d : DevSt) : Chip := { c m .idle with dev := d }
    (c Md.OFF .idle).mode = Md.OFF ∧ (c Md.RUN .done).mode ≠ Md.OFF ∧ (dev Md.HELD { pwrok := false }).mode = Md.HELD ∧
      (dev Md.HELD { pwrok := false }).dev.pwrok = false ∧ (c Md.RUN .done).mode ≠ Md.HELD ∧ (c Md.HELD .idle).dev.pwrok = true ∧
      (c Md.HELD .idle).dev.rails = true ∧ (c Md.HELD .idle).dev.tripHeld = false ∧ (dev Md.HELD { rails := false }).dev.rails = false ∧
      (dev Md.HELD { tripHeld := true }).dev.tripHeld = true ∧ (c Md.FUSE .fuse).boot.phase = .fuse ∧ (c Md.LOAD .flash).boot.phase = .flash ∧
      (c Md.HELD .idle).boot.phase ≠ .fuse ∧ (c Md.HELD .idle).boot.phase ≠ .flash ∧ 256 ≤ 256 ∧ 255 < 256 := by
  decide +kernel

/-- A header of Table 18.4 for an image of some octets and records. -/
def headerOf (total nrec : Nat) : List Octet :=
  let h := [0x5A, 0x44, 0x49, 0x4D] ++ leOctets 2 1 ++ leOctets 2 1 ++ leOctets 4 0x9612 ++ leOctets 4 total ++ leOctets 8 7 ++
    leOctets 4 nrec ++ leOctets 4 9 ++ List.replicate 28 0
  h ++ leOctets 4 (crc32c h)

/-- A record of Table 18.5. -/
def recordOf (ty : Nat) (l : List Octet) : List Octet :=
  let r := leOctets 2 ty ++ [0, 0] ++ leOctets 4 l.length ++ l ++ List.replicate (ceilDiv (8 + l.length) 4 * 4 - (8 + l.length)) 0
  r ++ leOctets 4 (crc32c r)

theorem witness_ImageChecks :
    let c (p : BootPhase) (f : BootSt → BootSt) (d : Chip) : Chip := booting Md.LOAD (f { phase := p }) d
    let up := State.reset.chip
    let h := headerOf 100663096 1
    let r := recordOf 0xD [1, 2, 3, 4, 5]
    let rd (total nrec : Nat) := c .records (fun b => { b with image := h, total := total, nrec := nrec }) up
    let good (l : List Octet) (c : Chip) : Bool := decide <|
      l.length = recordLen (leAt l 4 4) ∧ c.boot.image.length + l.length ≤ c.boot.total ∧
        leAt l (l.length - 4) 4 = crc32c (l.take (l.length - 4)) ∧ (leAt l 0 2 < 0x8000 → 1 ≤ leAt l 0 2 ∧ leAt l 0 2 ≤ 0xD) ∧
        c.boot.nread < c.boot.nrec
    let p1 (e : Option (List Nat)) (d : Chip) := c .pass1 (fun b => { b with entries := e }) d
    let tr := booting Md.TRAIN { phase := .train } up
    (c .header id up).boot.phase = .header ∧ headerOk [] = false ∧ headerOk h = true ∧ leAt h 12 4 ≠ 64 ∧ up.boot.phase ≠ .header ∧
      (rd 100663096 1).boot.phase = .records ∧ good r (rd 100663096 1) = true ∧ good r (rd 100663096 0) = false ∧ good r (rd 83 1) = false ∧
      good (recordOf 0xE []) (rd 100663096 1) = false ∧ good (recordOf 0x8000 []) (rd 100663096 1) = true ∧ good (r ++ [0]) (rd 100663096 1) = false ∧
      (rd 100663096 1).boot.image.length + recordLen 5 ≠ (rd 100663096 1).boot.total ∧ (c .signature id up).boot.phase = .signature ∧
      (p1 none up).boot.phase = .pass1 ∧ (p1 none up).boot.pass1 = [] ∧ (p1 none up).crossStatus ≠ St.OK ∧
      (p1 (some []) (up.put F.ranger_POL1_ECOLU 0)).crossStatus = St.OK ∧ tr.boot.phase = .train ∧ tr.mode = Md.TRAIN ∧
      tr.fault.scanned = false ∧ up.mode ≠ Md.TRAIN ∧ (c .reset (fun b => { b with left := [1] }) up).boot.left = [1] ∧
      (c .reset id up).boot.left = [] ∧ (c .reset id up).boot.phase = .reset := by
  decide +kernel

/-- A delivery with no fuse programmed: what the fuses of delivery hold is open, so the clauses about unprogrammed fuses are
met in this delivery. -/
abbrev Blank : Prop := Config.fuseBit = fun _ => false

/-- The SHA-384 of the image [2], an x-coordinate of the curve. -/
def imageHash : Nat := 0xdb475240477c5e4497a2c5724ca485f5b1f2c2fc0602b92bae234238ec8d4e873a7148c739593e95a7f4dfe7c6e69f69

/-- A public key: the point that, with the base point, sums to the point at that x-coordinate, which twice over is then its
signature of the image. -/
def sigBlock : List Octet :=
  [4] ++ beOctets 48 0xb42062144550e6f1c1eab261bc2f03156627cfba964fb8b26e2ec1644432b6873cf698069cf8aabcd7ebc2754650b412 ++
    beOctets 48 0xced6ff89af867f08cc08fa4c6a369dc0e2ee4f55350a07a3820e84657604c645d002b3907e62a6a02e4847ea6bb59fbc ++
    beOctets 48 imageHash ++ beOctets 48 imageHash ++ List.replicate 7 0

/-- The SHA-384 of that key, its octets from the lowest. -/
def keyHash : Nat := 0xcbd869f6af7502e56950cb3527b314629c9cebae37af6f277b3ac1697025782a158c412447cef33156d5b8a15f9f840d

/-- A device of that key, its KEYSET programmed, with the image read and its first rollback slot holding a value. -/
def signedChip (roll : Nat) : Chip :=
  booting Md.LOAD
    { phase := .signature, image := [2], rollback := 7,
      burned := ((List.range 384).filter (fun i => keyHash.testBit i)).map (fun i => 2136 + i) ++ [2520] ++ rollBits 0 roll }
    State.reset.chip

theorem signedChip_fuse (h : Blank) (roll : Nat) :
    (signedChip roll).fuse = fun b =>
      (decide (2136 ≤ b ∧ b < 2520) && keyHash.testBit (b - 2136)) || b == 2520 || (rollBits 0 roll).contains b := by
  funext b
  simp only [Chip.fuse, h, Bool.false_or, signedChip, booting, List.contains_append]
  congr 1
  congr 1
  · rw [Bool.eq_iff_iff]
    simp only [List.contains_iff_mem, List.mem_map, List.mem_filter, List.mem_range, Bool.and_eq_true, decide_eq_true_eq]
    constructor
    · rintro ⟨x, ⟨hx, ht⟩, rfl⟩
      exact ⟨by omega, by simpa using ht⟩
    · rintro ⟨hb, ht⟩
      exact ⟨b - 2136, ⟨by omega, ht⟩, by omega⟩
  · simp only [List.contains_cons, List.contains_nil, Bool.or_false]

theorem witness_ImageChecks_key (h : Blank) :
    (signedChip 7).fuse 2520 = true ∧ ofLeOctets (sha384 (sigBlock.take 97)) = (signedChip 7).fuses 2136 384 ∧
      sigBlock.headD 0 = 4 := by
  simp only [Chip.fuses, signedChip_fuse h]
  decide +kernel

theorem witness_ImageChecks_signature :
    let be (a n : Nat) : Nat := ofBeOctets ((sigBlock.drop a).take n)
    ecdsa384 (be 1 48) (be 49 48) (be 97 48) (be 145 48) (sha384 (signedChip 7).boot.image) = true := by
  decide +kernel

theorem witness_ImageChecks_rollback (h : Blank) :
    (signedChip 8).boot.rollback < (signedChip 8).rollValue ∧ (signedChip 7).rollValue ≤ (signedChip 7).boot.rollback := by
  simp only [Chip.rollValue, Chip.rollSlot, Chip.fuses, signedChip_fuse h]
  decide +kernel

theorem witness_ImageRecords :
    let c := zeroed State.reset.chip
    let ok (x : Nat × Chip) : Bool := x.1 == St.OK
    let le := leOctets
    let r : BootRec := { ty := 1, off := 64, payload := [] }
    let b1 (p : BootPhase) (l : List BootRec) : Chip := booting Md.LOAD { phase := p, pass1 := l, pass2 := l } c
    (b1 .pass1 [r]).boot.pass1 = [r] ∧ (b1 .pass2 [r]).boot.pass2 = [r] ∧ (b1 .pass2 [r]).boot.phase ≠ .pass1 ∧ r.ty ≠ 2 ∧
      ok (c.regsRecord (le 4 (RegName.addr .time_STEPLIMIT 0 0) ++ le 8 1000)) = true ∧ ok (c.regsRecord [0]) = false ∧
      ok (c.programRecord (le 4 0 ++ le 4 0x1FFFF ++ le 4 1 ++ List.replicate 36 1)) = true ∧
      ok (c.programRecord (le 4 1 ++ le 4 0x3FFFF ++ le 4 1 ++ List.replicate 36 1)) = true ∧
      ok (c.programRecord (le 4 0 ++ le 4 0x20000 ++ le 4 1 ++ List.replicate 36 1)) = false ∧
      ok (c.patchRecord (le 4 0x5FFFE ++ le 4 0x1FFFE)) = true ∧ ok (c.patchRecord (le 4 0x60000 ++ le 4 0)) = false ∧
      ok (c.customRecord ([63, 1, 0, 0] ++ le 4 0x3FFFF ++ le 4 0x3FFFE ++ le 4 1 ++ le 4 2 ++ le 4 1 ++ List.replicate 36 1)) = true ∧
      ok (c.customRecord ([64, 1, 0, 0] ++ le 4 0x3FFFF ++ le 4 0x3FFFE ++ le 4 1 ++ le 4 2 ++ le 4 1 ++ List.replicate 36 1)) = false ∧
      ok (c.tonesetRecord (packOut (wofNat (63 * 2 ^ 30) :: List.replicate 32 0))) = true ∧
      ok (c.tonesetRecord (packOut (List.replicate 33 0))) = false ∧
      ok (c.kerfsetRecord ([1, 15, 0, 0] ++ le 8 (64 * 128 + 64) ++ le 4 0)) = true ∧
      c.setInUse 1 15 = false ∧
      ok (c.kerfsetRecord ([1, 16, 0, 0] ++ le 8 (64 * 128 + 64) ++ le 4 0)) = false ∧
      ok (c.mgmtkeyRecord ([3, 0, 0, 0] ++ List.replicate 32 1)) = true ∧ ok (c.mgmtkeyRecord ([4, 0, 0, 0] ++ List.replicate 32 1)) = false ∧
      ok (c.bootRecord (le 4 0x5FFFE ++ List.replicate 12 0)) = true ∧ ok (c.bootRecord (le 4 0x60000 ++ List.replicate 12 0)) = false ∧
      ok (c.rangerRecord (packOut (polRegs.map c.rd ++ List.replicate 11 0))) = true ∧ ok (c.rangerRecord []) = false ∧
      ok (c.dramzeroRecord (le 8 (2 ^ 24 - 1) ++ le 8 1)) = true ∧ ok (c.dramzeroRecord (le 8 (2 ^ 24) ++ le 8 1)) = false ∧
      ok (c.dramfillRecord (le 8 (2 ^ 24 - 1) ++ le 4 16 ++ List.replicate 72 1)) = true ∧
      ok (c.dramfillRecord (le 8 (2 ^ 24) ++ le 4 16 ++ List.replicate 72 1)) = false ∧
      ok (c.v6addrRecord (le 4 65534 ++ List.replicate 16 1)) = true ∧ ok (c.v6addrRecord (le 4 65535 ++ List.replicate 16 1)) = false ∧
      ok (c.flowsRecord (packOut flowEntry)) = true ∧ (packOut flowEntry).length = 36 ∧ ok (c.flowsRecord [0]) = false := by
  decide +kernel

theorem witness_Release :
    let c (p : BootPhase) (b : BootSt) (f : FaultSt) : Chip := { booting Md.TRAIN { b with phase := p } State.reset.chip with fault := f }
    (c .train {} {}).boot.phase ≠ .pass2 ∧ (c .pass2 { pass2 := [⟨13, 64, []⟩] } {}).boot.pass2 ≠ [] ∧
      (c .pass2 {} {}).fault.scanned = false ∧ (c .pass2 {} { scanned := true }).boot.phase = .pass2 ∧
      (c .pass2 {} { scanned := true }).boot.pass2 = [] ∧ (c .pass2 {} { scanned := true }).fault.scanned = true ∧
      (c .pass2 {} {}).boot.rollFwd = false := by
  decide +kernel

/-- The clause that programs a rollback slot: with slot 0 used, the next one is free. -/
theorem witness_Release_rollback (h : Blank) :
    let b : BootSt :=
      { phase := .pass2, rollFwd := true, rollback := 2, burned := rollBits 0 1 }
    let c : Chip := { booting Md.TRAIN b State.reset.chip with fault := { scanned := true } }
    c.boot.rollFwd = true ∧ c.rollValue < c.boot.rollback ∧ (List.range 32).find? (fun j => !c.rollUsed j) = some 1 := by
  simp only [Chip.rollUsed, Chip.rollValue, Chip.rollSlot, Chip.fuses, Chip.fuse, h, Bool.false_or]
  decide +kernel

theorem witness_JtagTestPort :
    let c (s : TapState) (code : Nat) : Chip :=
      { up with jtag := { trstN := true, state := s, code := code, dr := [true, false], ir := [false, true], latches := [true] } }
    let rest := (∀ s ∈ [TapState.captureDr, .shiftDr, .shiftIr, .updateDr, .logicReset], (c s 1).jtag.state = s ∧ (c s 1).mode ≠ Md.OFF)
    rest ∧ (up.put F.global_MODE_MODE Md.OFF).mode = Md.OFF ∧ (c .shiftDr 1).jtag.dr = true :: [false] ∧
      (c .shiftIr 1).jtag.ir = false :: [true] ∧ (∀ n ∈ [2, 3, 4, 5], (c .updateDr n).jtag.code = n) ∧ (c .updateDr 3).jtag.trstN = true ∧
      up.jtag.trstN = false := by
  decide +kernel

/-- The clauses about KEYSET, programmed and, in a delivery without it, not. -/
theorem witness_JtagTestPort_keyset :
    (fun c : Chip => c.fuse 2520 = true) { up with boot := { burned := [2520] } } ∧ (Blank → up.fuse 2520 = false) := by
  refine ⟨by simp [Chip.fuse], fun h => ?_⟩
  simp only [Chip.fuse, h, Bool.false_or]
  decide +kernel

theorem witness_StepRunsFrontCommand : ({ pending := [.pcieFlr], chip := up } : State).pending = .pcieFlr :: [] := rfl

theorem witness_EmptyQueueIsOneClockCycle :
    let c (n : Nat) (st : Option Nat) : Chip := { upIn Md.RUN with count := n, fault := { storm := st } }
    (idle (c 0 none)).pending = [] ∧ State.reset.chip.running = false ∧ (c 0 none).running = true ∧ (c 0 none).fault.storm = none ∧
      (c 2499998 (some 0)).count + 1 < 0 + 2500000 ∧ 0 + 2500000 ≤ (c 2499999 (some 0)).count + 1 := by
  decide +kernel

theorem witness_EveryCommandCompletesFramed :
    exec .d3hotEntry (idle up) = .next (idle { up with dev := { up.dev with d3hot := true } }) ∧ movesCount .d3hotEntry = false ∧
      bringsUp .d3hotEntry = false ∧ programsFuses .d3hotEntry = false := by
  exact ⟨rfl, by decide, by decide, by decide⟩

/-- A device whose KEYSET and lowest KEYHASH bit have been programmed, a command waiting. -/
def keyed : State := { pending := [.d3hotEntry], chip := { up with boot := { burned := [2136, 2520] } } }

theorem witness_StepKeepsFuses :
    keyed.fusesLawful = true ∧ keyed.chip.fuse 2136 = true ∧
      step keyed = .next { pending := [], chip := { keyed.chip with dev := { up.dev with d3hot := true } } } := by
  refine ⟨by decide, by simp [keyed, Chip.fuse], rfl⟩

/-- A provisioning station at Update-DR, in a delivery without key bits, naming the lowest bit of KEYHASH. -/
def provisioning : State :=
  { pending := [.jtagTckEdge false true false false], chip := { up with jtag := { trstN := true, state := .updateDr, code := 5 } } }

theorem provisioning_burns (h : Blank) (g : Config.fuseRegBits [] = [2136]) :
    (provisioning.chip.tckEdge false true false false).boot.burned = [2136] := by
  have m : ¬ provisioning.chip.mode = Md.OFF := by decide +kernel
  have f : Chip.fuse { provisioning.chip with jtag := { provisioning.chip.jtag with trstN := true } } = fun _ => false := by
    funext b
    simp [Chip.fuse, h, provisioning, up, State.reset]
  simp only [Chip.tckEdge, m, if_false, Bool.not_true, Bool.false_eq_true, Chip.tckFall, Chip.tckUpdate, Chip.modJtag]
  simp only [provisioning] at f ⊢
  simp only [Nat.reduceEqDiff, or_self, if_false, if_true, g, Chip.provision, f]
  decide +kernel

theorem witness_KeyBitsProgrammedOnceByTestPort :
    (Blank → Config.fuseRegBits [] = [2136] →
      ∃ t, step provisioning = .next t ∧ t.chip.fuse 2136 ≠ provisioning.chip.fuse 2136) ∧
    keyed.chip.fuse 2520 = true ∧ (Blank → (booting Md.LOAD { phase := .signature } up).fuse 2520 = false) ∧
    (booting Md.LOAD { phase := .signature } up).boot.phase = .signature := by
  refine ⟨fun h g => ⟨_, rfl, ?_⟩, by simp [keyed, Chip.fuse], fun h => ?_, by decide +kernel⟩
  · show (Config.fuseBit 2136 || (provisioning.chip.tckEdge false true false false).boot.burned.contains 2136) ≠ _
    rw [provisioning_burns h g]
    simp [Chip.fuse, h, provisioning, up, State.reset]
  · simp only [Chip.fuse, h, Bool.false_or]
    decide +kernel

/-! ## Known answers of the published algorithms: the check values of CRC-32 and CRC-32C over the digits 1 to 9, and the hashes of
"abc" in FIPS 180-4 -/

theorem test_crc32_check :
    fcsOctets (crc32 ((List.range 9).map (fun i => BitVec.ofNat 8 (0x31 + i)))) = [0x26, 0x39, 0xF4, 0xCB] := by decide +kernel

theorem test_crc32c_check : crc32c ((List.range 9).map (fun i => BitVec.ofNat 8 (0x31 + i))) = 0xE3069283 := by decide +kernel

theorem test_sha256_abc :
    ofBeOctets (sha256 [0x61, 0x62, 0x63]) = 0xba7816bf8f01cfea414140de5dae2223b00361a396177a9cb410ff61f20015ad := by decide +kernel

theorem test_sha384_abc : ofBeOctets (sha384 [0x61, 0x62, 0x63]) =
    0xcb00753f45a35e8bb5a03d699ac65007272c32ab0eded1631a8b605a43ff5bed8086072ba1e7cc2358baeca134c825a7 := by decide +kernel

/-- With no command waiting, the state after reset stands: in HELD, COUNT does not move (R42). -/
theorem test_idle_at_reset : step State.reset = .next State.reset := rfl

end Sys2Proof.Tests
end

/-! ## A requester's write of a register whose block acts on it -/

section
namespace Sys2Proof.Machine
open Sys2Proof

/-- With no half held for the requester, a 36-bit write discards and counts nothing (R433). -/
theorem Chip.dropHeld_of_none {q : Requester} {c : Chip} (hheld : Cells.find? q.idx c.host.held = none) : c.dropHeld q = c := by
  simp [Chip.dropHeld, hheld]

/-- An access that is answered, with no half held, is the block's operation alone. -/
theorem Chip.access_of_answers {q : Requester} {c : Chip} (hans : c.answers q = true)
    (hheld : Cells.find? q.idx c.host.held = none) (r : RegName) (i j : Nat) (f : Chip → Chip) : c.access q r i j f = f c := by
  simp [Chip.access, hans, Chip.dropHeld_of_none hheld]

/-- A command whose effect is a write of one field leaves exactly that write: `put` keeps COUNT, the fuses and the test port. -/
theorem State.run_of_eq_put {s : State} {g : Chip → Chip} {f : Fld} {v i j : Nat} (h : g s.chip = s.chip.put f v i j) :
    s.run g = .next { s with chip := s.chip.put f v i j } := by
  rw [State.run_eq, h]
  rfl

end Sys2Proof.Machine
end

/-! ## The range and the unit of TIME.RATE (R46) -/

section
namespace Sys2Proof.Machine
open Sys2Proof

/-- RANGE is reported before NOTREADY (R39): the lock state makes no difference to a write out of range. -/
theorem St.pick_range_notready (b : Bool) : St.pick [St.RANGE, St.when b St.NOTREADY] = St.RANGE := by
  cases b <;> rfl

/-- A write of RATE out of range does nothing but record RANGE. -/
theorem Chip.writeRate_of_far {v : Nat} (far : v + rateSpan < rate0 ∨ rate0 + rateSpan < v) (c : Chip) :
    c.writeRate v = c.put F.time_STATUS_LASTERR St.RANGE := by
  have hst : St.pick [St.when (v + rateSpan < rate0 ∨ rate0 + rateSpan < v) St.RANGE,
      St.when (c.fld F.time_STATUS_STATE = 3) St.NOTREADY] = St.RANGE := by
    rw [decide_eq_true far]
    exact St.pick_range_notready _
  have hok : St.RANGE ≠ St.OK := by decide
  unfold Chip.writeRate
  rw [hst]
  simp only [Chip.timeErr, Chip.err, if_pos hok, if_neg hok]

/-- On counts that have not wrapped, the counts elapsed are those since ANCHOR_C. -/
theorem Anchor.elapsed_add (a : Anchor) (m : Nat) : a.elapsed (a.c + m) = m := by
  simp [Anchor.elapsed]

/-- 2^16 counts take RATE units of 2^-16 ns: no part of the product is truncated. -/
theorem Anchor.eval_whole (a : Anchor) (n : Nat) : a.eval (a.c + 65536 * n) = (a.t + (a.rate * n : Nat)).toNat := by
  have hdiv : 65536 * n * a.rate / 65536 = a.rate * n := by
    rw [Nat.mul_assoc, Nat.mul_div_cancel_left _ (by decide), Nat.mul_comm]
  rw [Anchor.eval, Anchor.elapsed_add, hdiv]

/-- Settles O26: the range check comes first of R39's order, so a write out of range is the record of RANGE alone; and on a
line of time 2^16 counts are a whole number of units of 2^-16 ns. -/
theorem rateWriteRange : Obligations.RateWriteRange := by
  refine ⟨fun q w s hans hheld far => ?_, fun a c r n => ?_⟩
  · have effect : s.chip.access q .time_RATE 0 0 (Chip.writeRate w.toNat) = s.chip.put F.time_STATUS_LASTERR St.RANGE := by
      rw [Chip.access_of_answers hans hheld, Chip.writeRate_of_far far]
    refine ⟨_, State.run_of_eq_put effect, rfl, ?_, ?_, ?_⟩
    · exact Chip.fld_put_same _ _ (by decide) _ _ _
    · exact Chip.rd_put_ne _ (by decide) _
    · exact Chip.put_time _ _ _ _ _
  · rw [Anchor.eval_whole { t := a, c := c, rate := r } n]
    exact Int.toNat_natCast _

end Sys2Proof.Machine
end

/-! ## Reads by a requester -/

section
namespace Sys2Proof.Machine
open Sys2Proof

/-- A read that is answered is the block's operation, and its value is returned. -/
theorem Chip.accessRead_of_answers {q : Requester} {c : Chip} (hans : c.answers q = true) (r : RegName) (i j : Nat)
    (f : Chip → Word × Chip) : c.accessRead q r i j f = (f c).2.emit (.readData q (r.addr i j) (f c).1.toNat) := by
  simp [Chip.accessRead, hans]

/-- A read that is answered, at an offset that names a register, is that register's read, and its value is returned. -/
theorem Chip.readReg_of_regAt {q : Requester} {c : Chip} (hans : c.answers q = true) {off : Nat} {r : RegName} {i j : Nat}
    (hreg : regAt off = some (r, i, j)) :
    c.readReg q off = (c.regRead q r i j).2.emit (.readData q off (c.regRead q r i j).1.toNat) := by
  simp [Chip.readReg, hans, Chip.busRead, hreg]

/-- A plain read of a value with no RC field to clear changes nothing (R11). -/
theorem Chip.plainRead_of_cleared {q : Requester} {r : RegName} {i j : Nat} {c : Chip}
    (h : r.info.cleared (c.peek q r i j) = c.peek q r i j) : c.plainRead q r i j = (c.peek q r i j, c) := by
  simp [Chip.plainRead, h]

/-- At reset every requester's copy of a register holds the register's reset value. -/
theorem State.rdq_reset (q : Requester) (r : RegName) (i j : Nat) :
    State.reset.chip.rdq q r i j = wofNat (r.resetVal i) := rfl

/-! ### Offsets of registers -/

/-- The offset of an entry of an array of two indices gives back its indices, where the rows do not overlap. -/
theorem RegInfo.indices_addr {r : RegName} {i j : Nat} (hi : i < r.info.n1) (hj : j < r.info.n2) (hs2 : 0 < r.info.s2)
    (hrow : r.info.n2 * r.info.s2 ≤ r.info.s1) : r.info.indices (r.addr i j) = some (i, j) := by
  have hcol : j * r.info.s2 < r.info.s1 := lt_of_lt_of_le (Nat.mul_lt_mul_of_pos_right hj hs2) hrow
  have hs1 : 0 < r.info.s1 := by omega
  have hdist : r.addr i j - r.info.base = j * r.info.s2 + r.info.s1 * i := by
    rw [RegName.addr, Nat.mod_eq_of_lt hi, Nat.mod_eq_of_lt hj, Nat.mul_comm i]
    omega
  have hbase : ¬ r.addr i j < r.info.base := by
    unfold RegName.addr
    omega
  have hdiv : (j * r.info.s2 + r.info.s1 * i) / r.info.s1 = i := by
    rw [Nat.add_mul_div_left _ _ hs1, Nat.div_eq_of_lt hcol, Nat.zero_add]
  have hmod : (j * r.info.s2 + r.info.s1 * i) % r.info.s1 = j * r.info.s2 := by
    rw [Nat.add_mul_mod_self_left, Nat.mod_eq_of_lt hcol]
  simp [RegInfo.indices, hbase, hdist, hdiv, hmod, hs1.ne', hs2.ne', hi, hj]

/-- An offset that is no multiple of the stride away names no entry of an array of one index. -/
theorem RegInfo.indices_eq_none {d : RegInfo} {off : Nat} (hs1 : d.s1 ≠ 0) (hs2 : d.s2 = 0) (h : (off - d.base) % d.s1 ≠ 0) :
    d.indices off = none := by
  simp [RegInfo.indices, hs1, hs2, h]

/-! ### The counters of MAC.STAT (Table 14.5) -/

/-- The offset of counter `k` of port `p` (Table 14.18). -/
theorem mac_STAT_addr {p k : Nat} (hp : p < 64) (hk : k < 48) :
    RegName.mac_STAT.addr p k = 0x1000400 + p * 65536 + k * 8 := by
  show 0x1000400 + p % 64 * 65536 + k % 48 * 8 = _
  rw [Nat.mod_eq_of_lt hp, Nat.mod_eq_of_lt hk]

/-- The registers of block MAC below MAC.STAT are one to a port, below the counters. -/
theorem mac_registers_below_STAT : ∀ r ∈ regsOf_mac.take 12,
    r.info.s1 = 65536 ∧ r.info.s2 = 0 ∧ 0x1000000 ≤ r.info.base ∧ r.info.base < 0x1000400 := by decide

/-- An offset in block MAC's range is one of its registers' (Table 1.7). -/
theorem blockAt_mac {off : Nat} (hlo : 0x1000000 ≤ off) (hhi : off < 0x1400000) : blockAt off = some .mac := by
  unfold blockAt
  iterate 9 rw [if_neg (by omega)]
  rw [if_pos hhi]

/-- The offset of a counter names that counter and no other register. -/
theorem regAt_mac_STAT {p k : Nat} (hp : p < 64) (hk : k < 48) :
    regAt (RegName.mac_STAT.addr p k) = some (.mac_STAT, p, k) := by
  have hoff := mac_STAT_addr hp hk
  have hblock : blockAt (RegName.mac_STAT.addr p k) = some .mac := blockAt_mac (by omega) (by omega)
  have hstat : RegName.mac_STAT.info.indices (RegName.mac_STAT.addr p k) = some (p, k) :=
    RegInfo.indices_addr hp hk (by decide) (by decide)
  have hbelow : (regsOf_mac.take 12).findSome? (fun r =>
      (r.info.indices (RegName.mac_STAT.addr p k)).map (fun ij => (r, ij.1, ij.2))) = none := by
    rw [List.findSome?_eq_none_iff]
    intro r hr
    obtain ⟨hs1, hs2, hlo, hhi⟩ := mac_registers_below_STAT r hr
    rw [RegInfo.indices_eq_none (by omega) hs2 (by rw [hs1]; omega), Option.map_none]
  have hsplit : regsOf .mac = regsOf_mac.take 12 ++ [.mac_STAT, .mac_GHASH] := rfl
  simp [regAt, hblock, hsplit, List.findSome?_append, hbelow, hstat]

/-- The low register of a 72-bit counter is counter 21, 23 or 41. -/
theorem wideCounter_cases (k : Fin 3) : wideCounter k = 21 ∨ wideCounter k = 23 ∨ wideCounter k = 41 := by
  revert k
  decide

/-- A read of a low register returns it and latches its high register for the requester (R380). -/
theorem Chip.regRead_wideCounter (q : Requester) (p : Nat) (k : Fin 3) (c : Chip) :
    c.regRead q .mac_STAT p (wideCounter k) =
      (c.rd .mac_STAT p (wideCounter k),
        c.wrq q .mac_STAT (c.rd .mac_STAT p (wideCounter k + 1)) p (wideCounter k + 1)) :=
  if_pos (wideCounter_cases k)

/-- What a requester sees of a high register is what it latched (R380). -/
theorem Chip.peek_wideCounter_succ (q : Requester) (p : Nat) (k : Fin 3) (c : Chip) :
    c.peek q .mac_STAT p (wideCounter k + 1) = c.rdq q .mac_STAT p (wideCounter k + 1) := by
  have hown : RegName.mac_STAT.own (wideCounter k + 1) = true := by
    revert k
    decide
  exact if_pos hown

/-- A read of a high register returns what the requester latched, and changes nothing (R380). -/
theorem Chip.regRead_wideCounter_succ (q : Requester) (p : Nat) (k : Fin 3) (c : Chip) :
    c.regRead q .mac_STAT p (wideCounter k + 1) = (c.rdq q .mac_STAT p (wideCounter k + 1), c) := by
  have hhigh : ¬ (wideCounter k + 1 = 21 ∨ wideCounter k + 1 = 23 ∨ wideCounter k + 1 = 41) := by
    have := wideCounter_cases k
    omega
  calc c.regRead q .mac_STAT p (wideCounter k + 1)
    _ = c.plainRead q .mac_STAT p (wideCounter k + 1) := if_neg hhigh
    _ = (c.peek q .mac_STAT p (wideCounter k + 1), c) := Chip.plainRead_of_cleared rfl
    _ = (c.rdq q .mac_STAT p (wideCounter k + 1), c) := by rw [Chip.peek_wideCounter_succ]

/-- MAC_COUNTER_LOW_READ of a requester that is answered: the latch, and the low register returned. -/
theorem exec_macCounterLowRead {q : Requester} {s : State} (hans : s.chip.answers q = true) (p : Fin 64) (k : Fin 3) :
    exec (.macCounterLowRead q p k) s = .next
      { s with
        chip := (s.chip.wrq q .mac_STAT (s.chip.rd .mac_STAT p.val (wideCounter k + 1)) p.val (wideCounter k + 1)).emit
          (.readData q (RegName.mac_STAT.addr p.val (wideCounter k)) (s.chip.rd .mac_STAT p.val (wideCounter k)).toNat) } := by
  show s.run (Chip.accessRead q .mac_STAT p.val (wideCounter k) (Chip.regRead q .mac_STAT p.val (wideCounter k))) = _
  rw [State.run_eq, Chip.accessRead_of_answers hans, Chip.regRead_wideCounter]
  rfl

/-- READ_AND_CLEAR of a high register, by a requester that is answered: what it latched is returned, and nothing changes. -/
theorem exec_readAndClear_wideCounter_succ {q : Requester} {s : State} (hans : s.chip.answers q = true) (p : Fin 64) (k : Fin 3) :
    exec (.readAndClear q (BitVec.ofNat 26 (RegName.mac_STAT.addr p.val (wideCounter k + 1)))) s = .next
      { s with
        chip := s.chip.emit (.readData q (RegName.mac_STAT.addr p.val (wideCounter k + 1))
          (s.chip.rdq q .mac_STAT p.val (wideCounter k + 1)).toNat) } := by
  have hk : wideCounter k + 1 < 48 := by
    have := wideCounter_cases k
    omega
  have hoff : (BitVec.ofNat 26 (RegName.mac_STAT.addr p.val (wideCounter k + 1))).toNat =
      RegName.mac_STAT.addr p.val (wideCounter k + 1) := by
    rw [BitVec.toNat_ofNat, Nat.mod_eq_of_lt]
    have := mac_STAT_addr p.isLt hk
    omega
  show s.run (Chip.readReg q (BitVec.ofNat 26 (RegName.mac_STAT.addr p.val (wideCounter k + 1))).toNat) = _
  rw [State.run_eq, hoff, Chip.readReg_of_regAt hans (regAt_mac_STAT p.isLt hk), Chip.regRead_wideCounter_succ]
  rfl

/-- Settles O22: the low read writes the reader's copy of the high register alone, which is what a read of the high register
returns; at reset no requester has latched one. -/
theorem counterHighLatch : Obligations.CounterHighLatch := by
  refine ⟨fun q p k s hans => ⟨?low, ?high⟩, fun q p k _ => ?reset⟩
  case low =>
    refine ⟨_, exec_macCounterLowRead hans p k, rfl, rfl, ?_, fun p' r i j hne => ?_⟩
    · exact Chip.rdq_wrq_same s.chip q .mac_STAT _ p.val (wideCounter k + 1)
    · exact Chip.rdq_wrq_other s.chip hne .mac_STAT r p.val (wideCounter k + 1) i j _
  case high => exact ⟨_, exec_readAndClear_wideCounter_succ hans p k, rfl, rfl⟩
  case reset => exact State.rdq_reset q .mac_STAT p.val k

end Sys2Proof.Machine
end


/-! ## BAR0 accesses of another size or alignment (R434) -/

section
namespace Sys2Proof.Machine
open Sys2Proof

/-- A bad write that is answered is counted in BADACC, the first counter of HOSTDMA.CNT, and nothing else. -/
theorem Chip.badAccess_write {c : Chip} (hans : c.answers .pcie = true) (off : Nat) :
    c.badAccess off true = c.bump F.hostdma_CNT_COUNT 1 0 := by
  simp [Chip.badAccess, hans]

/-- A bad read that is answered is counted as a bad write is, and returns zero data. -/
theorem Chip.badAccess_read {c : Chip} (hans : c.answers .pcie = true) (off : Nat) :
    c.badAccess off false = (c.bump F.hostdma_CNT_COUNT 1 0).emit (.readData .pcie off 0) := by
  simp [Chip.badAccess, hans]

/-- A command whose effect is a write of one field and something sent leaves exactly those: neither touches COUNT, the fuses
or the test port. -/
theorem State.run_of_eq_put_emit {s : State} {g : Chip → Chip} {f : Fld} {v i j : Nat} {o : Output}
    (h : g s.chip = (s.chip.put f v i j).emit o) : s.run g = .next { s with chip := (s.chip.put f v i j).emit o } := by
  rw [State.run_eq, h]
  rfl

/-- Settles O21: raising BADACC is a write of its one field, and the zero data of a read is the only thing sent. -/
theorem badAccessHasNoEffect : Obligations.BadAccessHasNoEffect := by
  refine fun off s hans => ⟨⟨_, ?write, rfl⟩, ⟨_, ?read, rfl⟩⟩
  case write => exact State.run_of_eq_put (Chip.badAccess_write hans off.toNat)
  case read => exact State.run_of_eq_put_emit (Chip.badAccess_read hans off.toNat)

end Sys2Proof.Machine
end

/-! ## The fuses of the key: KEYHASH, KEYSET and DBGLOCK (R461) -/

section
namespace Sys2Proof.Machine
open Sys2Proof

/-! ### What a change of the programmed bits does to a fuse bit -/

/-- A fuse bit reads the same where its being programmed is the same. -/
theorem Chip.fuse_congr {c d : Chip} {b : Nat} (h : b ∈ d.boot.burned ↔ b ∈ c.boot.burned) : d.fuse b = c.fuse b := by
  simp only [Chip.fuse, List.contains_eq_mem, h]

/-- RELEASE programs rollback slots alone, so it leaves every bit below them (R473). -/
theorem Chip.release_fuse {b : Nat} (hb : b < 2560) (c : Chip) : c.release.fuse b = c.fuse b := by
  obtain ⟨l, hburned, hslot⟩ := Chip.release_burned c
  have hout : b ∉ l := fun hmem => absurd (hslot b hmem).1 (by omega)
  exact Chip.fuse_congr (by simp [hburned, hout])

/-- A bit that an edge of JTAG_TCK changes was 0, and KEYSET was 0. -/
theorem Chip.tckEdge_fuse_ne {rise trstN tms tdi : Bool} {c : Chip} {b : Nat}
    (hne : (c.tckEdge rise trstN tms tdi).fuse b ≠ c.fuse b) : c.fuse b = false ∧ c.fuse 2520 = false := by
  obtain ⟨hkept, hnew⟩ := Chip.tckEdge_burned rise trstN tms tdi c b
  by_cases hold : b ∈ c.boot.burned
  · exact absurd (Chip.fuse_congr (iff_of_true (hkept hold) hold)) hne
  · by_cases hburnt : b ∈ (c.tckEdge rise trstN tms tdi).boot.burned
    · have hkeyset : c.fuse 2520 = false := ((hnew hburnt).resolve_left hold).1
      have hdelivered : Config.fuseBit b = false := by
        by_contra hone
        exact hne (by simp [Chip.fuse, hone])
      exact ⟨by simp [Chip.fuse, hdelivered, hold], hkeyset⟩
    · exact absurd (Chip.fuse_congr (iff_of_false hburnt hold)) hne

/-! ### What a command does to the fuses -/

/-- The outcome is a next state with the programmed bits of `s`. -/
def State.KeepsFuses (s : State) (o : Host.Outcome State Fault Refusal) : Prop :=
  ∃ t, o = .next t ∧ t.chip.boot.burned = s.chip.boot.burned

theorem State.run_keepsFuses (s : State) (f : Chip → Chip) : s.KeepsFuses (s.run f) :=
  ⟨_, State.run_eq s f, rfl⟩

theorem State.runBoot_keepsFuses (s : State) (f : Chip → Chip) : s.KeepsFuses (s.runBoot f) :=
  ⟨_, State.runBoot_eq s f, Chip.keepFuses_burned _ _⟩

theorem State.runClock_keepsFuses (s : State) (f : Chip → Chip) : s.KeepsFuses (s.runClock f) :=
  ⟨_, State.runClock_eq s f, Chip.keepFuses_burned _ _⟩

/-- A command other than RELEASE and the edge of JTAG_TCK programs no bit: those of bring-up and of COUNT by the way they
end, and every other one because it keeps all that bring-up holds. -/
theorem exec_keepsFuses {i : Instr} (hi : programsFuses i = false) (s : State) : s.KeepsFuses (exec i s) := by
  cases i with
  | release | jtagTckEdge => cases hi
  | fuseReadComplete | imageHeader | imageRecordRead | signatureBlock | regsRecord | programRecord | patchRecord
  | customRecord | tonesetRecord | kerfsetRecord | mgmtkeyRecord | bootRecord | rangerRecord | dramzeroRecord
  | dramfillRecord | v6addrRecord | flowsRecord | pass1Complete | jtagTrstNFall => exact State.runBoot_keepsFuses s _
  | sampleTick | railsRise | railsFall | resetOrPwrokFall | bringupStart | flashSetupComplete | slotResetComplete
  | trainingComplete | faultRecordWritten | thermalTrip => exact State.runClock_keepsFuses s _
  | _ => exact State.run_keepsFuses s _

/-- The two commands that can program a fuse bit. -/
theorem programsFuses_cases {i : Instr} (hi : programsFuses i = true) :
    i = .release ∨ ∃ rise trstN tms tdi, i = .jtagTckEdge rise trstN tms tdi := by
  cases i with
  | release => exact .inl rfl
  | jtagTckEdge rise trstN tms tdi => exact .inr ⟨rise, trstN, tms, tdi, rfl⟩
  | _ => cases hi

/-- A fuse bit stands where the outcome keeps the fuses. -/
theorem State.KeepsFuses.fuse_eq {s t : State} {o : Host.Outcome State Fault Refusal} (h : s.KeepsFuses o) (ht : o = .next t)
    (b : Nat) : t.chip.fuse b = s.chip.fuse b := by
  obtain ⟨u, hu, hburned⟩ := h
  cases hu.symm.trans ht
  exact Chip.fuse_congr (by rw [hburned])

/-- A bit below the rollback slots that a command changes was 0, KEYSET was 0, and the command is an edge of JTAG_TCK. -/
theorem exec_fuse_ne {i : Instr} {s t : State} {b : Nat} (ht : exec i s = .next t) (hb : b < 2560)
    (hne : t.chip.fuse b ≠ s.chip.fuse b) :
    s.chip.fuse b = false ∧ s.chip.fuse 2520 = false ∧ ∃ rise trstN tms tdi, i = .jtagTckEdge rise trstN tms tdi := by
  cases hi : programsFuses i with
  | false => exact absurd ((exec_keepsFuses hi s).fuse_eq ht b) hne
  | true =>
    obtain rfl | ⟨rise, trstN, tms, tdi, rfl⟩ := programsFuses_cases hi
    · cases (State.runFuse_eq s Chip.release).symm.trans ht
      exact absurd (Chip.release_fuse hb s.chip) hne
    · cases (State.runFuse_eq s (Chip.tckEdge rise trstN tms tdi)).symm.trans ht
      obtain ⟨hzero, hkeyset⟩ := Chip.tckEdge_fuse_ne (c := s.chip) hne
      exact ⟨hzero, hkeyset, rise, trstN, tms, tdi, rfl⟩

/-- A bit below the rollback slots that a step changes was 0, KEYSET was 0, and the step is an edge of JTAG_TCK. -/
theorem step_fuse_ne {s t : State} {b : Nat} (ht : step s = .next t) (hb : b < 2560)
    (hne : t.chip.fuse b ≠ s.chip.fuse b) :
    s.chip.fuse b = false ∧ s.chip.fuse 2520 = false ∧
      ∃ rise trstN tms tdi rest, s.pending = .jtagTckEdge rise trstN tms tdi :: rest := by
  unfold step at ht
  split at ht
  · next i rest hpending =>
    obtain ⟨hzero, hkeyset, rise, trstN, tms, tdi, rfl⟩ := exec_fuse_ne ht hb hne
    exact ⟨hzero, hkeyset, rise, trstN, tms, tdi, rest, hpending⟩
  · exact absurd ((State.runClock_keepsFuses s Chip.idleTick).fuse_eq ht b) hne

/-! ### The signature block without KEYSET -/

/-- AUTH is reported before ROLLBACK (R39). -/
theorem St.pick_auth_rollback (old : Bool) : St.pick [St.AUTH, St.when old St.ROLLBACK] = St.AUTH := by
  cases old <;> rfl

/-- While KEYSET is 0 the signature block fails the slot with AUTH, whatever its octets. -/
theorem Chip.signatureBlock_of_keyset_zero {c : Chip} (hphase : c.boot.phase = .signature) (hkeyset : c.fuse 2520 = false)
    (l : List Octet) : c.signatureBlock l = c.slotFail St.AUTH c.boot.total := by
  have hbad (good : Bool) : St.when (!(false && good)) St.AUTH = St.AUTH := rfl
  have hfail : St.AUTH ≠ St.OK := by decide
  simp only [Chip.signatureBlock, hphase, hkeyset, Bool.and_assoc, hbad, St.pick_auth_rollback, ne_eq, not_true_eq_false,
    if_false, if_pos hfail]

/-- Settles O5: an edge of JTAG_TCK is the one step that changes a bit of the key, from 0 and with KEYSET 0, so with KEYSET 1
there is none; and with KEYSET 0 no signature is good. -/
theorem keyBitsProgrammedOnceByTestPort : Obligations.KeyBitsProgrammedOnceByTestPort := by
  refine ⟨fun s t b ht _ hhi hne => ?once, fun s t b ht hkeyset _ hhi => ?locked, fun octets s hphase hkeyset => ?refused⟩
  case once => exact step_fuse_ne ht (by omega) hne
  case locked =>
    by_contra hne
    obtain ⟨_, hzero, _⟩ := step_fuse_ne ht (by omega) hne
    exact absurd (hkeyset.symm.trans hzero) Bool.noConfusion
  case refused =>
    refine ⟨_, State.runBoot_eq s (Chip.signatureBlock octets), ?_⟩
    rw [Chip.signatureBlock_of_keyset_zero hphase hkeyset]
    exact ⟨rfl, rfl, Cells.find?_insert_same _ _ _⟩

end Sys2Proof.Machine
end
